-- ==== Sys2Proof/Word.lean ====
section
/-! DEFINITION. The word types of the block (spec 00_scope, R4, R10): 8-bit bytes, 16-bit half words, 32-bit cells and
registers, 48-bit timer values and 64-bit identifiers, and the plainest facts about them. -/

namespace Sys2Proof

/-- One byte of a record, a frame or a memory. -/
abbrev Byte := BitVec 8

/-- A 16-bit field: tags, indices, cell addresses. -/
abbrev Half := BitVec 16

/-- A 32-bit word: a register (R10) or a cell (R96). -/
abbrev Word := BitVec 32

/-- A 48-bit value of the timer array and of the monitors' positions. -/
abbrev Word48 := BitVec 48

/-- A 64-bit value: UIDs, node words. -/
abbrev Word64 := BitVec 64

/-- Sparse contents of a memory of `w`-bit units: (address, value) pairs in one canonical form, the addresses strictly
rising and no entry equal to what an unlisted address reads as (`Machine.Mem.wf`). -/
abbrev Mem (w : Nat) := List (Nat × BitVec w)

end Sys2Proof
end

