-- ==== Sys2Proof/Machine/Bits.lean ====
section
/-! DEFINITION. Bit fields, byte order, saturation, two's complement, tables with an index, and the sparse memories. Every
helper that a meaning uses on raw bits stands here. -/

namespace Sys2Proof.Machine

/-! ### Numbers -/

/-- A count that stops at its maximum (the registers' "saturating"). -/
def satInc (m v : Nat) : Nat := if v < m then v + 1 else m

/-- A `w`-bit register count that stops at all ones. -/
def satUp {w : Nat} (v : BitVec w) : BitVec w := if v = BitVec.allOnes w then v else v + 1

/-- `w`-bit register count raised by `k`, stopping at all ones. -/
def satAdd {w : Nat} (v : BitVec w) (k : Nat) : BitVec w := BitVec.ofNat w (min (v.toNat + k) (2 ^ w - 1))

/-- Limits an exact result to the signed 32-bit range (R104, R147). -/
def sat32 (x : Int) : Int := max (-2147483648) (min x 2147483647)

/-- The word that codes a signed number that lies in range (R101). -/
def wordOfInt (x : Int) : Word := BitVec.ofInt 32 x

/-- Quotient of integers rounded towards zero. -/
def truncDiv (a b : Int) : Int := Int.tdiv a b

/-- Distance of two instants: `|a - b|` over the naturals. -/
def tickDist (a b : Nat) : Nat := (a - b) + (b - a)

/-- Bits [hi:lo] of a natural number, as a number. -/
def bits (v hi lo : Nat) : Nat := (v / 2 ^ lo) % 2 ^ (hi + 1 - lo)

/-- Bit `i` of a natural number. -/
def bitOf (v i : Nat) : Bool := v.testBit i

/-- 1 for true, 0 for false. -/
def b2n (b : Bool) : Nat := if b then 1 else 0

/-- A one-bit field at bit `i` of a register. -/
def at1 (b : Bool) (i : Nat) : Nat := if b then 2 ^ i else 0

/-! ### Byte order -/

/-- `k` bytes of a number, least significant first (R5). -/
def leBytes : Nat → Nat → List Byte
  | 0, _ => []
  | k + 1, v => BitVec.ofNat 8 v :: leBytes k (v / 256)

/-- The number that bytes spell, least significant first (R5). -/
def leNat : List Byte → Nat
  | [] => 0
  | b :: r => b.toNat + 256 * leNat r

/-- `k` bytes of a number, most significant first (ring frames, R5). -/
def beBytes (k v : Nat) : List Byte := (leBytes k v).reverse

/-- The number that bytes spell, most significant first. -/
def beNat (l : List Byte) : Nat := leNat l.reverse

/-- `n` bytes of a string from offset `o`; bytes beyond its end read 0. -/
def slice (l : List Byte) (o n : Nat) : List Byte :=
  let t := (l.drop o).take n
  t ++ List.replicate (n - t.length) 0

/-- Little-endian number of `n` bytes at offset `o`. -/
def leAt (l : List Byte) (o n : Nat) : Nat := leNat (slice l o n)

/-- Number of `n` bytes at offset `o`, most significant byte first. -/
def beAt (l : List Byte) (o n : Nat) : Nat := beNat (slice l o n)

/-- Byte string of length `n`: cut or filled with zeros. -/
def padTo (n : Nat) (l : List Byte) : List Byte := l.take n ++ List.replicate (n - l.length) 0

/-- Signed value of an unsigned `w`-bit number. -/
def toSigned (w v : Nat) : Int := if v % 2 ^ w < 2 ^ (w - 1) then (v % 2 ^ w : Nat) else (v % 2 ^ w : Nat) - (2 ^ w : Nat)

/-- Unsigned `w`-bit coding of a signed value. -/
def ofSigned (w : Nat) (x : Int) : Nat := (x % (2 ^ w : Nat)).toNat

/-- 32-bit registers at a time, each in four bytes (results that list registers). -/
def words (l : List Nat) : List Byte := l.flatMap (leBytes 4)

/-- Byte string with the bytes of each part written at its offset, zeros elsewhere (R324: undefined result bytes are 0).
The parts are given in rising order of offset. -/
def layout (parts : List (Nat × List Byte)) : List Byte :=
  parts.foldl (fun acc p => acc ++ List.replicate (p.1 - acc.length) 0 ++ p.2) []

/-! ### Tables with an index -/

/-- Entry `i` of a fixed table; the default beyond its end. -/
def vget {α : Type} [Inhabited α] {n : Nat} (v : Vector α n) (i : Nat) : α :=
  if h : i < n then v[i] else default

/-- The table with entry `i` replaced; unchanged where there is no entry `i`. -/
def vset {α : Type} {n : Nat} (v : Vector α n) (i : Nat) (a : α) : Vector α n :=
  if h : i < n then v.set i a h else v

/-- The table with a change made to entry `i`. -/
def vmod {α : Type} [Inhabited α] {n : Nat} (v : Vector α n) (i : Nat) (f : α → α) : Vector α n :=
  vset v i (f (vget v i))

/-- Table of `n` entries given by their index. -/
def vtab {α : Type} (n : Nat) (f : Nat → α) : Vector α n := Vector.ofFn fun i => f i.val

/-- Change of every entry, with its index. -/
def vmapi {α β : Type} {n : Nat} (f : Nat → α → β) (v : Vector α n) : Vector β n := v.mapIdx f

/-- Entry `i` of a list, with a default. -/
def lget {α : Type} (l : List α) (i : Nat) (d : α) : α := (l[i]?).getD d

/-- Does an entry of a table satisfy `p`? -/
def vany {α : Type} {n : Nat} (v : Vector α n) (p : α → Bool) : Bool := v.toList.any p

/-- Do all entries of a table satisfy `p`? -/
def vall {α : Type} {n : Nat} (v : Vector α n) (p : α → Bool) : Bool := v.toList.all p

/-- Number of the first entry that satisfies `p`. -/
def vfind {α : Type} {n : Nat} (v : Vector α n) (p : α → Bool) : Option Nat := v.toList.findIdx? p

/-! ### Sparse memories -/

/-- What address `a` reads as; `d` is what an unlisted address reads as. -/
def Mem.read {w : Nat} (d : BitVec w) : Mem w → Nat → BitVec w
  | [], _ => d
  | (k, v) :: r, a => if a = k then v else if a < k then d else Mem.read d r a

/-- The memory with `v` at address `a`, in canonical form: writing what an unlisted address reads as removes the entry. -/
def Mem.write {w : Nat} (d : BitVec w) : Mem w → Nat → BitVec w → Mem w
  | [], a, v => if v = d then [] else [(a, v)]
  | (k, u) :: r, a, v =>
    if a < k then (if v = d then (k, u) :: r else (a, v) :: (k, u) :: r)
    else if a = k then (if v = d then r else (a, v) :: r)
    else (k, u) :: Mem.write d r a v

/-- Are all the addresses of a memory above `b`, strictly rising, and no entry equal to the unlisted value? -/
def Mem.wfFrom {w : Nat} (d : BitVec w) : Nat → Mem w → Bool
  | _, [] => true
  | b, (k, v) :: r => decide (b ≤ k) && decide (v ≠ d) && Mem.wfFrom d (k + 1) r

/-- The canonical form: addresses strictly rising, no entry equal to what an unlisted address reads as. -/
def Mem.wf {w : Nat} (d : BitVec w) (m : Mem w) : Bool := Mem.wfFrom d 0 m

/-- Several writes, in their order. -/
def Mem.writes {w : Nat} (d : BitVec w) (m : Mem w) (l : List (Nat × BitVec w)) : Mem w :=
  l.foldl (fun m p => Mem.write d m p.1 p.2) m

/-- Bytes written from an address upwards. -/
def Mem.writeBytes (d : Byte) (m : Mem 8) (a : Nat) : List Byte → Mem 8
  | [] => m
  | b :: r => Mem.writeBytes d (Mem.write d m a b) (a + 1) r

/-- The memory that holds a byte string from address `a` on, in canonical form. -/
def Mem.ofBytes {w : Nat} (d : BitVec w) : Nat → List (BitVec w) → Mem w
  | _, [] => []
  | a, b :: r => if b = d then Mem.ofBytes d (a + 1) r else (a, b) :: Mem.ofBytes d (a + 1) r

/-- `n` bytes read from an address upwards. -/
def Mem.readBytes (d : Byte) (m : Mem 8) (a : Nat) : Nat → List Byte
  | 0 => []
  | n + 1 => Mem.read d m a :: Mem.readBytes d m (a + 1) n

/-- Little-endian number of `n` bytes from an address upwards. -/
def Mem.readLe (d : Byte) (m : Mem 8) (a n : Nat) : Nat := leNat (Mem.readBytes d m a n)

/-- The memory without the addresses in `[lo, hi)`: they read as unlisted ones do. -/
def Mem.clearRange {w : Nat} (m : Mem w) (lo hi : Nat) : Mem w := m.filter fun p => p.1 < lo || hi ≤ p.1

end Sys2Proof.Machine
end

