-- ==== Sys2Proof/Machine/Codes.lean ====
section
/-! DEFINITION. The check codes of the spec: CRC-32C (R91), the CRC-16 of the sideband frame, the event records and the
fuse groups (R366), SHA-256 and what stands on it (HMAC, PBKDF2 of R331 and R421, the hash chain of R424), and ECDSA over
P-256 (R92, R441). -/

namespace Sys2Proof.Machine

/-! ### Cyclic redundancy checks -/

/-- One bit of the reflected CRC-32C register, polynomial 0x82F6_3B78 in reflected form (R91). -/
def crc32cBit (c : Word) : Word := if c.getLsbD 0 then (c >>> 1) ^^^ 0x82F63B78#32 else c >>> 1

/-- `n` bit steps. -/
def crc32cBits : Nat → Word → Word
  | 0, c => c
  | n + 1, c => crc32cBits n (crc32cBit c)

/-- One byte into the CRC-32C register. -/
def crc32cByte (c : Word) (b : Byte) : Word := crc32cBits 8 (c ^^^ b.setWidth 32)

/-- CRC-32C of a byte string: initial value and final XOR all ones (R91). -/
def crc32c (l : List Byte) : Word := (l.foldl crc32cByte 0xFFFFFFFF#32) ^^^ 0xFFFFFFFF#32

/-- One bit of the CRC-16 register, polynomial 0x1021, no reflection (R366). -/
def crc16Bit (c : Half) : Half := if c.getLsbD 15 then (c <<< 1) ^^^ 0x1021#16 else c <<< 1

/-- `n` bit steps. -/
def crc16Bits : Nat → Half → Half
  | 0, c => c
  | n + 1, c => crc16Bits n (crc16Bit c)

/-- One byte into the CRC-16 register. -/
def crc16Byte (c : Half) (b : Byte) : Half := crc16Bits 8 (c ^^^ (b.setWidth 16 <<< 8))

/-- CRC-16 of a byte string: initial value 0xFFFF, no final XOR (R366). -/
def crc16 (l : List Byte) : Half := l.foldl crc16Byte 0xFFFF#16

/-! ### SHA-256 (R92, R237, R332, R408, R421, R424, R441)

The eight working words stand in one 256-bit value, the first of them in its upper bits, and the sixteen words of the message schedule that
the next round needs in one 512-bit value. -/

/-- Round constants, eight to a numeral, the first of them in the upper bits. -/
def shaConsts : List Nat :=
  [0x428A2F9871374491B5C0FBCFE9B5DBA53956C25B59F111F1923F82A4AB1C5ED5,
   0xD807AA9812835B01243185BE550C7DC372BE5D7480DEB1FE9BDC06A7C19BF174,
   0xE49B69C1EFBE47860FC19DC6240CA1CC2DE92C6F4A7484AA5CB0A9DC76F988DA,
   0x983E5152A831C66DB00327C8BF597FC7C6E00BF3D5A7914706CA635114292967,
   0x27B70A852E1B21384D2C6DFC53380D13650A7354766A0ABB81C2C92E92722C85,
   0xA2BFE8A1A81A664BC24B8B70C76C51A3D192E819D6990624F40E3585106AA070,
   0x19A4C1161E376C082748774C34B0BCB5391C0CB34ED8AA4A5B9CCA4F682E6FF3,
   0x748F82EE78A5636F84C878148CC7020890BEFFFAA4506CEBBEF9A3F7C67178F2]

/-- Constant of round t. -/
def shaConst (t : Nat) : Word := BitVec.ofNat 32 (lget shaConsts (t / 8) 0 >>> (32 * (7 - t % 8)))

/-- The chaining value before the first block. -/
def shaStart : BitVec 256 := 0x6A09E667BB67AE853C6EF372A54FF53A510E527F9B05688C1F83D9AB5BE0CD19#256

/-- Word i of a value, counted from its upper end. -/
def shaWord {n : Nat} (v : BitVec n) (i : Nat) : Word := v.extractLsb' (n - 32 * (i + 1)) 32

/-- The sum modulo 2 of two rotations of a word and a third term. -/
def shaMix (x : Word) (r q : Nat) (third : Word) : Word := third ^^^ (x.rotateRight r ^^^ x.rotateRight q)

/-- The schedule goes on by one word. -/
def shaShift (w : BitVec 512) : BitVec 512 :=
  let near := shaWord w 1
  let far := shaWord w 14
  let fresh := shaWord w 0 + shaMix near 7 18 (near >>> 3) + (shaWord w 9 + shaMix far 17 19 (far >>> 10))
  (w <<< 32) ||| fresh.setWidth 512

/-- A round with the sum `kw` of its constant and its schedule word: every working word moves down by one place, the fourth and the last
take sums. -/
def shaTurn (kw : Word) (v : BitVec 256) : BitVec 256 :=
  let x := shaWord v 4
  let choice := shaWord v 6 ^^^ (x &&& (shaWord v 5 ^^^ shaWord v 6))
  let sum := shaWord v 7 + kw + choice + shaMix x 6 11 (x.rotateRight 25)
  let y := shaWord v 0
  let most := (y &&& (shaWord v 1 ||| shaWord v 2)) ||| (shaWord v 1 &&& shaWord v 2)
  let first := sum + most + shaMix y 2 13 (y.rotateRight 22)
  first ++ v.extractLsb' 160 96 ++ (shaWord v 3 + sum) ++ v.extractLsb' 32 96

/-- The last `n` of the 64 rounds of a block. -/
def shaTurns : Nat → BitVec 512 → BitVec 256 → BitVec 256
  | 0, _, v => v
  | n + 1, w, v => shaTurns n (shaShift w) (shaTurn (shaConst (63 - n) + shaWord w 0) v)

/-- A block of 512 bits into the chaining value. -/
def shaBlock (h : BitVec 256) (blk : BitVec 512) : BitVec 256 :=
  let v := shaTurns 64 blk h
  (List.range 8).foldl (fun acc i => (acc <<< 32) ||| (shaWord h i + shaWord v i).setWidth 256) 0

/-- SHA-256 of a byte string, 32 bytes: the message, a bit 1, zeros, and its length in bits fill whole blocks. -/
def sha256 (m : List Byte) : List Byte :=
  let n := (m.length + 72) / 64
  let p := padTo (64 * n - 8) (m ++ [0x80#8]) ++ beBytes 8 (8 * m.length)
  beBytes 32 ((List.range n).foldl (fun h i => shaBlock h (BitVec.ofNat 512 (beAt p (64 * i) 64))) shaStart).toNat

/-! ### Password derivation (R331, R421) -/

/-- HMAC-SHA256. -/
def hmac (key m : List Byte) : List Byte :=
  let k := padTo 64 (if key.length ≤ 64 then key else sha256 key)
  sha256 ((k.map (· ^^^ 0x5C#8)) ++ sha256 ((k.map (· ^^^ 0x36#8)) ++ m))

/-- The iterated XOR of PBKDF2: the last link `u` and the sum so far `t`. -/
def pbkdf2Iter (pw : List Byte) : Nat → List Byte → List Byte → List Byte
  | 0, _, t => t
  | n + 1, u, t => let u' := hmac pw u; pbkdf2Iter pw n u' (List.zipWith (· ^^^ ·) t u')

/-- PBKDF2-HMAC-SHA256 with 32 bytes of output (one block). -/
def pbkdf2 (pw salt : List Byte) (iter : Nat) : List Byte :=
  let u := hmac pw (salt ++ beBytes 4 1)
  pbkdf2Iter pw (iter - 1) u u

/-! ### ECDSA over P-256 -/

/-- Field prime of P-256. -/
def p256p : Nat := 0xffffffff00000001000000000000000000000000ffffffffffffffffffffffff
/-- Order of the base point. -/
def p256n : Nat := 0xffffffff00000000ffffffffffffffffbce6faada7179e84f3b9cac2fc632551
/-- Curve constant b. -/
def p256b : Nat := 0x5ac635d8aa3a93e7b3ebbd55769886bc651d06b0cc53b0f63bce3c3e27d2604b
/-- Base point. -/
def p256g : Nat × Nat :=
  (0x6b17d1f2e12c4247f8bce6e563a440f277037d812deb33a0f4a13945d898c296,
   0x4fe342e2fe1a7f9b8ee7eb4a7c0f9e162bce33576b315ececbb6406837bf51f5)

/-- `a ^ e mod m` over the low `k` bits of the exponent. -/
def powMod (m : Nat) : Nat → Nat → Nat → Nat
  | 0, _, _ => 1 % m
  | k + 1, a, e =>
    let r := powMod m k (a * a % m) (e / 2)
    if e % 2 = 1 then a * r % m else r

/-- Inverse modulo a prime of at most 256 bits. -/
def invMod (m a : Nat) : Nat := powMod m 256 (a % m) (m - 2)

/-- Difference modulo `m`. -/
def subMod (m a b : Nat) : Nat := (a % m + m - b % m) % m

/-- Sum of two points of P-256 in affine form; `none` is the point at infinity. -/
def ecAdd (a b : Option (Nat × Nat)) : Option (Nat × Nat) :=
  match a, b with
  | none, q => q
  | q, none => q
  | some (x1, y1), some (x2, y2) =>
    if x1 = x2 ∧ (y1 + y2) % p256p = 0 then none else
    let l := if x1 = x2 ∧ y1 = y2
      then (3 * x1 * x1 + p256p - 3) % p256p * invMod p256p (2 * y1) % p256p
      else subMod p256p y2 y1 * invMod p256p (subMod p256p x2 x1) % p256p
    let x3 := subMod p256p (l * l) (x1 + x2)
    some (x3, subMod p256p (l * subMod p256p x1 x3) y1)

/-- Multiple of a point over the low `k` bits of the factor. -/
def ecMul : Nat → Nat → Option (Nat × Nat) → Option (Nat × Nat)
  | 0, _, _ => none
  | k + 1, e, q =>
    let r := ecMul k (e / 2) (ecAdd q q)
    if e % 2 = 1 then ecAdd q r else r

/-- Does a signature `(r, s)` verify over the 32-byte digest under the public key `(x, y)`? -/
def ecdsaVerify (x y r s : Nat) (digest : List Byte) : Bool :=
  let onCurve := x < p256p && y < p256p && (y * y) % p256p == (x * x % p256p * x + (p256p - 3) * x + p256b) % p256p
  let inRange := 0 < r && r < p256n && 0 < s && s < p256n
  if !(onCurve && inRange) then false else
  let w := invMod p256n s
  let u1 := beNat digest * w % p256n
  let u2 := r * w % p256n
  match ecAdd (ecMul 256 u1 (some p256g)) (ecMul 256 u2 (some (x, y))) with
  | none => false
  | some (px, _) => px % p256n == r

end Sys2Proof.Machine
end

