-- ==== Sys2Proof/Machine/Opcodes.lean ====
section
/-! DEFINITION. The node instruction set (04_graph_instructions R105 to R117): every opcode's direct function and its mirror
dual (R60, R110). A node is evaluated on the words its sources return; the direct pass gives the true words, the mirror pass
their complements. -/

namespace Sys2Proof.Machine

/-! ### The node word (R105) -/

/-- Opcode of a node word. -/
def nodeOp (n : Word64) : Nat := bits n.toNat 63 56
/-- Destination cell D. -/
def nodeDst (n : Word64) : Nat := bits n.toNat 55 40
/-- Source cell A. -/
def nodeA (n : Word64) : Nat := bits n.toNat 39 24
/-- Source cell B. -/
def nodeB (n : Word64) : Nat := bits n.toNat 23 8
/-- Modifier. -/
def nodeMod (n : Word64) : Nat := bits n.toNat 7 0

/-- What a node reads: cells A, A+1, B, B+1, D and its companions D+1 and D+2, the cells A … A+n−1 of the multi-cell
opcodes, whether A and B lie in a stamped input range (R104), and TBASE of t0. -/
structure NodeIn where
  op : Nat := 0
  md : Nat := 0
  a : Word := 0
  a1 : Word := 0
  b : Word := 0
  b1 : Word := 0
  d : Word := 0
  d1 : Word := 0
  d2 : Word := 0
  many : List Word := []
  stA : Bool := false
  stB : Bool := false
  t0 : Nat := 0
deriving DecidableEq, Repr, Inhabited

/-- What a node presents: result word, write strobe and the eight status flags (R63, R109). `reserved`: the flag pair `ERR`
is driven to equal rails, a mismatch at that node (R111). -/
structure NodeOut where
  value : Word := 0
  write : Bool := true
  flags : Byte := 0
  reserved : Bool := false
deriving DecidableEq, Repr, Inhabited

/-- The flag byte: `CY`, `OV`, `SAT`, `QBAD`, `DIAG`, `TRIG`, `LIM`, `ERR` in bits 0 to 7 (R109). -/
def mkFlags (cy ov sat qbad diag trig lim err : Bool) : Byte :=
  BitVec.ofNat 8 (at1 cy 0 + at1 ov 1 + at1 sat 2 + at1 qbad 3 + at1 diag 4 + at1 trig 5 + at1 lim 6 + at1 err 7)

/-! ### Boolean points (R97, R98, R101, R103) -/

/-- Value bit of a cell. -/
def v0 (x : Word) : Bool := x.getLsbD 0
/-- Quality bit of a cell. -/
def q1 (x : Word) : Bool := x.getLsbD 1
/-- Safe value: value and quality. -/
def sv (x : Word) : Bool := v0 x && q1 x
/-- Diagnostic code of a cell. -/
def dcode (x : Word) : Nat := bits x.toNat 7 4
/-- State code in bits [3:2] of a stateful result. -/
def stCode (x : Word) : Nat := bits x.toNat 3 2
/-- Time in bits [31:8] of a stateful result. -/
def stTime (x : Word) : Nat := bits x.toNat 31 8

/-- Word of a Boolean point: bit 0 is forced to 0 whenever the quality is 0 (R98). -/
def bpoint (v q : Bool) (code : Nat) : Word := BitVec.ofNat 32 (at1 (v && q) 0 + at1 q 1 + (code % 16) * 16)

/-- Stateful result: Boolean point with a state code and a time (R111, R113). -/
def spoint (v q : Bool) (st code time : Nat) : Word :=
  BitVec.ofNat 32 (at1 (v && q) 0 + at1 q 1 + (st % 4) * 4 + (code % 16) * 16 + (time % 2 ^ 24) * 256)

/-- Code of a result of bad quality: that of the first operand of bad quality, or the opcode's own when it is 0 (R103). -/
def pickCode (own : Nat) : List Word → Nat
  | [] => own
  | x :: r => if q1 x then pickCode own r else if dcode x = 0 then own else dcode x

/-- Result of a Boolean opcode with its flags. -/
def boolOut (w : Word) : NodeOut := { value := w, flags := mkFlags false false false (!q1 w) (dcode w != 0) false false false }

/-- Result of a compare or limit: quality 1, and for a violated limit code 0xD and `LIM` (R109). -/
def cmpOut (v limit : Bool) : NodeOut :=
  let bad := limit && !v
  { value := bpoint v true (if bad then 0xD else 0), flags := mkFlags false false false false bad false bad false }

/-- Result of a stateful opcode: `TRIG` when bit 0 differs from bit 0 of D before the node ran. -/
def statOut (d w : Word) (lim err : Bool) : NodeOut :=
  { value := w, flags := mkFlags false false false (!q1 w) (dcode w != 0) (v0 w != v0 d) lim err }

/-! ### Words and arithmetic -/

/-- A plain word result without flags. -/
def wordOut (w : Word) : NodeOut := { value := w }

/-- Did an exact signed result not fit 32 bits? -/
def ovf (x : Int) : Bool := x < -2147483648 || 2147483647 < x

/-- Unsigned or signed order of two words. -/
def ltw (signed : Bool) (a b : Word) : Bool := if signed then a.slt b else a.ult b
/-- Less than or equal, of the same signedness. -/
def lew (signed : Bool) (a b : Word) : Bool := if signed then a.sle b else a.ule b

/-- Conditions of `CMP`: 0 EQ, 1 NE, 2 LT, 3 LE, 4 GT, 5 GE. -/
def condW (c : Nat) (signed : Bool) (a b : Word) : Bool :=
  match c with
  | 0 => a == b
  | 1 => a != b
  | 2 => ltw signed a b
  | 3 => lew signed a b
  | 4 => ltw signed b a
  | _ => lew signed b a

/-- The dual condition: EQ and NE exchanged, LT and LE exchanged, GT and GE exchanged. -/
def dualCond (c : Nat) : Nat := match c with | 0 => 1 | 1 => 0 | 2 => 3 | 3 => 2 | 4 => 5 | _ => 4

/-- Unsigned magnitude of a signed word; of 0x8000_0000 it is 2³¹. -/
def magW (a : Word) : Word := if a.msb then -a else a

/-! ### Edges and times (R104, R111) -/

/-- Full time of a 24-bit stamp frozen at t0 (R104). -/
def fullTime (t0 stamp : Nat) : Nat := t0 - ((t0 + 2 ^ 24 - stamp % 2 ^ 24) % 2 ^ 24)

/-- `E` of a source: only a stamped input cell has one. -/
def edgeE (st : Bool) (x : Word) : Bool := st && x.getLsbD 3
/-- `OVR` of a source: only a stamped input cell has one. -/
def edgeOvr (st : Bool) (x : Word) : Bool := st && x.getLsbD 2
/-- Time of a change of a source: its full edge time when `E` = 1, else TBASE of t0. -/
def edgeTime (st : Bool) (t0 : Nat) (x : Word) : Nat := if edgeE st x then fullTime t0 (bits x.toNat 31 8) else t0

/-- Result of a parameter or state code out of range: bit 0 = 0, quality 0, code 0xF, `ERR` (R117). -/
def errOut (d : Word) (st time : Nat) : NodeOut := statOut d (spoint false false st 0xF time) false true

/-- A timing node's start on entering running: the edge time of A when A has one, else t0, in units of 16ᵐ ticks (R111). -/
def unitTime (m t : Nat) : Nat := (t / 16 ^ m) % 2 ^ 24

/-- `TON`, `TOF` and `TP` (R111), as the new phase and start after the transitions of one freeze, in the order written. -/
def timerPhase (op : Nat) (sa q : Bool) (ph start new u0 preset : Nat) : Nat × Nat :=
  let el (s : Nat) : Nat := (u0 + 2 ^ 24 - s) % 2 ^ 24
  match op with
  | 0x34 =>
    let (p, s) := if ph = 0 ∧ sa then (1, new) else (ph, start)
    let p := if p = 1 ∧ !sa then 0 else p
    let p := if p = 1 ∧ preset ≤ el s then 2 else p
    (if p = 2 ∧ !sa then 0 else p, s)
  | 0x35 =>
    if !q then (0, start)
    else if sa then (2, start)
    else
      let (p, s) := if ph = 2 then (1, new) else (ph, start)
      (if p = 1 ∧ preset ≤ el s then 0 else p, s)
  | _ =>
    if !q then (0, start)
    else
      let (p, s) := if ph = 0 ∧ sa then (1, new) else (ph, start)
      let p := if p = 1 ∧ preset ≤ el s then 2 else p
      (if p = 2 ∧ !sa then 0 else p, s)

/-- Direct pass of `TON` (0x34), `TOF` (0x35) and `TP` (0x36). -/
def timerOp (n : NodeIn) : NodeOut :=
  let m := n.md % 4
  let ph := stCode n.d
  let start := stTime n.d
  let preset := n.b.toNat
  if preset = 0 ∨ 2 ^ 23 - 1 < preset ∨ ph = 3 then errOut n.d 0 start
  else
    let q := q1 n.a
    let u0 := unitTime m n.t0
    let (p, s) := timerPhase n.op (sv n.a) q ph start (unitTime m (edgeTime n.stA n.t0 n.a)) u0 preset
    let v := match n.op with
      | 0x34 => p == 2
      | 0x35 => p != 0
      | _ => p == 1
    statOut n.d (spoint v q p (if q then 0 else pickCode 0 [n.a]) s) false false

/-- Direct pass of `DISC2` (0x38) and `OSSD2` (0x39) (R113): states 0 OFF, 1 ON, 2 PENDING, 3 FAULT. -/
def discOp (n : NodeIn) : NodeOut :=
  let ossd := n.op == 0x39
  let td := n.d1.toNat
  let toff := n.d2.toNat
  let st := stCode n.d
  let start := stTime n.d
  if td < 16000 ∨ 8000000 < td ∨ (ossd ∧ 8000000 < toff) then errOut n.d 3 start
  else
    let x := v0 n.a
    let y := v0 n.b != n.md.testBit 1
    let q := q1 n.a && q1 n.b
    let ea := edgeE n.stA n.a
    let eb := edgeE n.stB n.b
    let ta := edgeTime n.stA n.t0 n.a
    let tb := edgeTime n.stB n.t0 n.b
    let ovr := edgeOvr n.stA n.a || edgeOvr n.stB n.b
    let since (t s : Nat) : Nat := (t % 2 ^ 24 + 2 ^ 24 - s) % 2 ^ 24
    let late := if ea && eb then max ta tb else if ea then ta else if eb then tb else n.t0
    let first := if x && y then min ta tb else if x then ta else tb
    let early := ossd && since first start < toff
    -- new state, new start, new code (none: the code stays with a state that stays, else 0)
    let r : Nat × Nat × Option Nat :=
      if !q then (3, start, some (pickCode 0xA [n.a, n.b]))
      else if st = 3 then (if !x && !y then (0, n.t0 % 2 ^ 24, some 0) else (3, start, none))
      else if ovr && !(st == 0 && !x && !y) then (3, start, some 0xB)
      else if x = y then
        let moved := x != (st == 1)
        let dlt := if st = 2 then since late start
          else if moved && ea && eb then tickDist ta tb % 2 ^ 24 else 0
        if td ≤ dlt then (3, start, some 0xA)
        else if x ∧ st = 0 ∧ early then (3, start, some 0xE)
        else if moved ∨ st = 2 then (if x then (1, start, some 0) else (0, late % 2 ^ 24, some 0))
        else (st, start, some 0)
      else if st = 0 ∧ early then (3, start, some 0xE)
      else
        -- the channel that broke agreement: from ON the one now 0, from OFF the one now 1
        let broke := if x = (st == 0) then ta else tb
        let s := if st = 2 then start else broke % 2 ^ 24
        if td ≤ since n.t0 s then (3, s, some 0xA) else (2, s, some 0)
    let st' := r.1
    let time := if !ossd && (st' = 0 || st' = 1) then 0 else r.2.1
    statOut n.d (spoint (st' == 1) q st' (r.2.2.getD (dcode n.d)) time) false false

/-- Direct pass of `RSTI` (0x3A) (R114): states 0 BLOCKED, 1 ARMED, 2 PRESSED, 3 ON; times in µs, TBASE[27:4]. -/
def rstiOp (n : NodeIn) : NodeOut :=
  let tmin := n.d1.toNat
  let tmax := n.d2.toNat
  let st := stCode n.d
  let press := stTime n.d
  if tmax ≤ tmin ∨ 16000000 < tmax then errOut n.d 0 press
  else
    let us (t : Nat) : Nat := t / 16 % 2 ^ 24
    let since (t : Nat) : Nat := (us t + 2 ^ 24 - press) % 2 ^ 24
    let sa := sv n.a
    let sb := sv n.b
    let bq := q1 n.b
    let tb := edgeTime n.stB n.t0 n.b
    let held := st = 0 ∧ dcode n.d = 0xE ∧ q1 n.d
    -- new state, new press time, timed out
    let r : Nat × Nat × Bool :=
      if n.md.testBit 0 then (if sa then 3 else 0, press, false)
      else if !sa then (0, press, held)
      else match st with
        | 0 => if !sb then (1, press, false) else (0, press, held)
        | 1 => if bq && sb then (2, us tb, false) else (1, press, false)
        | 2 =>
          if !bq then (1, press, false)
          else if !sb then (if tmin ≤ since tb ∧ since tb ≤ tmax then 3 else 1, press, false)
          else if tmax < since n.t0 then (0, press, true) else (2, press, false)
        | _ => (3, press, false)
    let code := if !q1 n.a then pickCode 0xE [n.a]
      else if r.1 = 3 ∧ !n.md.testBit 0 ∧ !bq then pickCode 0xE [n.b]
      else if r.2.2 then 0xE else 0
    statOut n.d (spoint (r.1 == 3) (q1 n.a) r.1 code r.2.1) false false

/-- Direct pass of `EDM` (0x3B) (R115): states 0 CONSISTENT, 1 SWITCHING, 2 FAULT. -/
def edmOp (n : NodeIn) : NodeOut :=
  let tfb := n.d1.toNat
  let st := stCode n.d
  let start := stTime n.d
  if tfb = 0 ∨ 2 ^ 23 - 1 < tfb ∨ st = 3 then errOut n.d 2 start
  else
    let agree := sv n.b != sv n.a
    let r : Nat × Nat :=
      if !q1 n.b then (2, start)
      else match st with
        | 0 => if agree then (0, start) else (1, n.t0 % 2 ^ 24)
        | 1 => if agree then (0, start)
               else if tfb ≤ (n.t0 % 2 ^ 24 + 2 ^ 24 - start) % 2 ^ 24 then (2, start) else (1, start)
        | _ => if !sv n.a && sv n.b then (0, start) else (2, start)
    let code := if !q1 n.a then pickCode 0xC [n.a] else if r.1 = 2 then 0xC else 0
    statOut n.d (spoint (r.1 != 2) (q1 n.a) r.1 code r.2) false false

/-- Direct pass of `BTST` (0x3C) (R116): |a − b| computed exactly against the allowed movement. -/
def btstOp (n : NodeIn) : NodeOut :=
  let ok := (n.a.toInt - n.b.toInt).natAbs ≤ n.d1.toNat
  statOut n.d (bpoint ok true (if ok then 0 else 0xD)) (!ok) false

/-- AND and OR over the value bits of the multi-cell opcodes (R111). -/
def manyOut (isOr : Bool) (inv : Bool) (l : List Word) : NodeOut :=
  let q := l.all q1
  let v := (if isOr then l.any v0 else l.all v0) != inv
  boolOut (bpoint v q (if q then 0 else pickCode 0 l))

/-- Two-input Boolean result with the code of R103. -/
def twoOut (v : Bool) (a b : Word) : NodeOut :=
  let q := q1 a && q1 b
  boolOut (bpoint v q (if q then 0 else pickCode 0 [a, b]))

/-- Is a `MOD` byte one that the opcode uses (R93 reason 0x04, R111)? -/
def modOk (op md : Nat) : Bool :=
  match op with
  | 0x18 | 0x19 | 0x24 | 0x25 | 0x26 => md == 0 || md == 8
  | 0x1A | 0x1B | 0x1C | 0x1D | 0x1E | 0x21 => md < 32
  | 0x20 => md < 16 && md % 8 < 6
  | 0x28 | 0x29 | 0x2A => md < 8
  | 0x2C | 0x2D => md < 128
  | 0x34 | 0x35 | 0x36 => md < 4
  | 0x38 | 0x39 => md == 0 || md == 2
  | 0x3A => md < 2
  | _ => md == 0

/-- The opcodes listed in the tables of R111 to R116. -/
def opListed (op : Nat) : Bool :=
  op ≤ 0x03 || (0x08 ≤ op && op ≤ 0x0D) || (0x10 ≤ op && op ≤ 0x1E) || op == 0x20 || op == 0x21 ||
  (0x24 ≤ op && op ≤ 0x2E) || (0x30 ≤ op && op ≤ 0x36) || (0x38 ≤ op && op ≤ 0x3C)

/-- Does the opcode use source field B? -/
def usesB (op md : Nat) : Bool :=
  match op with
  | 0x00 | 0x01 | 0x0C | 0x16 | 0x17 | 0x1A | 0x1B | 0x1C | 0x1D | 0x1E | 0x21 | 0x2B | 0x2C | 0x2D | 0x30 | 0x31 => false
  | 0x3A => md % 2 == 0
  | _ => true

/-- Is the node word one that acceptance does not refuse under reason 0x04 as far as the word alone shows: opcode defined,
every unused operand field and modifier bit 0 (R93, R111)? -/
def nodeWordOk (n : Word64) : Bool :=
  let op := nodeOp n
  opListed op && modOk op (nodeMod n) && (usesB op (nodeMod n) || nodeB n == 0) &&
  (op != 0 || (nodeDst n == 0 && nodeA n == 0))

/-- Cells a multi-cell opcode spans: n of `MOD`[5:0] + 1. -/
def manyLen (md : Nat) : Nat := md % 64 + 1

/-- Slots of a node; 1 for a word handled as reserved (R106, R111). -/
def nodeSlots (n : Word64) : Nat :=
  if !nodeWordOk n then 1 else
  match nodeOp n with
  | 0x02 | 0x14 | 0x15 | 0x26 | 0x27 | 0x30 | 0x31 | 0x32 | 0x33 => 2
  | 0x3C => 3
  | 0x34 | 0x35 | 0x36 => 4
  | 0x3A | 0x3B => 6
  | 0x38 | 0x39 => 8
  | 0x2C | 0x2D => (manyLen (nodeMod n) + 1) / 2
  | _ => 1

/-! ### Direct pass -/

/-- The direct function of every opcode (R111 to R117). -/
def directOp (n : NodeIn) : NodeOut :=
  let a := n.a
  let b := n.b
  let sg := n.md.testBit 3
  let sh := n.md % 32
  let m0 := n.md.testBit 0
  let m1 := n.md.testBit 1
  let m2 := n.md.testBit 2
  match n.op with
  | 0x00 => { value := 0, write := false }
  | 0x01 => wordOut a
  | 0x02 => wordOut (if v0 b then a else n.a1)
  | 0x03 => { value := a, write := v0 b }
  | 0x08 => wordOut (a &&& b)
  | 0x09 => wordOut (a ||| b)
  | 0x0A => wordOut (a ^^^ b)
  | 0x0B => wordOut (~~~(a ^^^ b))
  | 0x0C => wordOut (~~~a)
  | 0x0D => wordOut (a &&& ~~~b)
  | 0x10 => { value := a + b, flags := mkFlags (2 ^ 32 ≤ a.toNat + b.toNat) (ovf (a.toInt + b.toInt)) false false false false false false }
  | 0x11 => { value := a - b, flags := mkFlags (a.ult b) (ovf (a.toInt - b.toInt)) false false false false false false }
  | 0x12 => let x := a.toInt + b.toInt; { value := wordOfInt (sat32 x), flags := mkFlags false (ovf x) (ovf x) false false false false false }
  | 0x13 => let x := a.toInt - b.toInt; { value := wordOfInt (sat32 x), flags := mkFlags false (ovf x) (ovf x) false false false false false }
  | 0x14 => { value := a * b, flags := mkFlags false (ovf (a.toInt * b.toInt)) false false false false false false }
  | 0x15 => let x := a.toInt * b.toInt; { value := wordOfInt (sat32 x), flags := mkFlags false false (ovf x) false false false false false }
  | 0x16 => { value := -a, flags := mkFlags false (ovf (-a.toInt)) false false false false false false }
  | 0x17 => let x : Int := a.toInt.natAbs; { value := wordOfInt (sat32 x), flags := mkFlags false false (ovf x) false false false false false }
  | 0x18 => wordOut (if ltw sg b a then b else a)
  | 0x19 => wordOut (if ltw sg a b then b else a)
  | 0x1A => wordOut (a <<< sh)
  | 0x1B => wordOut (a >>> sh)
  | 0x1C => wordOut (a.sshiftRight sh)
  | 0x1D => wordOut (a.rotateLeft sh)
  | 0x1E => wordOut (a.rotateRight sh)
  | 0x20 => cmpOut (condW (n.md % 8) sg a b) false
  | 0x21 => cmpOut (a.getLsbD sh) false
  | 0x24 => cmpOut (lew sg a b) true
  | 0x25 => cmpOut (lew sg b a) true
  | 0x26 => cmpOut (lew sg b a && lew sg a n.b1) true
  | 0x27 => cmpOut ((magW a).ule b) true
  | 0x28 => twoOut (((v0 a != m0) && (v0 b != m1)) != m2) a b
  | 0x29 => twoOut (((v0 a != m0) || (v0 b != m1)) != m2) a b
  | 0x2A => twoOut (((v0 a != v0 b) != m0) != (m1 != m2)) a b
  | 0x2B => boolOut (bpoint (!v0 a) (q1 a) (if q1 a then 0 else pickCode 0 [a]))
  | 0x2C => manyOut false (n.md.testBit 6) n.many
  | 0x2D => manyOut true (n.md.testBit 6) n.many
  | 0x2E => boolOut (bpoint (v0 a) (q1 a && sv b) (if !q1 a then dcode a else if !sv b then dcode b else 0))
  | 0x30 => statOut n.d (spoint (sv a && !n.d.getLsbD 2) (q1 a) (b2n (sv a)) (if q1 a then 0 else dcode a) 0) false false
  | 0x31 => statOut n.d (spoint (!sv a && n.d.getLsbD 2) (q1 a) (b2n (sv a)) (if q1 a then 0 else dcode a) 0) false false
  | 0x32 => let q := q1 a && q1 b; statOut n.d (spoint (sv a || (v0 n.d && !sv b)) q 0 (if q then 0 else pickCode 0 [a, b]) 0) false false
  | 0x33 => let q := q1 a && q1 b; statOut n.d (spoint (!sv b && (sv a || v0 n.d)) q 0 (if q then 0 else pickCode 0 [a, b]) 0) false false
  | 0x34 | 0x35 | 0x36 => timerOp n
  | 0x38 | 0x39 => discOp n
  | 0x3A => rstiOp n
  | 0x3B => edmOp n
  | 0x3C => btstOp n
  | _ => { value := 0, write := false, reserved := true }

/-! ### Mirror pass -/

/-- The sources of a node with every word complemented: what the mirror pass reads where the direct pass reads `n` (R58). -/
def NodeIn.compl (n : NodeIn) : NodeIn :=
  { n with a := ~~~n.a, a1 := ~~~n.a1, b := ~~~n.b, b1 := ~~~n.b1, d := ~~~n.d, d1 := ~~~n.d1, d2 := ~~~n.d2,
           many := n.many.map (~~~ ·) }

/-- What a mirror pass presents where the direct pass presents `r`: value and flags complemented; the strobe is the same in
both passes (R60). -/
def NodeOut.compl (r : NodeOut) : NodeOut := { r with value := ~~~r.value, flags := ~~~r.flags }

/-- The dual f* of an operation f, with T the complement: f*(X) = T(f(T(X))). The tables give it as "Dual". -/
def dualOf (f : NodeIn → NodeOut) (n : NodeIn) : NodeOut := (f n.compl).compl

/-- Mirror form of a compare or limit whose dual gives `bit` for bit 0: quality and unused bits complemented, and for a limit
that holds (`bit` = 0) code 0x0 is presented as 0xF, for a violated one code 0xD as 0x2. -/
def dualCmpOut (bit limit : Bool) : NodeOut := (cmpOut (!bit) limit).compl

/-- Flags of a mirror result, complemented (R63); `ov` and `sat` are those of the dual's own exact result. -/
def dualFlags (cy ov sat : Bool) : Byte := mkFlags cy (!ov) (!sat) true true true true true

/-- The mirror dual of every opcode (R60, R110), on the complemented operands. -/
def mirrorOp (n : NodeIn) : NodeOut :=
  let A := n.a
  let B := n.b
  let sg := n.md.testBit 3
  let sh := n.md % 32
  let wo (w : Word) : NodeOut := { value := w, flags := 0xFF#8 }
  match n.op with
  | 0x00 => { value := 0xFFFFFFFF#32, write := false, flags := 0xFF#8 }
  | 0x01 => wo A
  | 0x02 => wo (if v0 B then n.a1 else A)
  | 0x03 => { value := A, write := !v0 B, flags := 0xFF#8 }
  | 0x08 => wo (A ||| B)
  | 0x09 => wo (A &&& B)
  | 0x0A => wo (~~~(A ^^^ B))
  | 0x0B => wo (A ^^^ B)
  | 0x0C => wo (~~~A)
  | 0x0D => wo (A ||| ~~~B)
  | 0x10 => { value := A + B + 1, flags := dualFlags (2 ^ 32 ≤ A.toNat + B.toNat + 1) (ovf (A.toInt + B.toInt + 1)) false }
  | 0x11 => { value := A - B - 1, flags := dualFlags (A.toNat < B.toNat + 1) (ovf (A.toInt - B.toInt - 1)) false }
  | 0x12 => let x := A.toInt + B.toInt + 1; { value := wordOfInt (sat32 x), flags := dualFlags true (ovf x) (ovf x) }
  | 0x13 => let x := A.toInt - B.toInt - 1; { value := wordOfInt (sat32 x), flags := dualFlags true (ovf x) (ovf x) }
  | 0x14 => { value := -(A * B + A + B + 2), flags := dualFlags true (ovf (-(A.toInt * B.toInt + A.toInt + B.toInt + 2))) false }
  | 0x15 =>
    let x := -(A.toInt * B.toInt + A.toInt + B.toInt + 2)
    { value := wordOfInt (sat32 x), flags := dualFlags true false (ovf x) }
  | 0x16 => { value := -A - 2, flags := dualFlags true (ovf (-A.toInt - 2)) false }
  | 0x17 =>
    if A.msb then { value := A, flags := dualFlags true false false }
    else let x := -A.toInt - 2; { value := wordOfInt (sat32 x), flags := dualFlags true false (ovf x) }
  | 0x18 => wo (if ltw sg A B then B else A)
  | 0x19 => wo (if ltw sg B A then B else A)
  | 0x1A => wo ((A <<< sh) ||| ~~~(0xFFFFFFFF#32 <<< sh))
  | 0x1B => wo ((A >>> sh) ||| ~~~(0xFFFFFFFF#32 >>> sh))
  | 0x1C => wo (A.sshiftRight sh)
  | 0x1D => wo (A.rotateLeft sh)
  | 0x1E => wo (A.rotateRight sh)
  | 0x20 => dualCmpOut (condW (dualCond (n.md % 8)) sg A B) false
  | 0x21 => dualCmpOut (A.getLsbD sh) false
  | 0x24 => dualCmpOut (ltw sg A B) true
  | 0x25 => dualCmpOut (ltw sg B A) true
  | 0x26 => dualCmpOut (ltw sg B A || ltw sg A n.b1) true
  | 0x27 => dualCmpOut ((if A.msb then A else -A - 2).ult B) true
  | _ => dualOf directOp n

end Sys2Proof.Machine
end

