-- ==== Sys2Proof/Machine/Image.lean ====
section
/-! DEFINITION. The graph image file (04_graph_instructions R86 to R95, R99, R104, R538): its parts, its reading from the
bytes of an image region, and acceptance. Also the cell ranges of R96. -/

namespace Sys2Proof.Machine

/-! ### Cell ranges (R96) -/

/-- Input image cells 0x0000–0x2ABF. -/
def isInputCell (c : Nat) : Bool := c ≤ 0x2ABF
/-- Stamped input ranges 0x0000–0x201F (R104). -/
def isStamped (c : Nat) : Bool := c ≤ 0x201F
/-- Remote output points. -/
def isRemoteOut (c : Nat) : Bool := 0x3000 ≤ c && c ≤ 0x3FFF
/-- SO0–SO15 and BO0–BO3. -/
def isLocalOut (c : Nat) : Bool := 0x4000 ≤ c && c ≤ 0x4013
/-- Cross-link transmit cells. -/
def isXlOut (c : Nat) : Bool := 0x4020 ≤ c && c ≤ 0x403F
/-- Host status cells. -/
def isHostStat (c : Nat) : Bool := 0x4040 ≤ c && c ≤ 0x40FF
/-- Local and remote output points: the cells that R22, R23 and R539 speak of. -/
def isOutPoint (c : Nat) : Bool := isRemoteOut c || isLocalOut c
/-- Output cells of any kind. -/
def isOutCell (c : Nat) : Bool := isOutPoint c || isXlOut c || isHostStat c
/-- Private state cells. -/
def isPrivate (c : Nat) : Bool := 0x8000 ≤ c && c ≤ 0xFFFF

/-- The upper ends of the range rows of R96, in order. -/
def rangeEnds : List Nat :=
  [0x1FFF, 0x201F, 0x2027, 0x2029, 0x2039, 0x203F, 0x207F, 0x247F, 0x287F, 0x297F, 0x298F, 0x29BF, 0x2ABF, 0x2FFF,
   0x3FFF, 0x400F, 0x4013, 0x401F, 0x403F, 0x40FF, 0x7FFF, 0xFFFF]

/-- Range row of a cell: how many rows end below it. -/
def rangeRow (c : Nat) : Nat := (rangeEnds.filter (· < c)).length

/-- Reserved cells of the input image, which may not be named by a stream (R319) and read as R56 says. -/
def isReservedCell (c : Nat) : Bool :=
  (0x203A ≤ c && c ≤ 0x207F) || (0x2986 ≤ c && c ≤ 0x298F) || (0x2AC0 ≤ c && c ≤ 0x2FFF) ||
  (0x4014 ≤ c && c ≤ 0x401F) || (0x4100 ≤ c && c ≤ 0x7FFF)

/-! ### Parts of an image -/

/-- One block record: 64 node words and the block signature word (R89). -/
structure Block where
  nodes : List Word64 := []
  sig : Word64 := 0
deriving DecidableEq, Repr, Inhabited

/-- Parameter entry (R90). -/
structure ParE where
  cell : Nat := 0
  calib : Bool := false
  value : Word := 0
deriving DecidableEq, Repr, Inhabited

/-- Ownership entry (R90): output cell, owner 0–5, default. -/
structure OwnE where
  cell : Nat := 0
  owner : Nat := 0
  dflt : Word := 0
deriving DecidableEq, Repr, Inhabited

/-- Migration entry (R90): kind 0 copy, 1 initial value. -/
structure MigE where
  tgt : Nat := 0
  src : Nat := 0
  kind : Nat := 0
  gid : Nat := 0
deriving DecidableEq, Repr, Inhabited

/-- Difference entry (R90): kind 0 may differ, 1 must be seen to differ, 2 newly owned. -/
structure DifE where
  cell : Nat := 0
  kind : Nat := 0
  gid : Nat := 0
deriving DecidableEq, Repr, Inhabited

/-- One graph of the directory (R88) with its blocks and parameter table. -/
structure Graph where
  present : Bool := false
  swz : Nat := 0
  slots : Nat := 0
  blocks : List Block := []
  pars : List ParE := []
deriving DecidableEq, Repr, Inhabited

/-- An image as the module uses it: header fields and tables. -/
structure Image where
  flags : Nat := 0
  tcycTgt : Nat := 0
  id : Word := 0
  ver : Word := 0
  swzO : Nat := 0
  qualMin : Nat := 10000
  ownChk : Word := 0
  /-- Graphs 0–5: LL0–LL3, Prism A, Prism B. -/
  graphs : List Graph := []
  own : List OwnE := []
  mig : List MigE := []
  dif : List DifE := []
deriving DecidableEq, Repr, Inhabited

/-- Graph `g` of an image; an absent one where the image has none. -/
def Image.graph (im : Image) (g : Nat) : Graph := lget im.graphs g {}

/-- Owner of an output cell: the owner code of its ownership entry. -/
def Image.ownerOf (im : Image) (c : Nat) : Option Nat := (im.own.find? (·.cell == c)).map (·.owner)

/-- Initial direct value of a private cell of a graph: that of its parameter entry, else 0 (R90). -/
def Graph.initial (g : Graph) (c : Nat) : Word := ((g.pars.find? (·.cell == c)).map (·.value)).getD 0

/-- Node words of a graph in order. -/
def Graph.nodes (g : Graph) : List Word64 := g.blocks.flatMap (·.nodes)

/-- Slot count of a block: the sum over its node words (R106). -/
def Block.slots (b : Block) : Nat := (b.nodes.map nodeSlots).sum

/-- Block signature (R108): CRC-32C over the seed by block index, the graph identifier, the format version and the words. -/
def blockSig (blk gid : Nat) (nodes : List Word64) : Word :=
  crc32c ([BitVec.ofNat 8 blk, BitVec.ofNat 8 (blk / 256), BitVec.ofNat 8 gid, 1#8] ++ nodes.flatMap fun n => leBytes 8 n.toNat)

/-- The stored-signature check (R66, R108) of a signature word: `SIG` against a recomputed signature, `BLK` and `GID` of the block as it
is run. -/
def sigMatches (blk gid : Nat) (sig : Word) (w : Word64) : Bool :=
  let w := w.toNat
  bits w 31 0 == sig.toNat && bits w 45 32 == blk && bits w 50 48 == gid && bits w 47 46 == 0 && bits w 63 51 == 0

/-- Does the signature word of a block match its words, index and graph identifier (R93)? -/
def sigOk (blk gid : Nat) (b : Block) : Bool := sigMatches blk gid (blockSig blk gid b.nodes) b.sig

/-! ### Reading a file -/

/-- Number of `n` little-endian bytes at a file offset of an image region. -/
def imgLe (m : Mem 8) (o n : Nat) : Nat := Mem.readLe 0 m o n

/-- Table of `cnt` entries of 8 bytes at an offset, each with its own offset. -/
def imgTable (m : Mem 8) (off cnt : Nat) : List (Nat × Nat) :=
  (List.range cnt).map fun i => (off + 8 * i, imgLe m (off + 8 * i) 8)

/-- Block record at an offset (R89). -/
def readBlock (m : Mem 8) (o : Nat) : Block :=
  { nodes := (List.range 64).map fun i => BitVec.ofNat 64 (imgLe m (o + 8 * i) 8), sig := BitVec.ofNat 64 (imgLe m (o + 512) 8) }

/-- Offset of the directory entry of graph `g`. -/
def gdirOff (g : Nat) : Nat := 0x30 + 24 * g

/-- Parameter entry from its 8 bytes. -/
def parOf (w : Nat) : ParE := { cell := bits w 15 0, calib := bitOf w 16, value := BitVec.ofNat 32 (bits w 63 32) }
/-- Ownership entry from its 8 bytes. -/
def ownOf (w : Nat) : OwnE := { cell := bits w 15 0, owner := bits w 23 16, dflt := BitVec.ofNat 32 (bits w 63 32) }
/-- Migration entry from its 8 bytes. -/
def migOf (w : Nat) : MigE := { tgt := bits w 15 0, src := bits w 31 16, kind := bits w 39 32, gid := bits w 47 40 }
/-- Difference entry from its 8 bytes. -/
def difOf (w : Nat) : DifE := { cell := bits w 15 0, kind := bits w 23 16, gid := bits w 31 24 }

/-- Graph `g` of a file. -/
def readGraph (m : Mem 8) (g : Nat) : Graph :=
  let o := gdirOff g
  let off := imgLe m o 4
  if off = 0 then {} else
  { present := true, swz := imgLe m (o + 6) 2, slots := imgLe m (o + 8) 4
    blocks := (List.range (imgLe m (o + 4) 2)).map fun i => readBlock m (off + 520 * i)
    pars := (imgTable m (imgLe m (o + 12) 4) (imgLe m (o + 16) 4)).map fun e => parOf e.2 }

/-- The image that a file holds (R87 to R90). -/
def readImage (m : Mem 8) : Image :=
  { flags := imgLe m 0x0C 4, tcycTgt := imgLe m 0x10 1, id := BitVec.ofNat 32 (imgLe m 0x14 4)
    ver := BitVec.ofNat 32 (imgLe m 0x18 4), swzO := imgLe m 0x20 2, qualMin := imgLe m 0x24 4
    ownChk := BitVec.ofNat 32 (imgLe m 0x28 4)
    graphs := (List.range 6).map (readGraph m)
    own := (imgTable m (imgLe m 0xC0 4) (imgLe m 0xC4 4)).map fun e => ownOf e.2
    mig := (imgTable m (imgLe m 0xC8 4) (imgLe m 0xCC 4)).map fun e => migOf e.2
    dif := (imgTable m (imgLe m 0xD0 4) (imgLe m 0xD4 4)).map fun e => difOf e.2 }

/-! ### Acceptance (R93) -/

/-- A list of checks, each with the offset of what it judges: the offset of the first that fails. -/
def firstFail (l : List (Bool × Nat)) : Option Nat := (l.find? (!·.1)).map (·.2)

/-- Sorted strictly by a key? -/
def sortedBy {α : Type} (k : α → Nat) : List α → Bool
  | a :: b :: r => decide (k a < k b) && sortedBy k (b :: r)
  | _ => true

/-- The sections of a file as (offset, length), in the order in which R86 places them; absent ones have length 0. -/
def imgSections (m : Mem 8) : List (Nat × Nat) :=
  let gs := (List.range 6).map fun g => (imgLe m (gdirOff g) 4, 520 * imgLe m (gdirOff g + 4) 2)
  let ps := (List.range 6).map fun g => (imgLe m (gdirOff g + 12) 4, 8 * imgLe m (gdirOff g + 16) 4)
  (gs ++ ps ++ [(imgLe m 0xC0 4, 8 * imgLe m 0xC4 4), (imgLe m 0xC8 4, 8 * imgLe m 0xCC 4), (imgLe m 0xD0 4, 8 * imgLe m 0xD4 4),
    (imgLe m 0xD8 4, 132)]).filter (·.2 != 0)

/-- Sections in rising order without overlap, each at a multiple of 8, the bytes between them 0, the last ending the file? -/
def sectionsOk (m : Mem 8) (len : Nat) : Nat → List (Nat × Nat) → Bool
  | e, [] => e == len
  | e, (o, n) :: r =>
    o % 8 == 0 && decide (e ≤ o) && (Mem.readBytes 0 m e (min (o - e) len)).all (· == 0) && sectionsOk m len (o + n) r

/-- The check word of the ownership table (R91): CRC-32C over the table's bytes in file order. -/
def ownCheck (m : Mem 8) : Word := crc32c (Mem.readBytes 0 m (imgLe m 0xC0 4) (8 * imgLe m 0xC4 4))

/-- Structural checks of the header (reason 0x01), with the offsets they judge. An `OWN_CHK` that is not the check word of the table is
refused here too (notes/assumptions/84.md). -/
def headerChecks (m : Mem 8) : List (Bool × Nat) :=
  let le := imgLe m
  let gid (g : Nat) : List (Bool × Nat) :=
    let o := gdirOff g
    let absent := le o 4 == 0
    [ (le (o + 20) 1 == g && le (o + 21) 3 == 0, o + 20),
      (if absent then le (o + 4) 4 == 0 && le (o + 8) 8 == 0 && le (o + 16) 4 == 0
       else 1 ≤ le (o + 4) 2, o + 4),
      (le (o + 6) 2 < 0x8000 && (g < 4 || le (o + 6) 2 == 0), o + 6),
      (le (o + 16) 4 ≤ 32768 && ((le (o + 16) 4 == 0) == (le (o + 12) 4 == 0)), o + 12) ]
  [ (le 0 4 == 0x4D494755, 0), (le 4 2 == 1, 4), (le 6 2 == 0x100, 6),
    (le 8 4 == le 0xD8 4 + 132 && le 8 4 ≤ 4194304, 8), (le 0x0C 4 < 8, 0x0C),
    (le 0x10 1 ≤ 3, 0x10), (le 0x11 3 == 0, 0x11), (le 0x20 2 < 0x8000, 0x20), (le 0x22 2 == 0, 0x22),
    (10000 ≤ le 0x24 4, 0x24), (le 0x2C 4 == 0, 0x2C),
    (bitOf (le 0x0C 4) 1 == (le (gdirOff 4) 4 != 0) && bitOf (le 0x0C 4) 2 == (le (gdirOff 5) 4 != 0), 0x0C),
    ((le 0xCC 4 == 0) == (le 0xC8 4 == 0), 0xC8), ((le 0xD4 4 == 0) == (le 0xD0 4 == 0), 0xD0),
    (le 0xDC 4 == (crc32c (Mem.readBytes 0 m 0 0xDC)).toNat, 0xDC),
    (Mem.readBytes 0 m 0xE0 32 == List.replicate 32 0, 0xE0) ] ++
  (List.range 6).flatMap gid ++
  [ (sectionsOk m (le 8 4) 0x100 (imgSections m), 0xC0),
    (le (le 0xD8 4 + 1) 3 == 0, le 0xD8 4 + 1),
    (le 0x28 4 == (ownCheck m).toNat, 0x28) ]

/-- Structural checks of the four tables (R90, reason 0x01). -/
def tableChecks (m : Mem 8) : List (Bool × Nat) :=
  let le := imgLe m
  let par (g : Nat) : List (Bool × Nat) :=
    let t := imgTable m (le (gdirOff g + 12) 4) (le (gdirOff g + 16) 4)
    (t.map fun e => (bits e.2 31 17 == 0 && isPrivate (parOf e.2).cell, e.1)) ++
    [(sortedBy (fun e => (parOf e.2).cell) t, le (gdirOff g + 12) 4)]
  let own := imgTable m (le 0xC0 4) (le 0xC4 4)
  let mig := imgTable m (le 0xC8 4) (le 0xCC 4)
  let dif := imgTable m (le 0xD0 4) (le 0xD4 4)
  (List.range 6).flatMap par ++
  (own.map fun e => ((ownOf e.2).owner ≤ 5 && bits e.2 31 24 == 0 && isOutCell (ownOf e.2).cell, e.1)) ++
  [(sortedBy (fun e => (ownOf e.2).cell) own, le 0xC0 4)] ++
  (mig.map fun e => ((migOf e.2).kind ≤ 1 && (migOf e.2).gid ≤ 3 && bits e.2 63 48 == 0, e.1)) ++
  [(sortedBy (fun e => (migOf e.2).tgt * 8 + (migOf e.2).gid) mig, le 0xC8 4)] ++
  (dif.map fun e => ((difOf e.2).kind ≤ 2 && (difOf e.2).gid ≤ 3 && bits e.2 63 32 == 0, e.1)) ++
  [(sortedBy (fun e => (difOf e.2).cell * 8 + (difOf e.2).gid) dif, le 0xD0 4)]

/-- Is the image authentic (R92)? `keyHash` gives the OEM key hash of a G4 slot, none for a slot that authenticates nothing. -/
def imgAuthentic (m : Mem 8) (keyHash : Nat → Option (List Byte)) : Bool :=
  let t := imgLe m 0xD8 4
  let pk := Mem.readBytes 0 m (t + 4) 64
  let sg := Mem.readBytes 0 m (t + 0x44) 64
  match keyHash (imgLe m t 1) with
  | none => false
  | some h => h == sha256 pk &&
    ecdsaVerify (beNat (pk.take 32)) (beNat (pk.drop 32)) (beNat (sg.take 32)) (beNat (sg.drop 32))
      (sha256 (Mem.readBytes 0 m 0 (t + 0x44)))

/-- Node words of the graphs present, with graph identifier and file offset. -/
def imgNodes (m : Mem 8) (im : Image) : List (Nat × Nat × Word64) :=
  (List.range 6).flatMap fun g =>
    let o := imgLe m (gdirOff g) 4
    (((im.graph g).blocks).mapIdx fun b blk => blk.nodes.mapIdx fun i n => (g, o + 520 * b + 8 * i, n)).flatten

/-- Opcode and operand checks of one node (reason 0x04): R111, and the one range row of `BANDN` and `BORN`. -/
def nodeOk (n : Word64) : Bool :=
  let span := nodeA n + manyLen (nodeMod n) - 1
  nodeWordOk n && (!(nodeOp n == 0x2C || nodeOp n == 0x2D) || (span ≤ 0xFFFF && rangeRow (nodeA n) == rangeRow span))

/-- May a graph write a destination at all (R99; ownership is judged under reason 0x06)? -/
def dstOk (g : Nat) (n : Word64) : Bool :=
  nodeOp n == 0 || isPrivate (nodeDst n) || (if g < 4 then isOutCell (nodeDst n) else isHostStat (nodeDst n))

/-- Companion cells of a stateful opcode: how many cells from D+1 it reads. -/
def companions (op : Nat) : Nat := match op with | 0x38 | 0x3B | 0x3C => 1 | 0x39 | 0x3A => 2 | _ => 0

/-- Is the opcode stateful (0x30 to 0x3C)? -/
def isStateful (op : Nat) : Bool := 0x30 ≤ op && op ≤ 0x3C

/-- Cells that no node may write because of a stateful node: its companions and the parameter cell of a timer (R104). -/
def readOnlyCells (n : Word64) : List Nat :=
  ((List.range (companions (nodeOp n))).map fun i => nodeDst n + 1 + i) ++
  (if 0x34 ≤ nodeOp n && nodeOp n ≤ 0x36 then [nodeB n] else [])

/-- Does a node write the cell (a `CWR` counts, `NOP` does not)? -/
def writesCell (c : Nat) (n : Word64) : Bool := nodeOp n != 0 && nodeDst n == c

/-- R104 for one stateful node among the nodes of its graph (reason 0x07). -/
def r104Ok (nodes : List Word64) (n : Word64) : Bool :=
  !isStateful (nodeOp n) ||
  (isPrivate (nodeDst n) && (nodes.filter (writesCell (nodeDst n))).length == 1 &&
   (readOnlyCells n).all fun c => isPrivate c && !(nodes.any (writesCell c)))

/-- Ranges of the parameter values that an opcode interprets, and of the initial state code in D (R93 reason 0x09, R117). -/
def paramOk (val : Nat → Word) (n : Word64) : Bool :=
  let d := nodeDst n
  let p1 := (val (d + 1)).toNat
  let p2 := (val (d + 2)).toNat
  match nodeOp n with
  | 0x34 | 0x35 | 0x36 => let t := (val (nodeB n)).toNat; 1 ≤ t && t ≤ 2 ^ 23 - 1 && stCode (val d) != 3
  | 0x38 => 16000 ≤ p1 && p1 ≤ 8000000
  | 0x39 => 16000 ≤ p1 && p1 ≤ 8000000 && p2 ≤ 8000000
  | 0x3A => p1 < p2 && p2 ≤ 16000000
  | 0x3B => 1 ≤ p1 && p1 ≤ 2 ^ 23 - 1 && stCode (val d) != 3
  | _ => true

/-- Hamming weight of a swizzle mask (R59). -/
def weight15 (v : Nat) : Nat := ((List.range 15).filter (v.testBit ·)).length

/-- Checks of reason 0x06 (R93), with offsets. -/
def ownChecks (m : Mem 8) (im : Image) : List (Bool × Nat) :=
  let nodes := imgNodes m im
  let written := nodes.map fun (g, o, n) =>
    (nodeOp n == 0 || !isOutCell (nodeDst n) || im.ownerOf (nodeDst n) == some g, o)
  let entries := im.own.mapIdx fun i e =>
    let strict := !isHostStat e.cell
    let ws := nodes.filter fun x => x.1 == e.owner && writesCell e.cell x.2.2
    ((if e.owner < 4 then
        (im.graph e.owner).present &&
        (!strict || (ws.length == 1 && ws.all (fun x => nodeOp x.2.2 != 0x03) && e.dflt == 0))
      else isHostStat e.cell), imgLe m 0xC0 4 + 8 * i)
  written ++ entries

/-- Checks of reasons 0x0A and 0x0B; the parts that compare with an active image are judged only where there is one (R538). -/
def migChecks (m : Mem 8) (im : Image) (active : Option Image) : List (Bool × Nat) :=
  im.mig.mapIdx fun i e =>
    (isPrivate e.tgt && (if e.kind == 0 then isPrivate e.src && (match active with | none => true | some a => (a.graph e.gid).present)
      else e.src == 0), imgLe m 0xC8 4 + 8 * i)

/-- Checks of reason 0x0B. -/
def difChecks (m : Mem 8) (im : Image) (active : Option Image) : List (Bool × Nat) :=
  im.dif.mapIdx fun i e =>
    (isOutCell e.cell && im.ownerOf e.cell == some e.gid &&
     (e.kind != 2 || (match active with | none => true | some a => (a.ownerOf e.cell).isNone)), imgLe m 0xD0 4 + 8 * i)

/-- Slots of R27 for a `RUN` period code. -/
def slotBudget (tcyc : Nat) : Nat := 12500 * 2 ^ (tcyc % 4)

/-- Answer of the acceptance: the image, a refusal with reason and file offset, or a budget exceeded by a graph. -/
inductive Accept where
  | ok (im : Image)
  | bad (reason offset : Nat)
  | budget (graph need avail : Nat)
deriving DecidableEq, Repr, Inhabited

/-- The first graph whose slot count exceeds the budget of the `RUN` TCYC (R95). -/
def overBudget (im : Image) (tcyc : Nat) : Option Accept :=
  ((List.range 6).find? fun g => slotBudget tcyc < (im.graph g).slots).map
    fun g => .budget g (im.graph g).slots (slotBudget tcyc)

/-- The checks of R93 after the structural ones, as reason and offset of the lowest failing one. -/
def contentChecks (m : Mem 8) (im : Image) (keyHash : Nat → Option (List Byte)) (tcyc : Nat) (forerunner : Bool)
    (active : Option Image) : Option (Nat × Nat) :=
  let nodes := imgNodes m im
  let perGraph (f : Graph → Word64 → Bool) : List (Bool × Nat) := nodes.map fun (g, o, n) => (f (im.graph g) n, o)
  let masks := ((List.range 4).filter fun g => (im.graph g).present).map (fun g => ((im.graph g).swz, gdirOff g + 6))
    |>.append [(im.swzO, 0x20)]
  let sigs := (List.range 6).flatMap fun g =>
    (im.graph g).blocks.mapIdx fun b blk => (sigOk b g blk, imgLe m (gdirOff g) 4 + 520 * b + 512)
  let byReason : List (Nat × List (Bool × Nat)) :=
    [ (0x02, [(imgAuthentic m keyHash, imgLe m 0xD8 4)]),
      (0x03, sigs),
      (0x04, nodes.map fun (_, o, n) => (nodeOk n, o)),
      (0x05, nodes.map fun (g, o, n) => (dstOk g n, o)),
      (0x06, ownChecks m im),
      (0x07, perGraph fun g n => r104Ok g.nodes n),
      (0x08, masks.mapIdx fun i x =>
        (5 ≤ weight15 x.1 && weight15 x.1 ≤ 10 && ((masks.take i).all fun y => y.1 != x.1), x.2)),
      (0x09, perGraph fun g n => paramOk g.initial n),
      (0x0A, migChecks m im active),
      (0x0B, difChecks m im active),
      (0x0C, ((List.range 6).map fun g =>
        ((im.graph g).slots == ((im.graph g).blocks.map Block.slots).sum, gdirOff g + 8)) ++
        ((List.range 6).map fun g => (decide ((im.graph g).blocks.length ≤ 1563), gdirOff g + 4)) ++
        [(decide ((im.graphs.map fun g => g.blocks.length).sum ≤ 16131), 0x30)]),
      (0x0D, [(bitOf im.flags 0 == forerunner, 0x0C)]),
      (0x0E, [(tcyc ≤ im.tcycTgt, 0x10)]) ]
  byReason.findSome? fun x => (firstFail x.2).map fun o => (x.1, o)

/-- Acceptance of the image in a region (R93, R95): the lowest failing reason, else the budget, else the image. -/
def acceptImage (m : Mem 8) (keyHash : Nat → Option (List Byte)) (tcyc : Nat) (forerunner : Bool) (active : Option Image) :
    Accept :=
  match firstFail (headerChecks m) with
  | some o => .bad 0x01 o
  | none =>
    match firstFail (tableChecks m) with
    | some o => .bad 0x01 o
    | none =>
      let im := readImage m
      match contentChecks m im keyHash tcyc forerunner active with
      | some (r, o) => .bad r o
      | none => (overBudget im tcyc).getD (.ok im)

end Sys2Proof.Machine
end

