-- ==== Sys2Proof/Machine/Eval.lean ====
section
/-! DEFINITION. State regions and the evaluation of a graph (03_evaluation_lanes R55 to R66, R73, R83, R84): what a node
reads in each pass, the direct and the mirror pass over the blocks of a graph, and the comparison of the two. -/

namespace Sys2Proof.Machine

/-! ### State regions (R55, R57) -/

/-- One region of the state pool: banks A and B of the direct and of the mirror images, what an unlisted cell reads as in
each, and the per-cell bank selectors (1: bank B). Addresses are the physical cells 0x8000–0xFFFF. -/
structure Region where
  dA : Mem 32 := []
  dB : Mem 32 := []
  mA : Mem 32 := []
  mB : Mem 32 := []
  dfD : Word := 0
  dfM : Word := 0xFFFFFFFF#32
  selD : Mem 1 := []
  selM : Mem 1 := []
  /-- Uncorrectable words (R65, R450): bank k of R448 (0 direct A, 1 direct B, 2 mirror A, 3 mirror B) and physical cell. -/
  bad : List (Nat × Nat) := []
deriving DecidableEq, Repr, Inhabited

/-- Current word of a physical cell: that of the bank its selector names (R57). -/
def Region.cur (r : Region) (mirror : Bool) (p : Nat) : Word :=
  if mirror then
    (if Mem.read 0 r.selM p = 1 then Mem.read r.dfM r.mB p else Mem.read r.dfM r.mA p)
  else
    (if Mem.read 0 r.selD p = 1 then Mem.read r.dfD r.dB p else Mem.read r.dfD r.dA p)

/-- Bank k of R448 that holds the current word of a cell. -/
def Region.bank (r : Region) (mirror : Bool) (p : Nat) : Nat :=
  2 * b2n mirror + (if mirror then (Mem.read 0 r.selM p).toNat else (Mem.read 0 r.selD p).toNat)

/-- Does the current word of a cell read as poison (R65)? -/
def Region.poisoned (r : Region) (mirror : Bool) (p : Nat) : Bool := r.bad.contains (r.bank mirror p, p)

/-- A word written into bank k of a cell; whatever stood there is replaced. -/
def Region.put (r : Region) (k p : Nat) (v : Word) : Region :=
  let r := { r with bad := r.bad.filter (· ≠ (k, p)) }
  match k with
  | 0 => { r with dA := Mem.write r.dfD r.dA p v }
  | 1 => { r with dB := Mem.write r.dfD r.dB p v }
  | 2 => { r with mA := Mem.write r.dfM r.mA p v }
  | _ => { r with mB := Mem.write r.dfM r.mB p v }

/-- One written cell at the state flip: the word lands in the bank the selector does not name, and the selector flips. -/
def Region.flip1 (r : Region) (mirror : Bool) (p : Nat) (v : Word) : Region :=
  let k := r.bank mirror p
  let r := r.put (if k % 2 = 0 then k + 1 else k - 1) p v
  let sel : BitVec 1 := if k % 2 = 0 then 1 else 0
  if mirror then { r with selM := Mem.write 0 r.selM p sel } else { r with selD := Mem.write 0 r.selD p sel }

/-- The state flip (R36, R57): every cell written in the run takes its next word; a cell not written keeps its current one. -/
def Region.flip (r : Region) (d m : List (Nat × Word)) : Region :=
  let r := d.foldl (fun r p => r.flip1 false p.1 p.2) r
  m.foldl (fun r p => r.flip1 true p.1 p.2) r

/-- Writes a word into the current image without a flip (migration entries, R436; overrides, R434). -/
def Region.poke (r : Region) (mirror : Bool) (p : Nat) (v : Word) : Region := r.put (r.bank mirror p) p v

/-- Physical cell of a private cell in the mirror images: bits [14:0] XORed with the swizzle mask (R58). -/
def swizzle (swz c : Nat) : Nat := 0x8000 + (c % 0x8000).xor (swz % 0x8000)

/-- A region seeded from initial values (R57, R58, R90): bank A, selectors naming it; every cell 0 in the direct images and
all ones in the mirror images but the parameter entries. -/
def Region.seed (pars : List ParE) (swz : Nat) : Region :=
  { dA := Mem.writes 0 [] (pars.map fun e => (e.cell, e.value))
    mA := Mem.writes 0xFFFFFFFF#32 [] (pars.map fun e => (swizzle swz e.cell, ~~~e.value)) }

/-- The free region seeded for Prism mode: graph A's initial values in the direct images, graph B's in the mirror images used
as plain storage (R83). -/
def Region.seedPrism (pa pb : List ParE) : Region :=
  { dA := Mem.writes 0 [] (pa.map fun e => (e.cell, e.value)), dfM := 0
    mA := Mem.writes 0 [] (pb.map fun e => (e.cell, e.value)) }

/-- An override put into the current images of a region: the direct value at the cell and its complement at the swizzled
cell (R434). -/
def Region.override (r : Region) (swz cell : Nat) (v : Word) : Region :=
  (r.poke false cell v).poke true (swizzle swz cell) (~~~v)

/-! ### One pass -/

/-- What a pass runs on: the frozen input image, the committed output cells, the region, the mask, the owner whose output
cells it may write, TBASE of t0, which images it uses (`mirror`) and whether the mirror transform applies (`tr`; not in
Prism mode). -/
structure PassEnv where
  input : Mem 32 := []
  committed : Mem 32 := []
  region : Region := {}
  swz : Nat := 0
  owner : Nat := 0
  own : List OwnE := []
  t0 : Nat := 0
  mirror : Bool := false
  tr : Bool := false
deriving DecidableEq, Repr, Inhabited

/-- What a pass has written so far, newest first: private cells by physical address, owned output cells; writes suppressed
(R73, R84) with the first cell. -/
structure PassSt where
  priv : List (Nat × Word) := []
  outs : List (Nat × Word) := []
  blocked : Nat := 0
  first : Option Nat := none
deriving DecidableEq, Repr, Inhabited

/-- What an input image cell reads as that the freeze has not listed: remote points and values and the cross-link receive cells
stand as absent (value 0, quality 0, code 0x7; R240, R265), every other cell as 0. -/
def inputDflt (c : Nat) : Word :=
  if c ≤ 0x1FFF || (0x2480 ≤ c && c ≤ 0x297F) then 0x70#32 else 0

/-- Physical address of a cell in a pass. -/
def PassEnv.phys (e : PassEnv) (c : Nat) : Nat := if e.tr && isPrivate c then swizzle e.swz c else c

/-- A shared word through the complementing port in the mirror pass (R58). -/
def PassEnv.port (e : PassEnv) (w : Word) : Word := if e.tr then ~~~w else w

/-- The word at the key in a list of writes, newest first. -/
def findW (l : List (Nat × Word)) (k : Nat) : Option Word := (l.find? (·.1 == k)).map (·.2)

/-- Read of a cell within a pass (R56). -/
def PassEnv.read (e : PassEnv) (s : PassSt) (c0 : Nat) : Word :=
  let c := c0 % 65536
  if isPrivate c then (findW s.priv (e.phys c)).getD (e.region.cur e.mirror (e.phys c))
  else if isInputCell c then e.port (Mem.read (inputDflt c) e.input c)
  else if isOutCell c then (findW s.outs c).getD (e.port (Mem.read 0 e.committed c))
  else e.port 0

/-- May this pass write the cell (R73, R84, R99)? -/
def PassEnv.mayWrite (e : PassEnv) (c : Nat) : Bool :=
  isPrivate c || (isOutCell c && (e.owner < 4 || isHostStat c) && (e.own.any fun o => o.cell == c && o.owner == e.owner))

/-- The sources of a node as a pass reads them (R105, R111). -/
def PassEnv.fetch (e : PassEnv) (s : PassSt) (n : Word64) : NodeIn :=
  let a := nodeA n
  let b := nodeB n
  let d := nodeDst n
  { op := if nodeWordOk n then nodeOp n else 0xFF, md := nodeMod n
    a := e.read s a, a1 := e.read s (a + 1), b := e.read s b, b1 := e.read s (b + 1)
    d := e.read s d, d1 := e.read s (d + 1), d2 := e.read s (d + 2)
    many := if nodeOp n = 0x2C ∨ nodeOp n = 0x2D then (List.range (manyLen (nodeMod n))).map fun i => e.read s (a + i) else []
    stA := isStamped a, stB := isStamped b, t0 := e.t0 }

/-- One node of a pass: what it presents and the pass after it. A write that is not allowed is suppressed, and its strobe
with it. -/
def PassEnv.node (e : PassEnv) (s : PassSt) (n : Word64) : PassSt × NodeOut :=
  let i := e.fetch s n
  let r := if e.tr then mirrorOp i else directOp i
  let d := nodeDst n
  if !r.write then (s, r)
  else if !e.mayWrite d then
    ({ s with blocked := s.blocked + 1, first := s.first.orElse fun _ => some d }, { r with write := false })
  else if isPrivate d then ({ s with priv := (e.phys d, r.value) :: s.priv }, r)
  else ({ s with outs := (d, r.value) :: s.outs }, r)

/-! ### Comparison (R63, R64, R66) -/

/-- A mismatch: block, node offset and compared field of `LANE_MIS.FIELD`. -/
structure Mis where
  block : Nat := 0
  node : Nat := 0
  field : Nat := 0
deriving DecidableEq, Repr, Inhabited

/-- The first compared field in which the two executions of a node are not complementary: 0 destination address, 1 value,
2 write strobe, 3 flags. The direct pass presents the cell of its node word, `addr`, the mirror pass the complement of the physical
address of its own, XOR the mask. -/
def compareNode (em : PassEnv) (n : Word64) (addr : Nat) (d m : NodeOut) : Option Nat :=
  let c := nodeDst n
  let back := if isPrivate c then swizzle em.swz (em.phys c) else em.phys c
  if addr != back then some 0
  else if d.value != ~~~m.value then some 1
  else if d.write != m.write then some 2
  else if d.reserved || m.reserved || d.flags != ~~~m.flags then some 3
  else none

/-- Cells that a node reads (R105, R111). -/
def nodeReads (n : Word64) : List Nat :=
  let op := nodeOp n
  let a := nodeA n
  let b := nodeB n
  let d := nodeDst n
  if op = 0x2C ∨ op = 0x2D then (List.range (manyLen (nodeMod n))).map (a + ·)
  else
    (if op = 0 then [] else [a]) ++ (if op = 0x02 then [a + 1] else []) ++ (if usesB op (nodeMod n) then [b] else []) ++
    (if op = 0x26 then [b + 1] else []) ++ (if isStateful op then (List.range (companions op + 1)).map (d + ·) else [])

/-- Does a read of the node return poison in this pass (R65)? A cell written earlier in the pass reads what was written. -/
def PassEnv.poison (e : PassEnv) (s : PassSt) (n : Word64) : Bool :=
  !e.region.bad.isEmpty &&
  (nodeReads n).any fun c => isPrivate c && (findW s.priv (e.phys c)).isNone && e.region.poisoned e.mirror (e.phys c)

/-! ### What the stores of a run deliver (R62, R65, R66, R447) -/

/-- What a read of a run finds in its store: a corrected symbol, an uncorrectable word, an address error, another word that escapes
the code (a node word or a stored signature), or a delay entry with the tag of another node. -/
inductive HitKind where
  | corrected (pos : Nat) | uncorrectable | address | escaped (w : Word64) | tag
deriving DecidableEq, Repr, Inhabited

/-- A read of a run that is not clean: its pass, block and node (64: the stored signature word), the store by its instance of R456
(pool bank, 0x30 input image, 0x31 output staging, 0x38 and up delay registers), the word address, and what it finds. -/
structure Hit where
  mirror : Bool := false
  block : Nat := 0
  node : Nat := 0
  inst : Nat := 0
  addr : Nat := 0
  kind : HitKind := .uncorrectable
deriving DecidableEq, Repr, Inhabited

/-- The findings of a pass at a place. -/
def hitsAt (l : List Hit) (mirror : Bool) (blk i : Nat) : List Hit := l.filter fun h => h.mirror == mirror && h.block == blk && h.node == i

/-- The word that a pass fetches at a place (R66). -/
def fetchWord (l : List Hit) (mirror : Bool) (blk i : Nat) (w : Word64) : Word64 :=
  ((hitsAt l mirror blk i).findSome? fun h => match h.kind with | .escaped x => some x | _ => none).getD w

/-- Does a pass meet poison at a place (R65)? -/
def poisonHit (l : List Hit) (mirror : Bool) (blk i : Nat) : Bool :=
  (hitsAt l mirror blk i).any fun h => h.kind == .uncorrectable || h.kind == .address

/-- An entry of the delay register file (R62): the compared fields of a node of the direct block, its node index and the parity of the
block index as the tag, and whether its execution met poison. -/
structure DelayE where
  node : Nat := 0
  par : Bool := false
  addr : Nat := 0
  out : NodeOut := {}
  poison : Bool := false
deriving DecidableEq, Repr, Inhabited

/-- The direct execution of a block (R61, R62): the pass after it and the delay register file it fills. -/
def runDirect (e : PassEnv) (l : List Hit) (blk : Nat) : List Word64 → Nat → PassSt → PassSt × List DelayE
  | [], _, s => (s, [])
  | w :: r, i, s =>
    let n := fetchWord l false blk i w
    let (s1, o) := e.node s n
    let d : DelayE := { node := i, par := blk % 2 == 1, addr := nodeDst n, out := o, poison := e.poison s n || poisonHit l false blk i }
    let (s2, ds) := runDirect e l blk r (i + 1) s1
    (s2, d :: ds)

/-- What the comparator finds when node i of the mirror block completes (R62 to R65): the entry's tag, poison on either side, then the
fields. -/
def judgeNode (e : PassEnv) (l : List Hit) (blk i : Nat) (s : PassSt) (n : Word64) (d : DelayE) (o : NodeOut) : Option Nat :=
  if d.node != i || d.par != (blk % 2 == 1) || (hitsAt l true blk i).any fun h => h.kind == .tag then some 6
  else if d.poison || e.poison s n || poisonHit l true blk i then some 7
  else compareNode e n d.addr d.out o

/-- The mirror execution of a block against the delay register file; stops at the first mismatch. -/
def runMirror (e : PassEnv) (l : List Hit) (blk : Nat) : List Word64 → Nat → List DelayE → PassSt → PassSt × Option Mis
  | w :: r, i, d :: ds, s =>
    let n := fetchWord l true blk i w
    let (s1, o) := e.node s n
    match judgeNode e l blk i s n d o with
    | some f => (s1, some { block := blk, node := i, field := f })
    | none => runMirror e l blk r (i + 1) ds s1
  | _, _, _, s => (s, none)

/-- The signature that a pass recomputes from the node words it fetched (R66, R108). -/
def passSig (l : List Hit) (mirror : Bool) (blk gid : Nat) (b : Block) : Word :=
  blockSig blk gid (b.nodes.mapIdx fun i w => fetchWord l mirror blk i w)

/-- The end of a block (R63, R66): the two recomputed signatures against each other (field 4), each against the stored one (field 5);
a poisoned signature word is field 7. -/
def judgeBlock (l : List Hit) (blk gid : Nat) (b : Block) : Option Nat :=
  let sd := passSig l false blk gid b
  let sm := passSig l true blk gid b
  if sd != sm then some 4
  else if poisonHit l false blk 64 || poisonHit l true blk 64 then some 7
  else if sigMatches blk gid sd (fetchWord l false blk 64 b.sig) && sigMatches blk gid sm (fetchWord l true blk 64 b.sig) then none
  else some 5

/-- All blocks of a graph in order, direct block i before mirror block i (R61); a mismatch at the end of a block reports node 63. The
delay register file is that of the last block run. -/
def runBlocks (ed em : PassEnv) (l : List Hit) (gid : Nat) :
    List Block → Nat → List DelayE → PassSt → PassSt → PassSt × PassSt × List DelayE × Option Mis
  | [], _, ds, sd, sm => (sd, sm, ds, none)
  | b :: r, i, _, sd, sm =>
    let (sd', ds) := runDirect ed l i b.nodes 0 sd
    match runMirror em l i b.nodes 0 ds sm with
    | (sm', some x) => (sd', sm', ds, some x)
    | (sm', none) =>
      match judgeBlock l i gid b with
      | some f => (sd', sm', ds, some { block := i, node := 63, field := f })
      | none => runBlocks ed em l gid r (i + 1) ds sd' sm'

/-- Was the read of a finding made before the run ended (R61)? With a mismatch, no later one counts. -/
def Hit.met (h : Hit) : Option Mis → Bool
  | none => true
  | some m => h.block < m.block || (h.block == m.block && (!h.mirror || h.node ≤ m.node))

/-- What one run of a logical lane leaves: next images and output staging of both passes, the first mismatch, the first
cell of a suppressed write, and the lane's delay register file. -/
structure Run where
  nextD : List (Nat × Word) := []
  nextM : List (Nat × Word) := []
  outs : List (Nat × Word) := []
  outsM : List (Nat × Word) := []
  mis : Option Mis := none
  viol : Option Nat := none
  delay : List DelayE := []
deriving DecidableEq, Repr, Inhabited

/-- Keeps the newest of the writes to each cell. -/
def newest : List (Nat × Word) → List (Nat × Word)
  | [] => []
  | (k, v) :: r => (k, v) :: (newest r).filter (·.1 != k)

/-- A run of a graph on an environment (R34, R35, R61 to R66): the direct pass and the mirror pass on the same frozen input, with
what the reads find in their stores. -/
def runGraph (e : PassEnv) (l : List Hit) (gid : Nat) (blocks : List Block) : Run :=
  let ed := { e with mirror := false, tr := false }
  let em := { e with mirror := true, tr := true }
  let (sd, sm, ds, mis) := runBlocks ed em l gid blocks 0 [] {} {}
  match mis with
  | some x => { mis := some x, delay := ds }
  | none => { nextD := newest sd.priv, nextM := newest sm.priv, outs := newest sd.outs, outsM := newest sm.outs
              viol := sd.first.orElse fun _ => sm.first, delay := ds }

/-- Nodes of an unchecked pass in order. -/
def runPlain (e : PassEnv) : List Word64 → PassSt → PassSt
  | [], s => s
  | n :: r, s => runPlain e r (e.node s n).1

/-- A Prism graph: one pass on true data, no complement, no swizzle, no comparison (R83). -/
def runPrism (e : PassEnv) (useMirrorImages : Bool) (nodes : List Word64) : PassSt :=
  runPlain { e with mirror := useMirrorImages, tr := false } nodes {}

end Sys2Proof.Machine
end

