-- ==== Sys2Proof/Machine/Types.lean ====
section
/-! DEFINITION. The names the spec gives to states, statuses, causes, roles and bands, with their codes, and the records
that events, commands and completions travel in. -/

namespace Sys2Proof.Machine

/-- The seven operating states of the module (01_architecture, Operating states). -/
inductive MState where
  | off | starting | run | quiet | safeHold | shuttingDown | fault
deriving DecidableEq, Repr, Inhabited

/-- State codes; code 7 is reserved. -/
def MState.code : MState → Nat
  | .off => 0 | .starting => 1 | .run => 2 | .quiet => 3 | .safeHold => 4 | .shuttingDown => 5 | .fault => 6

/-- Do the cycle controller and the lanes run cycles in this state (R44, R479)? -/
def MState.cycling : MState → Bool
  | .starting | .run | .quiet | .safeHold => true
  | _ => false

/-- Supervisor states of `HP_STATUS.SUP` (R315). -/
inductive SupState where
  | booting | serving | halted | restarting | updating
deriving DecidableEq, Repr, Inhabited

/-- Codes of R315; 5 to 7 are reserved. -/
def SupState.code : SupState → Nat
  | .booting => 0 | .serving => 1 | .halted => 2 | .restarting => 3 | .updating => 4

/-- Status codes of a completion (R336). -/
inductive Status where
  | ok | busy | aborted | badOpcode | badParameter | wrongState | noPresence | authFailed | noSession | sessionHeld
  | lifecycle | supplyLow | tempRange | laneInTest | badImage | budgetExceeded | nodeMismatch | noNode | cursorOverrun
  | protectedReg | locked | checkFailed | nvFailed | bufferError
deriving DecidableEq, Repr, Inhabited

/-- Codes 0x0000 to 0x0017 of R336. -/
def Status.code : Status → Nat
  | .ok => 0 | .busy => 1 | .aborted => 2 | .badOpcode => 3 | .badParameter => 4 | .wrongState => 5 | .noPresence => 6
  | .authFailed => 7 | .noSession => 8 | .sessionHeld => 9 | .lifecycle => 10 | .supplyLow => 11 | .tempRange => 12
  | .laneInTest => 13 | .badImage => 14 | .budgetExceeded => 15 | .nodeMismatch => 16 | .noNode => 17
  | .cursorOverrun => 18 | .protectedReg => 19 | .locked => 20 | .checkFailed => 21 | .nvFailed => 22 | .bufferError => 23

/-- Who gives a supervisor command (R327): a command ring or the sideband port. -/
inductive Requester where
  | ring (r : Fin 64)
  | sideband
deriving DecidableEq, Repr, Inhabited

/-- Code of a requester in `STATE_GET` and the change log: 0 to 63 ring, 0x40 sideband. -/
def Requester.code : Requester → Nat
  | .ring r => r.val
  | .sideband => 0x40

/-- Level of a configuration session (R327, R331). -/
inductive Level where
  | none | p1 | p2
deriving DecidableEq, Repr, Inhabited

/-- Level codes of `STATE_GET` and the change log. -/
def Level.code : Level → Nat
  | .none => 0 | .p1 => 1 | .p2 => 2

/-- Authority classes of R327. -/
inductive Cls where
  | p0 | p1 | p1s | p2
deriving DecidableEq, Repr, Inhabited

/-- Rank of a class; the policy of G3 raises a class, never lowers it (R328). -/
def Cls.rank : Cls → Nat
  | .p0 => 0 | .p1 => 1 | .p1s => 2 | .p2 => 3

/-- The higher of two classes (R328). -/
def Cls.sup (a b : Cls) : Cls := if a.rank < b.rank then b else a

/-- A supervisor command as it is taken (R309, R370): its requester, the fields of the entry, and the bytes the DMA read
from its input buffer. `inErr` and `outErr` say that the DMA on the command's own input or output buffer fails (R337). -/
structure Req where
  src : Requester := .sideband
  tag : Half := 0
  flags : Half := 0
  len : Half := 0
  /-- Entry bytes 0x08 to 0x3F. -/
  param : List Byte := List.replicate 56 0
  ibuf : List Byte := []
  inErr : Bool := false
  outErr : Bool := false
  /-- Do the MRAM writes of this command verify (R336 `NV_FAILED`)? -/
  nvOk : Bool := true
deriving DecidableEq, Repr, Inhabited

/-- A received sideband frame that passed R367: address byte, tag and payload (R365). -/
structure Frame where
  addr : Byte := 0
  tag : Half := 0
  payload : List Byte := []
deriving DecidableEq, Repr, Inhabited

/-- What makes occurrences identical (R386), with the severity that the code fixes: class, source, instance, code, data. -/
structure EvKey where
  safety : Bool := true
  sev : Nat := 0
  src : Nat := 0
  inst : Nat := 0
  code : Nat := 0
  data : List Byte := []
deriving DecidableEq, Repr, Inhabited

/-- A front-queue entry (R386): key, first and last timestamp, repeats. -/
structure EvEntry where
  key : EvKey := default
  first : Nat := 0
  last : Nat := 0
  rep : Nat := 0
deriving DecidableEq, Repr, Inhabited

/-- A stored record (R380) in its slot of its area (R383). -/
structure EvRec where
  slot : Nat := 0
  seq : Nat := 0
  key : EvKey := default
  first : Nat := 0
  lastOfs : Nat := 0
  rep : Nat := 0
  /-- The bytes read back with a `CRC` that fails (R394). -/
  crcBad : Bool := false
deriving DecidableEq, Repr, Inhabited

/-- A record in the coalescing table (R386) with its pending repeats (R387). -/
structure EvCo where
  seq : Nat := 0
  key : EvKey := default
  first : Nat := 0
  last : Nat := 0
  rep : Nat := 0
  pend : Nat := 0
  firstPend : Nat := 0
  prevEnd : Nat := 0
deriving DecidableEq, Repr, Inhabited

/-- The pending drop summary of a class (R388). -/
structure EvSum where
  count : Nat := 0
  hi : Nat := 0
  lo : Nat := 7
deriving DecidableEq, Repr, Inhabited

/-- A Loupe cursor (R390): class, position, and whether a record at or above it was overwritten or cleared (R391). -/
structure Cursor where
  safety : Bool := true
  pos : Nat := 0
  overrun : Bool := false
deriving DecidableEq, Repr, Inhabited

/-- A keeper journal record (R376). -/
structure KRec where
  seq : Nat := 0
  tbase : Nat := 0
  kind : Nat := 0
  sev : Nat := 0
  state : MState := .off
  cause : Byte := 0
  data : List Byte := []
  crcBad : Bool := false
deriving DecidableEq, Repr, Inhabited

/-- A change-log entry (R423). -/
structure LogEntry where
  idx : Nat := 0
  tbase : Nat := 0
  opcode : Nat := 0
  status : Nat := 0
  req : Nat := 0
  level : Nat := 0
  session : Nat := 0
  phash : List Byte := []
  link : List Byte := []
deriving DecidableEq, Repr, Inhabited

/-- A host event waiting to be posted (R313): kind, TBASE at the event, data from entry byte 0x14. -/
structure HEvent where
  kind : Nat := 0
  tbase : Nat := 0
  data : List Byte := []
  /-- Ring it goes to instead of `HP_CTRL.EVT_RING`: the stream's own event ring (R319). -/
  ring : Option Nat := none
deriving DecidableEq, Repr, Inhabited

/-- A completion waiting for room in its completion ring (R311, R312). -/
structure Cpl where
  ring : Nat := 64
  src : Nat := 0
  tag : Half := 0
  status : Status := .ok
  rlen : Nat := 0
  chead : Nat := 0
  result : List Byte := []
  inbuf : Bool := false
  /-- `RESTART`: the module enters `SHUTTING_DOWN` once this completion is written (R345). -/
  restart : Bool := false
deriving DecidableEq, Repr, Inhabited

/-- Patterns of an LED (R501): off, on, slow blink, fast blink, flash, double flash. -/
inductive LedPat where
  | off | on | slow | fast | flash | double
deriving DecidableEq, Repr, Inhabited

/-- The five LEDs (R502, R503). -/
structure Leds where
  run : LedPat := .off
  safe : LedPat := .off
  fault : LedPat := .off
  ring0 : LedPat := .off
  ring1 : LedPat := .off
deriving DecidableEq, Repr, Inhabited

/-- Roles of a lane (R53). -/
inductive LaneRole where
  | off | bist | spare | safety | observer | prism | retired | ucodeLoad
deriving DecidableEq, Repr, Inhabited

/-- Role codes of `LANE_PLn.STATE` (R53). -/
def LaneRole.code : LaneRole → Nat
  | .off => 0 | .bist => 1 | .spare => 2 | .safety => 3 | .observer => 4 | .prism => 5 | .retired => 6 | .ucodeLoad => 7

/-- Roles of a monitor unit (R143). -/
inductive UnitRole where
  | off | bist | spare | active | shadow | retired
deriving DecidableEq, Repr, Inhabited

/-- Role codes of `MM_UNITk.ROLE`. -/
def UnitRole.code : UnitRole → Nat
  | .off => 0 | .bist => 1 | .spare => 2 | .active => 3 | .shadow => 4 | .retired => 5

/-- Why a shut-down began (R488) and with it how the next start comes (R489). -/
inductive ShutKind where
  | supply | kpShutdown | kpReset | restart | recoverBoot | vcore
deriving DecidableEq, Repr, Inhabited

/-- Reason byte of the shut-down record: 0 supply, 1 command, 2 restart (R488, R490). -/
def ShutKind.reason : ShutKind → Nat
  | .supply => 0
  | .kpShutdown => 1
  | .kpReset | .restart | .recoverBoot | .vcore => 2

end Sys2Proof.Machine
end

