-- ==== Sys2Proof/Machine/BlocksNet.lean ====
section
/-! DEFINITION. The blocks of the state at the ring ports and at the carrier: Freven rings and cross-link. Each field's value
here is its value at reset; a value the spec does not give is named in notes/assumptions/3.md and 7.md. -/

namespace Sys2Proof.Machine

/-! ### Freven ring (09) -/

/-- What a node says of itself in `IDENT` (R247): UID, type, firmware version, counts, t_NIN and t_NOUT in ns, configuration
check word; with the port-east `HOP` of the reply. -/
structure Ident where
  uid : Nat := 0
  ntype : Nat := 0
  fwVer : Nat := 0
  ins : Nat := 0
  outs : Nat := 0
  vals : Nat := 0
  tNin : Nat := 0
  tNout : Nat := 0
  check : Word := 0
  pos : Nat := 0x1FF
deriving DecidableEq, Repr, Inhabited

/-- A slot of a ring's node table (R428) with its connection (R238) and its registers. -/
structure Node where
  uid : Nat := 0
  ntype : Nat := 0
  w : Nat := 3
  filters : List Nat := []
  params : List Byte := []
  /-- `CONN`: 0 not configured, 1 absent, 2 mismatch, 3 configuring, 4 reintegrating, 5 good, 6 expired. -/
  conn : Nat := 0
  /-- Reference or last accepted `SEQ`; none: no reference yet. -/
  ref : Option Nat := none
  run : Nat := 0
  age : Nat := 0
  /-- Contents of the last accepted container, and of the last one accepted in `GOOD`. -/
  last : List Byte := []
  used : List Byte := []
  /-- Two copies of one period differed (R238); a differing copy arrived, and a copy was accepted, in this period. -/
  conflict : Bool := false
  differ : Bool := false
  accepted : Bool := false
  nstate : BitVec 3 := 0
  syncOk : Bool := false
  outFault : Bool := false
  fwStaged : Bool := false
  /-- Copies of this period and of the last one at the ports, and the cable position. -/
  seenE : Bool := false
  seenW : Bool := false
  lastE : Bool := false
  lastW : Bool := false
  posE : Nat := 0x1FF
  crcCnt : Byte := 0
  seqCnt : Byte := 0
  wdCnt : Byte := 0
  lost : Byte := 0
  lag : Half := 0
  syncErr : Half := 0
  /-- Output sequence, and the output bits sent last. -/
  oseq : Nat := 0
  outBits : Byte := 0
  /-- Edge counts at the previous freeze (R240), and `FRESH` seen since then. -/
  cref : Option (List Nat) := none
  fresh : List Nat := []
  /-- Firmware version expected after `FW_ACTIVATE` (R255), and version, staged version and verification last reported. -/
  fwWant : Option Nat := none
  fwVer : Nat := 0
  staged : Nat := 0
  verified : Bool := false
  /-- Last `IDENT`, if any. -/
  ident : Ident := {}
  known : Bool := false
  /-- Whole configurations sent so far (R251). -/
  tries : Nat := 0
  /-- The node has the address of its slot: it is configured, and has not answered from an unconfigured node's address since (R223). -/
  addr : Bool := false
  /-- Consecutive ring periods in which the standby committed 0 and the ring master sent 1 (R278). -/
  disRun : Nat := 0
deriving DecidableEq, Repr, Inhabited

/-- A management request in progress (R250): opcode 1 `CONFIG`, 2 parameter segment, 3 `CONFIG_COMMIT`, 4 `FW_BLOCK`,
5 `FW_VERIFY`, 6 restart into the staged firmware; the model's numbering (notes/assumptions/103.md). -/
structure Mgmt where
  slot : Nat := 0
  op : Nat := 0
  seg : Nat := 0
  tag : Nat := 0
  /-- Sent in ring period `at_`; until then it waits for the next one. -/
  sent : Bool := false
  at_ : Nat := 0
  repeats : Nat := 0
deriving DecidableEq, Repr, Inhabited

/-- One ring (R225 to R250). -/
structure Ring where
  rp : Nat := 0
  plan100 : Bool := false
  /-- State code of R241. -/
  state : Nat := 0
  lpi : Bool := false
  nFound : Nat := 0
  brk : Nat := 0x1FF
  /-- Ring period number, instant of the last S_p, and whether schedule frames are sent. -/
  rpn : Nat := 0
  sp : Nat := 0
  sched : Bool := false
  /-- Bring-up is asked for or in progress; it is in progress (R247). -/
  bring : Bool := false
  bringing : Bool := false
  /-- A schedule frame from each port arrived at the other one in this period. -/
  schedE : Bool := false
  schedW : Bool := false
  /-- Nodes found by the last discovery, and the UIDs that have answered since it began. -/
  found : List Ident := []
  answers : List Nat := []
  /-- Management requests in progress, oldest first: one node's in service, up to 16 in a bring-up (R247, R250). -/
  mgmt : List Mgmt := []
  /-- Slots waiting to be configured (R249, R432). -/
  todo : List Nat := []
  tag : Nat := 0
  /-- This module sends the ring's frames (R277). -/
  master : Bool := false
  /-- The standby saw the ring master's schedule frames in this period. -/
  heard : Bool := false
  /-- Ring time minus own TBASE, as the standby follows it, and the `HOP` of the copy of this period that it took it from (R277). -/
  ofs : Int := 0
  syncHop : Nat := 0
  /-- First of the four ring periods in which a discovery sends `DISCOVER` (R247, R350), and the period in which it was last sent in service
  (R248). -/
  disc : Option Nat := none
  discAt : Nat := 0
  /-- Frames that left the ports in this ring period, with their ports, from the destination address. -/
  tx : List (Nat × List Byte) := []
deriving DecidableEq, Repr, Inhabited

/-- A port RP0E, RP0W, RP1E, RP1W. -/
structure Port where
  link : Bool := false
  speed : BitVec 2 := 0
  eee : Bool := false
  lpi : Bool := false
  fcsErr : Half := 0
  drop : Half := 0
  /-- Turnaround of the last `PDELAY_RESP` sent, in ns (R229). -/
  pdelay : Option Nat := none
deriving DecidableEq, Repr, Inhabited

/-- A node firmware transfer (R254). -/
structure NfwXfer where
  node : Nat := 0
  /-- Start of the image in the repository. -/
  start : Nat := 0
  ofs : Nat := 0
  missed : List Nat := []
  resend : Bool := false
  /-- 0 none, 1 running, 2 verifying, 3 done, 4 failed. -/
  phase : Nat := 0
  total : Nat := 0
  ver : Nat := 0
deriving DecidableEq, Repr, Inhabited

/-- The ring engine. -/
structure RingBlk where
  evt : Word := 0
  rings : Vector Ring 2 := Vector.replicate 2 {}
  ports : Vector Port 4 := Vector.replicate 4 {}
  nodes : Vector Node 512 := Vector.replicate 512 {}
  nfw : NfwXfer := {}
deriving DecidableEq, Repr, Inhabited

/-! ### Cross-link (10) -/

/-- An accepted copy of a container: slot, lane (true: `CLB`), words 0 to 33. -/
structure XlCopy where
  slot : Nat := 0
  clb : Bool := false
  words : List Word := []
deriving DecidableEq, Repr, Inhabited

/-- The cross-link (R256 to R281). -/
structure XlBlk where
  mid : Nat := 0
  /-- Straps `MID[2:0]` as they stand at the pins. -/
  strap : BitVec 3 := 0
  pairCfg : Bool := false
  pullup : Bool := false
  stopDrv : BitVec 3 := 0
  stopRcv : Bool := false
  disCyc : Nat := 0
  rmRole : Bool := false
  toRole : Bool := false
  actMaster : Nat := 0
  /-- This module drives `CLSYNC`; it has joined; it is locked. -/
  acting : Bool := false
  joined : Bool := false
  locked : Bool := false
  /-- Cycles observed, locked and unlocked in a row (R260). -/
  observed : Nat := 0
  lockRun : Nat := 0
  unlockRun : Nat := 0
  /-- The join found a cause (R260). -/
  joinFailed : Bool := false
  /-- Quiet period code that the join took from the acting master and follows until the master leaves `QUIET` (R260). -/
  took : Option Nat := none
  /-- The partner was present when this module joined: it joined second (R269). -/
  second : Bool := false
  /-- `CLSYNC`: pulse seen in this cycle, expected pulses absent in a row, stamp of the last edge. -/
  pulse : Bool := false
  absent : Nat := 0
  stamp : Nat := 0
  /-- The stamp as it stood at the last commit point, and whether a pulse was ever seen in this start. -/
  stampC : Nat := 0
  sawSync : Bool := false
  /-- `CLSTOP`: pulled low by another module, level at the last t0, t0 instants in a row at which it was low, stop command. -/
  stopIn : Bool := false
  stopLvl : Bool := false
  stopRun : Nat := 0
  stopCmd : Bool := false
  killIn : Bool := false
  killOut : Bool := false
  killGone : Nat := 0
  err : Half := 0
  claErr : Half := 0
  clbErr : Half := 0
  ofs : Int := 0
  ofsHiLatched : Word := 0
  evt : Word := 0
  /-- Cross-link cycle count of the cycle in progress. -/
  xcnt : Nat := 0
  /-- Cross-link cycle count of the cycle whose commit opened the period in progress (R262). -/
  pcnt : Nat := 0
  /-- Accepted copies of this period, and slots in conflict. -/
  copies : List XlCopy := []
  clash : List Nat := []
  /-- Data containers of the last periods: MID, `XCNT`, words 1 to 32. -/
  data : List (Nat × Nat × List Word) := []
  /-- Service containers of the last complete period by MID, words 1 to 32. -/
  svc : List (Nat × List Word) := []
  present : Byte := 0
  /-- Modules whose service containers have been accepted since this module joined (R500). -/
  known : Byte := 0
  valid : Byte := 0
  /-- Containers that this module has sent: the last one of each kind, by slot parity. -/
  txData : List Word := []
  txSvc : List Word := []
  /-- Test outputs that this module drives in pair mode, one bit each. -/
  toMask : Half := 0
  /-- Paired dark test announced by the owner: output and frame (R272). -/
  announce : Option (Nat × Nat) := none
  /-- Own committed local outputs (word 6) by `XCNT`, newest first, and the partner's of cycle c − 2 as last frozen. -/
  own6 : List (Nat × Nat) := []
  partner6 : BitVec 20 := 0
  /-- Cycles in a row in which this module committed 0 and the partner 1, by output (R273). -/
  disRun : List (Nat × Nat) := []
  /-- Qualifying partner (R281): cycles counted, and the present run of differences. -/
  qualCnt : Nat := 0
  qualRun : Nat := 0
  /-- A cell of remote outputs differed from the ring master's in this cycle. -/
  ringDiff : Bool := false
  /-- Transfer channel: object and offset sent next; object received last, its bytes, and whether G7 was taken over. -/
  xferObj : Nat := 0
  xferOfs : Nat := 0
  rxObj : Nat := 0
  rxBytes : Mem 8 := []
  /-- Quiet request and Quiet exit that this module sets (R267). -/
  quietReq : Bool := false
  quietExit : Bool := false
  /-- Start of the join wait (start-up step 10). -/
  joinFrom : Nat := 0
deriving DecidableEq, Repr, Inhabited

end Sys2Proof.Machine
end

