-- ==== Sys2Proof/Machine/Wires.lean ====
section
/-! DEFINITION. What reaches the block from outside beside the words of a command: measurements, findings and answers of the world, as
operands of the commands. -/

namespace Sys2Proof.Machine

/-- One programming pulse: VLOG (10 mV) and junction temperature as sampled before it, and what the cell then reads as: 0
nothing, 1 under MH, 2 under MH and N, 3 under all references. -/
structure Pulse where
  vlog : Nat := 2400
  tj : Int := 25
  level : Nat := 3
deriving DecidableEq, Repr, Inhabited

/-- What the world does while a fuse command runs: its pulses in order (a good one where the list has ended), and the reads of
the re-sensing that differ. -/
structure FuseEnv where
  pulses : List Pulse := []
  noise : List (Nat × Nat) := []
deriving DecidableEq, Repr, Inhabited

/-- A fault of a monitor unit in a sample (R160): the bits of a result word in which the computation on true data, and its repeat, come out
wrong. -/
structure UnitFault where
  unit : Fin 18 := 0
  word : Nat := 11
  first : Word := 1
  again : Word := 0
deriving DecidableEq, Repr, Inhabited

/-- What the new module says of itself beyond its service container (R281): life-cycle state OEM, blank G7, check words of its G3 and G4
equal to the partner's, its presence window open; and whether G7 then is programmed and locked (R362, R409). -/
structure NewModule where
  oem : Bool := true
  g7Blank : Bool := true
  g34Equal : Bool := true
  window : Bool := true
  g7Locks : Bool := true
deriving DecidableEq, Repr, Inhabited

/-- Where a host access goes: BAR0; a Quad-SPI transaction with its instruction byte, 24-bit address, and the words after the first
(R303); the MSI-X table of BAR2; the MSI-X function mask. -/
inductive HostAddr where
  | bar0 (o : Nat)
  | spi (op : Byte) (a : Nat) (more : List Word)
  | bar2 (o : Nat)
  | functionMask
deriving DecidableEq, Repr, Inhabited

/-- What a DMA error struck: a ring, a stream, or a command's own buffer (R337). -/
inductive DmaOn where
  | ring (r : Fin 128)
  | stream (i : Fin 32)
  | buffer
deriving DecidableEq, Repr, Inhabited

/-- States in which the supervisor does not serve that a stop may lead to (R315). -/
inductive StopKind where
  | halt | restart | update
deriving DecidableEq, Repr, Inhabited

/-- A guard message (R42); the bits [63:38] are 0. -/
structure GuardMsg where
  cnt : Half := 0
  ncnt : Half := 0
  next : BitVec 3 := 0
  nnext : BitVec 3 := 0
  sd : Word := 0
  sm : Word := 0
deriving DecidableEq, Repr, Inhabited

/-- What the row test or a read finds in a pool bank. -/
inductive PoolFind where
  /-- A march of the row failed. -/
  | march (bank row : Nat)
  /-- A word with one wrong symbol at a position, at a word address of the bank. -/
  | corr (bank addr pos : Nat)
  /-- An uncorrectable word. -/
  | bad (bank addr : Nat)
  /-- An address error. -/
  | addr (bank addr : Nat)
deriving DecidableEq, Repr, Inhabited

/-- A measurement of a safety input as its converters give it, before the trims: terminal voltage in mV, current in µA, source voltage in
mV (R172, R191). -/
structure Meas where
  v : Int := 0
  i : Nat := 0
  src : Nat := 24000
deriving DecidableEq, Repr, Inhabited

/-- A sample of a safety input (R172): its instant, the measurement, which stands until the next sample given, and the tick of the last
transition of the `ON` comparator up to it (R173). -/
structure Sample where
  at_ : Nat := 0
  meas : Meas := {}
  edge : Nat := 0
deriving DecidableEq, Repr, Inhabited

/-- What an input shows within a dark pulse (R186): how long the `ON` comparator stays off, in ticks, and the samples one after the
other. -/
structure Dip where
  off : Nat := 0
  dark : List Meas := []
deriving DecidableEq, Repr, Inhabited

/-- What an input that a dark test output feeds shows over the window: within the pulse, and at the window end (R186, R188). -/
structure PulseObs where
  inp : Fin 32 := 0
  dip : Dip := {}
  meas : Meas := {}
deriving DecidableEq, Repr, Inhabited

/-- A drop on an input that another test output's dark pulse meets (R186): its start and its return to the band held before, in ticks
from the start of the pulse; it may not return. -/
structure Drop where
  inp : Fin 32 := 0
  start : Nat := 0
  back : Option Nat := none
  dip : Dip := {}
deriving DecidableEq, Repr, Inhabited

/-- What the reference converter finds of one input (R190, R192): the input's own current as its converter gives it, the reference's
measurement of it, both in µA, and whether the channel passes its self-check. -/
structure CalCheck where
  own : Nat := 0
  ref : Nat := 0
  selfOk : Bool := true
deriving DecidableEq, Repr, Inhabited

/-- What an output's terminals showed up to a test window (R198, R206, R217): the readbacks of SOn or BOn+ and of BOn−, 0 LOW, 1 MID, 2
HIGH; the current in mA; and whether it read LOW, or its coil current lay below 50 mA, at every sample since the window before. -/
structure OutRead where
  out : Fin 20 := 0
  rb : Fin 3 := 0
  rbl : Fin 3 := 0
  ma : BitVec 12 := 0
  low : Bool := true
deriving DecidableEq, Repr, Inhabited

/-- What a test window brings: whether the readback shows within the test's pulse what the test looks for, outputs whose readback check fails
in this frame (R213), what the terminals show, the currents of the groups in 10 mA and of the test outputs in mA. -/
structure TestEnv where
  pass : Bool := true
  rbBad : List (Fin 20) := []
  reads : List OutRead := []
  grpMa : List (Fin 2 × BitVec 12) := []
  toMa : List (Fin 16 × BitVec 12) := []
deriving DecidableEq, Repr, Inhabited

/-- The supplies and the junction temperature as the keeper samples them (R458, R462): VLOG and VHU in 10 mV, 3V3 and VCORE in mV, °C. -/
structure Rails where
  vlog : BitVec 12 := 2400
  vhu : BitVec 12 := 3000
  v3v3 : BitVec 12 := 3300
  vcore : BitVec 10 := 900
  tj : Byte := 25
deriving DecidableEq, Repr, Inhabited

/-- What the tests of a start-up step find (R475); each step looks at its own fields. -/
structure StepEnv where
  rails : Rails := {}
  /-- The hold-up bank's capacitance, in the step in which the start tests it (R461). -/
  cap : Option (BitVec 12) := none
  /-- Step 1: the keeper's self-check passes. -/
  keeperOk : Bool := true
  /-- Step 2: fuse reads that differ (read, logical bit). -/
  noise : List (Nat × Nat) := []
  /-- Step 5: lanes whose microcode load fails its symbol check. -/
  loadFail : List (Fin 5) := []
  /-- Step 6: lanes that fail, with the part that failed, units that fail, and the output guard's self-test. -/
  laneFail : List (Fin 5 × Fin 3) := []
  unitFail : List (Fin 18) := []
  guardOk : Bool := true
  /-- Step 7: an atomic write was replayed, pool findings, MRAM words as stored, the recorder's directory, a spare page for every failed
  page. -/
  replayed : Bool := false
  finds : List PoolFind := []
  mram : List (Nat × BitVec 44) := []
  dirOk : Bool := true
  sparesOk : Bool := true
deriving DecidableEq, Repr, Inhabited

/-- How the write of a record goes (R392): it verifies, or its page fails with a symbol-code syndrome and these records of the page, by
their place in it, unreadable. -/
structure RecWrite where
  ok : Bool := true
  syn : Byte := 0
  lost : List (Fin 128) := []
deriving DecidableEq, Repr, Inhabited

/-- An uncorrectable word found while a page of the recorder is read (R392): the logical page, the syndrome, the records of the page that
cannot be read, by their place in it. -/
structure PageFault where
  page : Fin 768 := 0
  syn : Byte := 0
  lost : List (Fin 128) := []
deriving DecidableEq, Repr, Inhabited

/-- The presence sources as the keeper samples them (R416): `PRESENCE` pressed, `CONFIG` fitted, seal loop closed. -/
structure Pins where
  pressed : Bool := false
  cfg : Bool := false
  sealed : Bool := true
deriving DecidableEq, Repr, Inhabited

end Sys2Proof.Machine
end

