-- ==== Sys2Proof/Syntax.lean ====
section
/-! DEFINITION. The commands of the block: one constructor per row of spec/opcode_table.json, in the table's order, with what comes from
outside as operands. -/

namespace Sys2Proof

open Machine

/-- A command. Rows of the supervisor's command set carry the command as it is taken, keeper rows the received frame; the other rows are
register accesses and events, with the measurements and findings of the world as operands. -/
inductive Instr where
  /-- `NOP` (R338): command that does nothing and completes OK. -/
  | nop (q : Req)
  /-- `IDENT_GET` (R338): command returning module identity, versions, image and configuration check word. -/
  | identGet (q : Req)
  /-- `STATE_GET` (R338): command returning module state, cause, presence window, session, period, cycle number and last t0. -/
  | stateGet (q : Req)
  /-- `SESSION_OPEN` (R331): command opening or raising the single configuration session, at P1 or at P2 with a verified password. -/
  | sessionOpen (q : Req)
  /-- `SESSION_CLOSE` (R330): command ending the configuration session and discarding uncommitted staged items. -/
  | sessionClose (q : Req)
  /-- `CFG_STAGE` (R325): chunk command writing data into the staged configuration. -/
  | cfgStage (q : Req)
  /-- `CFG_CHECK` (R340): command checking the staged configuration against hardware, straps and image. -/
  | cfgCheck (q : Req)
  /-- `SESSION_COMMIT` (R340): command rechecking the staged configuration, calibration and parameters, writing the inactive MRAM copy and making all of them take effect at one boundary. -/
  | sessionCommit (q : Req)
  /-- `PASSWD_SET` (R421): command setting a new password record in both configuration copy tails. -/
  | passwdSet (q : Req)
  /-- `CHANGELOG_READ` (R425): command delivering change-log entries, or the anchor for index 0, to an output buffer. -/
  | changelogRead (q : Req)
  /-- `CHANGELOG_HEAD` (R424): command returning the change-log entry count and the hash chain head. -/
  | changelogHead (q : Req)
  /-- `IMG_WRITE` (R341): chunk command writing into the staged image region and clearing its checked mark. -/
  | imgWrite (q : Req)
  /-- `IMG_CHECK` (R342): command applying image acceptance and budget checks to the staged image. -/
  | imgCheck (q : Req)
  /-- `PROG_QUALIFY` (R435): command placing the observer LLO with the staged graph on the spare lane for qualification. -/
  | progQualify (q : Req)
  /-- `PROG_STATUS` (R341): command returning the qualification state, counts, first unpredicted cell and end reason. -/
  | progStatus (q : Req)
  /-- `PROG_HANDOVER` (R439): command handing output ownership of a qualified graph from the active logical lane to LLO at a boundary. -/
  | progHandover (q : Req)
  /-- `PROG_ABORT` (R82): command ending observer duty and discarding observer staging and region. -/
  | progAbort (q : Req)
  /-- `PROG_LOAD` (R342): command in SAFE_HOLD making the checked staged image active and seeding every state region. -/
  | progLoad (q : Req)
  /-- `STREAM_OPEN` (R319): command opening a push or pull data stream at the next boundary within the stream budget. -/
  | streamOpen (q : Req)
  /-- `STREAM_CLOSE` (R343): command closing a stream at the next boundary. -/
  | streamClose (q : Req)
  /-- `STREAM_INFO` (R343): command returning a stream's parameters. -/
  | streamInfo (q : Req)
  /-- `DIAG_SUMMARY` (R344): command returning the block event and status registers without clearing them. -/
  | diagSummary (q : Req)
  /-- `BIST_RESULTS` (R344): command returning lane and unit BIST results, the last shut-down BIST and the kind of the last start. -/
  | bistResults (q : Req)
  /-- `HOLD` (R345): command causing SAFE_HOLD with cause 0x13. -/
  | hold (q : Req)
  /-- `HOLD_ACK` (R25): acknowledgement of SAFE_HOLD, returning to RUN at the next boundary when no recorded cause remains. -/
  | holdAck (q : Req)
  /-- `QUIET_ENTER` (R22): quiet request, accepted only when the Quiet conditions hold at the boundary. -/
  | quietEnter (q : Req)
  /-- `QUIET_EXIT` (R345): host command ending QUIET at the next boundary, or setting Quiet exit on a joined module. -/
  | quietExit (q : Req)
  /-- `GROUP_ACK` (R217): group acknowledgement clearing every latch of a field group when all latched conditions are gone. -/
  | groupAck (q : Req)
  /-- `RESTART` (R345): command that completes and then takes the module through SHUTTING_DOWN to a new start. -/
  | restart (q : Req)
  /-- `LOUPE_OPEN` (R390): command opening or moving an event-recorder cursor. -/
  | loupeOpen (q : Req)
  /-- `LOUPE_READ` (R390): command delivering records from a cursor, or CURSOR_OVERRUN. -/
  | loupeRead (q : Req) (faults : List PageFault)
  /-- `LOUPE_CLOSE` (R346): command closing a cursor. -/
  | loupeClose (q : Req)
  /-- `LOG_STATUS` (R346): command returning event recorder counts, sequence numbers and mode. -/
  | logStatus (q : Req)
  /-- `LOG_CLEAR` (R385): command clearing the circulating operational records and writing EVR_CLEARED. -/
  | logClear (q : Req)
  /-- `SUP_FW_WRITE` (R347): chunk command writing supervisor firmware into the bank that is not running. -/
  | supFwWrite (q : Req)
  /-- `SUP_FW_CHECK` (R348): command verifying the signature and version floor of the bank that is not running. -/
  | supFwCheck (q : Req)
  /-- `SUP_FW_SWITCH` (R348): command marking the checked bank preferred and restarting the supervisor from it. -/
  | supFwSwitch (q : Req)
  /-- `UCODE_WRITE` (R347): chunk command writing lane microcode staging. -/
  | ucodeWrite (q : Req)
  /-- `UCODE_ROLL` (R443): command starting a lane-by-lane microcode update through rotations. -/
  | ucodeRoll (q : Req)
  /-- `KEEPER_FW_WRITE` (R347): chunk command writing keeper firmware staging. -/
  | keeperFwWrite (q : Req)
  /-- `KEEPER_FW_SWITCH` (R442): command switching the keeper to the staged firmware bank. -/
  | keeperFwSwitch (q : Req)
  /-- `LANE_STATUS` (R349): command returning lane map, regions, lane roles and rotation status. -/
  | laneStatus (q : Req)
  /-- `PRISM_ENTER` (R83): command putting the spare lane into Prism mode at a boundary. -/
  | prismEnter (q : Req)
  /-- `PRISM_EXIT` (R85): command ending Prism mode, committing defaults and sending the lane to BIST. -/
  | prismExit (q : Req)
  /-- `LL_RESEED` (R72): command reseeding a logical lane's state region after a state-image fault. -/
  | llReseed (q : Req)
  /-- `LANE_ROTATE` (R349): command setting a lane rotation due. -/
  | laneRotate (q : Req)
  /-- `RING_DISCOVER` (R350): command running a discovery on a ring and counting unconfigured nodes. -/
  | ringDiscover (q : Req)
  /-- `NODE_LIST` (R350): command listing the nodes of a ring into an output buffer. -/
  | nodeList (q : Req)
  /-- `ADOPT` (R252): command letting a new node UID take over a configured slot. -/
  | adopt (q : Req)
  /-- `NFW_STORE` (R350): chunk command writing a node firmware image into the repository. -/
  | nfwStore (q : Req)
  /-- `NFW_SEND` (R254): command starting a node firmware transfer to one node. -/
  | nfwSend (q : Req)
  /-- `FW_ACTIVATE` (R255): command restarting a node into its verified staged firmware. -/
  | fwActivate (q : Req)
  /-- `NFW_STATUS` (R350): command returning node firmware transfer progress. -/
  | nfwStatus (q : Req)
  /-- `CAL_READ` (R352): command delivering the active or staged calibration record. -/
  | calRead (q : Req)
  /-- `CAL_STAGE` (R352): chunk command writing the staged calibration record. -/
  | calStage (q : Req)
  /-- `PARAM_READ` (R352): command returning the active and staged value of a parameter cell. -/
  | paramRead (q : Req)
  /-- `PARAM_STAGE` (R353): command staging a new value for a calibratable parameter cell. -/
  | paramStage (q : Req)
  /-- `MM_REALIGN` (R155): command offsetting source B and clearing divergence, quadrature and jump errors at standstill. -/
  | mmRealign (q : Req)
  /-- `REG_READ` (R356): command reading register-window words in ascending offset. -/
  | regRead (q : Req)
  /-- `REG_WRITE` (R358): command writing one register-window word where permitted. -/
  | regWrite (q : Req)
  /-- `TIME_GET` (R359): command returning TBASE and the stored UTC offset. -/
  | timeGet (q : Req)
  /-- `UTC_SET` (R359): command storing the UTC offset against TBASE in the keeper. -/
  | utcSet (q : Req)
  /-- `TMR_SETUP` (R359): command configuring a free timer channel and optionally clearing and arming it. -/
  | tmrSetup (q : Req)
  /-- `XL_STATUS` (R360): command returning cross-link configuration, status, phase and lane error counts. -/
  | xlStatus (q : Req)
  /-- `XL_STOP` (R268): command pulling CLSTOP as the command cause. -/
  | xlStop (q : Req)
  /-- `XL_STOP_RELEASE` (R360): command releasing the command cause on CLSTOP. -/
  | xlStopRelease (q : Req)
  /-- `PAIR_ADOPT` (R281): command replacing a failed module of a pair: G7 programming, then transfer and qualification. -/
  | pairAdopt (q : Req) (x : NewModule)
  /-- `FUSE_READ` (R361): command returning a fuse group's state, lock, check word and marginal bits. -/
  | fuseRead (q : Req)
  /-- `FUSE_PROG` (R409): command programming fuse bits with verify and repair entries. -/
  | fuseProg (q : Req) (env : FuseEnv)
  /-- `FUSE_LOCK` (R362): command setting a group's lock fuse when its check word verifies. -/
  | fuseLock (q : Req) (env : FuseEnv)
  /-- `LC_ADVANCE` (R414): command advancing the life-cycle state by programming the next step field. -/
  | lcAdvance (q : Req) (env : FuseEnv)
  /-- `KP_STATUS` (R372): keeper command returning state, supplies, presence and journal status. -/
  | kpStatus (f : Frame)
  /-- `KP_BAUD` (R364): keeper command changing the sideband bit rate after answering at the old rate. -/
  | kpBaud (f : Frame)
  /-- `KP_JOURNAL_INFO` (R372): keeper command returning journal sequence range, TBASE mark and lost count. -/
  | kpJournalInfo (f : Frame)
  /-- `KP_JOURNAL_READ` (R378): keeper command delivering journal records in sequence order. -/
  | kpJournalRead (f : Frame)
  /-- `KP_HOLD` (R373): keeper command causing SAFE_HOLD with cause 0x13. -/
  | kpHold (f : Frame)
  /-- `KP_HOLD_ACK` (R373): keeper acknowledgement of SAFE_HOLD. -/
  | kpHoldAck (f : Frame)
  /-- `KP_SHUTDOWN` (R373): keeper command entering SHUTTING_DOWN after its response. -/
  | kpShutdown (f : Frame)
  /-- `KP_RESET` (R373): keeper reset command: shut-down, OFF and a new start. -/
  | kpReset (f : Frame)
  /-- `KP_SUP_RESTART` (R373): keeper command restarting the supervisor alone. -/
  | kpSupRestart (f : Frame)
  /-- `KP_PRESENCE_CLOSE` (R373): keeper command closing the presence window and ending the session. -/
  | kpPresenceClose (f : Frame)
  /-- `KP_RECOVER_WRITE` (R374): keeper recovery command writing data into a supervisor bank that is not running. -/
  | kpRecoverWrite (f : Frame) (nvOk : Bool)
  /-- `KP_RECOVER_DIGEST` (R374): keeper command returning the SHA-256 of a bank's first bytes. -/
  | kpRecoverDigest (f : Frame)
  /-- `KP_RECOVER_BOOT` (R374): keeper command marking a bank preferred and restarting as KP_RESET does. -/
  | kpRecoverBoot (f : Frame)
  /-- `SIDEBAND_FRAME_DISCARD` (R367): a received sideband frame with bad length, CRC, escape or early SOF is discarded and counted. -/
  | sidebandFrameDiscard
  /-- `SIDEBAND_BYTE_TIMEOUT` (R367): more than 2 ms between two bytes of a frame discards the frame. -/
  | sidebandByteTimeout
  /-- `SIDEBAND_REPEAT_REQUEST` (R369): a request equal to the last accepted one gets the stored response without execution. -/
  | sidebandRepeatRequest (tag cmd crc : Half)
  /-- `BAUD_REVERT` (R364): no valid frame within 10 s after a rate change returns the keeper to the old rate. -/
  | baudRevert
  /-- `REGISTER_WRITE` (R6): write to a register with no row of its own, including W1C clears, reserved encodings and discarded partial writes. -/
  | registerWrite (a : HostAddr) (be : BitVec 4) (v : Word)
  /-- `RING_ENABLE` (R306): write of RCFG with EN = 1 checking base, size and partner ring and activating the mailbox ring. -/
  | ringEnable (r : Fin 128)
  /-- `RING_DISABLE` (R306): write of RCFG with EN = 0 stopping a mailbox ring at once. -/
  | ringDisable (r : Fin 128)
  /-- `DOORBELL` (R307): doorbell write setting a ring's tail or head, or stopping it with a ring error. -/
  | doorbell (r : Fin 128) (v : Half)
  /-- `HRST` (R316): quad-SPI write of HP_CMD.HRST causing a host-port reset. -/
  | hrst
  /-- `COMMIT` (R318): write of HRQ_CTRL.COMMIT copying the staging window into the commit buffer. -/
  | commit
  /-- `HP_WDOG_WRITE` (R317): write of HP_WDOG restarting or turning off the host watchdog. -/
  | hpWdogWrite (v : Word)
  /-- `SCONS_WRITE` (R321): host write of SCONS consuming push records. -/
  | sconsWrite (j : Fin 32) (v : Word)
  /-- `ARM` (R289): TMR_CMD write arming a channel's compare. -/
  | arm (n : Fin 32)
  /-- `DISARM` (R291): TMR_CMD write disarming a channel's compare. -/
  | disarm (n : Fin 32)
  /-- `CNT_CLR` (R286): TMR_CMD write clearing a channel counter. -/
  | cntClr (n : Fin 32)
  /-- `INT_NOW` (R290): TMR_CMD write applying INT_PRE at once and re-placing the next match. -/
  | intNow (n : Fin 32)
  /-- `CMP_LO_WRITE` (R291): write of CMP_LO applying the staged CMP_HI on one edge. -/
  | cmpLoWrite (n : Fin 32) (v : Word)
  /-- `INT_PRE_LO_WRITE` (R291): write of INT_PRE_LO applying the staged INT_PRE_HI on one edge. -/
  | intPreLoWrite (n : Fin 32) (v : Word)
  /-- `CNT_LO_READ` (R295): read of CNT_LO latching CNT_HI and, under LINKLATCH, the cascade slaves' LAT. -/
  | cntLoRead (n : Fin 32)
  /-- `CAP_LO_READ` (R292): read of CAP_LO latching CAP_HI and clearing CAPT. -/
  | capLoRead (n : Fin 32) (onEdge : Bool)
  /-- `TBASE_LO_READ` (R285): read of TBASE_LO latching TBASE_HI, or making up TBASE from SCLK while TCLK is stopped. -/
  | tbaseLoRead
  /-- `CYC_NUM_LO_READ` (R11): read of CYC_NUM_LO latching CYC_NUM_HI. -/
  | cycNumLoRead
  /-- `INT_ACT_LO_READ` (R11): read of INT_ACT_LO latching INT_ACT_HI. -/
  | intActLoRead (n : Fin 32)
  /-- `LANE_MIS_READ` (R11): read of LANE_MIS latching LANE_MIS_LOC. -/
  | laneMisRead
  /-- `MEM_LAST_READ` (R11): read of MEM_LAST latching MEM_LAST_ADDR. -/
  | memLastRead
  /-- `XL_OFS_LO_READ` (R11): read of XL_OFS_LO latching XL_OFS_HI. -/
  | xlOfsLoRead
  /-- `COMMAND_ENTRY_FETCH` (R308): DMA read of one command entry, advancing the command ring head. -/
  | commandEntryFetch (r : Fin 64) (entry ibuf : List Byte) (inErr dmaErr : Bool)
  /-- `COMPLETION_POST` (R311): a completion entry is written and RTAIL advanced once the completion ring has room. -/
  | completionPost (err : Bool)
  /-- `EVENT_POSTING` (R313): a host event entry is written to the event ring, or dropped and counted when full. -/
  | eventPosting
  /-- `INTERRUPT_COALESCE_TIMEOUT` (R314): COAL_T expiry raising a completion ring's vector. -/
  | interruptCoalesceTimeout (r : Fin 64)
  /-- `HOST_WDOG_EXPIRE` (R317): host watchdog expiry zeroing the host request commit buffer and stopping pull streams. -/
  | hostWdogExpire
  /-- `HOST_PORT_RESET` (R316): PERST#, hot reset, link down or D3hot to D0 stops rings and streams and resets the host port. -/
  | hostPortReset (perst : Bool)
  /-- `D3HOT_ENTER` (R301): entry to D3hot stopping all DMA and refusing BAR accesses. -/
  | d3hotEnter
  /-- `BUS_MASTER_DISABLE` (R316): clearing Bus Master Enable stops all DMA without closing rings or streams. -/
  | busMasterDisable
  /-- `DMA_ERROR` (R302): a failed DMA stops the ring or stream concerned and is counted. -/
  | dmaError (t : DmaOn)
  /-- `PUSH_RECORD_COMPLETE` (R320): a push record's DMA write completes and SPROD is incremented. -/
  | pushRecordComplete (j : Fin 32)
  /-- `PULL_RECORD_READ` (R322): a pull record's DMA read completes and is accepted, torn or late. -/
  | pullRecordRead (j : Fin 32) (ws : List Word)
  /-- `SUPERVISOR_STOP` (R315): the supervisor halts, restarts or updates while the data path continues. -/
  | supervisorStop (k : StopKind)
  /-- `SUPERVISOR_SERVING` (R315): the supervisor reaches SUP = 1 and completes interrupted commands. -/
  | supervisorServing
  /-- `SUP_SWITCH_TIMEOUT` (R441): the preferred bank not serving within 10 s returns the supervisor to the other bank. -/
  | supSwitchTimeout
  /-- `KEEPER_SWITCH_TIMEOUT` (R442): new keeper firmware not ready within 2 s makes a hardware watchdog start the old bank. -/
  | keeperSwitchTimeout
  /-- `LANE_WAKE` (R30): at t0 − 1 µs lane clocks ungate, checkpoints are set and the sentinel compare runs. -/
  | laneWake (missed : List (Fin 5))
  /-- `FREEZE` (R33): at t0 every input source is latched into the input image on one TCLK edge. -/
  | freeze (d : Int) (stop : Bool)
  /-- `LANE_MISMATCH` (R35): a mismatch in a first run abandons it and starts a rerun; in a rerun it ends the run without agreement. -/
  | laneMismatch (j : Fin 5) (m : Mis)
  /-- `CHECKER_ERROR` (R69): the checker output shows its error state outside a compare: comparator fault, hand-over requested. -/
  | checkerError (k : Fin 5) (bit : Fin 89)
  /-- `RUN_COMPLETE` (R31): a logical lane's first run or rerun completes, and the lane idles until the commit point. -/
  | runComplete (j : Fin 5) (found : List Hit)
  /-- `COMMIT_POINT` (R36): at t0 + 0.85 × TCYC each logical lane commits its agreed result, holds or commits 0, and requests hand-over. -/
  | commitPoint (late : List (Fin 5)) (msg : Option GuardMsg)
  /-- `GUARD_TIMEOUT` (R43): no acceptable guard message 4 SCLK ticks after the expected instant opens both group masters. -/
  | guardTimeout
  /-- `P3_END` (R30): end of P3: sleep phase begins, stream records start and P4 work runs. -/
  | p3End (finds : List PoolFind)
  /-- `QUIET_WAKE` (R468): at t0 − 256 µs the keeper starts the FLL and LCLK PLL. -/
  | quietWake (pllTk : Byte)
  /-- `TCLK_RESTART` (R297): TCLK restarts at an SCLK edge and TBASE and channels are made up. -/
  | tclkRestart (wait : Half)
  /-- `LANE_ROTATION_DUE` (R76): the rotation period elapses and a lane rotation falls due. -/
  | laneRotationDue
  /-- `LANE_BIST_DONE` (R75): a lane BIST ends and the lane becomes SPARE or RETIRED. -/
  | laneBistDone (k : Fin 5) (pass : Bool) (step : Fin 3)
  /-- `OBSERVER_TIMEOUT` (R82): observer duty ends when a due rotation waits after 168 h without qualification. -/
  | observerTimeout
  /-- `MM_SAMPLE` (R148): at t0 − 8 µs every monitor samples, estimates and judges divergence and standstill. -/
  | mmSample (faults : List UnitFault)
  /-- `MM_ROTATION_DUE` (R162): the monitor rotation period elapses and a spare unit starts as a shadow. -/
  | mmRotationDue
  /-- `MM_UNIT_BIST_DONE` (R163): a unit BIST ends and the unit becomes SPARE or RETIRED. -/
  | mmUnitBistDone (u : Fin 18) (pass : Bool)
  /-- `CI_EDGE` (R181): a counting input edge is counted and stamped. -/
  | ciEdge (k : Fin 8) (level : Bool) (tick : Nat) (fine : Fin 16)
  /-- `CI_QUALITY_RETURN` (R182): after 10 ms without the condition, a counting input regains quality. -/
  | ciQualityReturn (k : Fin 8)
  /-- `FILTER_ACCEPT` (R174): an input's raw band has held for t_f and the filtered band, value and quality change. -/
  | filterAccept (n : Fin 32) (samples : List Sample)
  /-- `TEST_PULSE_START` (R183): a test output goes dark, and inputs it feeds hold their band and pause their filter. -/
  | testPulseStart (k : Fin 16)
  /-- `TEST_PULSE_WINDOW_END` (R188): the pulse window ends: pulse judged seen, missing or foreign, and the filter resumes or restarts. -/
  | testPulseWindowEnd (k : Fin 16) (low : Bool) (obs : List PulseObs) (foreign : List Drop)
  /-- `INPUT_CAL_CHECK` (R190): the reference converter checks one input's current, trims it or sets a channel fault. -/
  | inputCalCheck (c : CalCheck)
  /-- `VF_BAND_CHANGE` (R463): a field group voltage enters or leaves a band after its qualification time. -/
  | vfBandChange (g : Fin 2) (band : Fin 4) (vf : BitVec 12)
  /-- `OUTPUT_TEST_WINDOW` (R201): in each 8 ms frame one retest, master test, dark test or light test runs. -/
  | outputTestWindow (e : TestEnv)
  /-- `READBACK_FAULT` (R206): an output committed 0 reads not LOW for 100 µs after blanking: short condition or lost switch. -/
  | readbackFault (n : Fin 20) (coil : Nat)
  /-- `SHORT_IDENTIFY` (R207): after 1 ms rail blanking the short's source is classified, with identification dark pulses. -/
  | shortIdentify (k : Fin 20) (low : Bool)
  /-- `OUTPUT_OVERLOAD` (R210): an output in current limit too long is switched off and latched. -/
  | outputOverload (n : Fin 20)
  /-- `TO_OVERLOAD_RETRY` (R210): an overloaded test output retries every 100 ms. -/
  | toOverloadRetry (k : Fin 16) (still : Bool)
  /-- `OPEN_LOAD` (R211): an energised output below its minimum current for 100 ms sets code 0x1. -/
  | openLoad (n : Fin 20) (ua : Nat)
  /-- `GROUP_OVERCURRENT` (R212): group current over limit opens the master with cause 5. -/
  | groupOvercurrent (g : Fin 2)
  /-- `ECO_PHASE_END` (R200): after 300 ms at full drive a brake output changes to economy PWM. -/
  | ecoPhaseEnd (b : Fin 4)
  /-- `MASTER_DRIVE_LOSS` (R196): a master gate drive that stops toggling opens its master within 100 µs. -/
  | masterDriveLoss (g : Fin 2)
  /-- `SCLK_FAULT` (R13): SCLK lost or out of tolerance opens both masters and leads to FAULT 0x24. -/
  | sclkFault
  /-- `RING_PERIOD_START` (R227): at S_p schedule frames leave both ports, ages increment and the ring is classified. -/
  | ringPeriodStart (k : Fin 2)
  /-- `CONNECTION_EXPIRE` (R239): a connection's age reaches W, it expires and the node's points go bad. -/
  | connectionExpire (g : Fin 512)
  /-- `INPUT_CONTAINER_RECEIVE` (R238): an input frame is checked and its container accepted, discarded or used for reintegration. -/
  | inputContainerReceive (p : Fin 4) (fr : List Byte)
  /-- `RING_FRAME_DROP` (R219): a PAUSE, tagged or foreign-EtherType frame is dropped and counted. -/
  | ringFrameDrop (p : Fin 4) (fcs : Bool)
  /-- `PDELAY_REQ_RECEIVE` (R229): a module port answers a node's PDELAY_REQ. -/
  | pdelayReqReceive (p : Fin 4) (turn : Nat)
  /-- `MGMT_RESP_RECEIVE` (R250): a node's management or IDENT response arrives. -/
  | mgmtRespReceive (p : Fin 4) (fr : List Byte)
  /-- `MGMT_TIMEOUT` (R250): no management response within 4 ring periods repeats the request or completes NO_NODE. -/
  | mgmtTimeout (k : Fin 2)
  /-- `RING_BRINGUP` (R247): a ring runs discovery, configuration and schedule start for its nodes. -/
  | ringBringup (k : Fin 2)
  /-- `PORT_LINK_CHANGE` (R220): a ring port's link comes up, goes down or links below plan speed. -/
  | portLinkChange (p : Fin 4) (speed : Fin 3) (eee : Bool)
  /-- `DISCOVERY_PERIODIC` (R248): every 1,024 ring periods a DISCOVER is sent in the management segment. -/
  | discoveryPeriodic (k : Fin 2)
  /-- `SCHEDULE_FRAME_RECEIVE` (R277): the standby of a pair follows the ring master's schedule frame and compares outputs. -/
  | scheduleFrameReceive (p : Fin 4) (fr : List Byte)
  /-- `RING_MASTER_TAKEOVER` (R277): no schedule frame from the ring master in one period makes the standby acting ring master. -/
  | ringMasterTakeover (k : Fin 2)
  /-- `XL_SLOT` (R261): at its slot start a module sends its data or service container on CLA and CLB. -/
  | xlSlot (svc : Bool)
  /-- `XL_CONTAINER_RECEIVE` (R264): a cross-link copy is checked and accepted, with conflict detection. -/
  | xlContainerReceive (slot : Fin 16) (clb : Bool) (ws : List Word)
  /-- `CLSYNC_EDGE` (R258): a follower stamps a CLSYNC pulse and corrects its next t0. -/
  | clsyncEdge (m : Fin 8) (at_ : Nat)
  /-- `CLSYNC_TIMEOUT` (R259): missing CLSYNC pulses make a follower the acting cycle master. -/
  | clsyncTimeout
  /-- `XL_JOIN` (R260): a module joins the cross-link after observing and locking to the acting master. -/
  | xlJoin
  /-- `JOIN_TIMEOUT` (R260): no CLSYNC within 10 s + m × 0.5 s makes the module acting cycle master. -/
  | joinTimeout
  /-- `CLSTOP_DETECT` (R268): CLSTOP low at two consecutive t0 enters SAFE_HOLD with cause 0x14. -/
  | clstopDetect
  /-- `KILL_RECEIVE` (R274): a kill line low for 50 µs opens the masters and enters FAULT 0x27. -/
  | killReceive
  /-- `KILL_RELEASE` (R274): the killer releases the line after 16 cycles of partner absence or FAULT. -/
  | killRelease (incoming : Bool)
  /-- `TO_TAKEOVER` (R271): the non-owner drives a test output seen LOW outside the owner's dark windows. -/
  | toTakeover (k : Fin 16)
  /-- `TMR_MATCH` (R289): a channel compare is passed and matches, toggling OUT and reloading CMP. -/
  | tmrMatch (n : Fin 32)
  /-- `TMR_CAPTURE` (R292): a capture event copies CNT into CAP. -/
  | tmrCapture (n : Fin 32)
  /-- `TMR_WRAP` (R286): a channel counter wraps and sets CARRY. -/
  | tmrWrap (n : Fin 32)
  /-- `EVENT_POST` (R379): a block posts an event to the recorder front queue, merged or dropped when full. -/
  | eventPost (code inst : Half) (data : List Byte)
  /-- `RECORD_WRITE` (R387): a front-queue entry is written to MRAM 2 ms after its first timestamp. -/
  | recordWrite (w : RecWrite)
  /-- `RECORD_REWRITE` (R387): a record is rewritten with its pending repeats. -/
  | recordRewrite (w : RecWrite)
  /-- `COALESCE_EXPIRE` (R386): a record leaves the coalescing table 10 s after its last occurrence. -/
  | coalesceExpire
  /-- `SCRUB_PERIOD_END` (R452): a scrub period ends and a missed pass is counted. -/
  | scrubPeriodEnd (bank : Option (Fin 36))
  /-- `MRAM_SCRUB` (R451): a paced MRAM scrub read corrects and writes back a word. -/
  | mramScrub (raw : BitVec 44) (syn : Byte)
  /-- `PRESENCE_WINDOW_OPEN` (R417): PRESENCE held for the hold time with required sources opens or restarts the window. -/
  | presenceWindowOpen (p : Pins) (released : Bool)
  /-- `PRESENCE_WINDOW_CLOSE` (R418): the window closes on expiry, a missing source or failed passwords. -/
  | presenceWindowClose (p : Pins)
  /-- `KEEPER_SELF_CHECK` (R493): every 600 s the keeper checks its ROM and RAM. -/
  | keeperSelfCheck (ok : Bool)
  /-- `TBASE_MARK` (R377): at each multiple of 2³² ticks the keeper writes the next TBASE mark. -/
  | tbaseMark
  /-- `HOLDUP_TEST` (R461): the keeper measures the hold-up bank capacitance daily and at each start. -/
  | holdupTest (cap : BitVec 12) (r : Rails)
  /-- `POWER_ON` (R19): VLOG rises above 16.0 V and the module enters STARTING. -/
  | powerOn (unpowered : Bool) (r : Rails)
  /-- `STARTUP_STEP` (R475): a start-up step ends and the next one begins, or a cause stops the sequence. -/
  | startupStep (e : StepEnv)
  /-- `STARTUP_COMPLETE` (R481): at the first t0 meeting all conditions the module enters RUN or SAFE_HOLD. -/
  | startupComplete
  /-- `VLOG_LOW` (R458): VLOG below 16.8 V or above 33.0 V for 10 ms records a supply event. -/
  | vlogLow (r : Rails)
  /-- `VLOG_DIP` (R459): VLOG below 15.0 V switches the core regulators to VHU. -/
  | vlogDip (r : Rails)
  /-- `VLOG_RECOVER` (R459): VLOG back above 15.0 V returns the regulators to VLOG and counts the dip. -/
  | vlogRecover (r : Rails)
  /-- `SHUTDOWN_TRIGGER` (R484): VLOG below 15.0 V for 1 ms, or VHU below 27.0 V on hold-up, enters SHUTTING_DOWN. -/
  | shutdownTrigger (r : Rails)
  /-- `HU_LOW` (R460): VHU below 27.0 V for 10 ms with VLOG good sets HU_LOW. -/
  | huLow (r : Rails)
  /-- `NV_INHIBIT` (R455): VHU or 3V3 below threshold blocks every MRAM and fuse write. -/
  | nvInhibit (r : Rails)
  /-- `KEEPER_RESET` (R462): 3V3 below 2.90 V resets the keeper and puts the module in OFF. -/
  | keeperReset (r : Rails)
  /-- `VCORE_FAULT` (R462): VCORE out of window opens the masters and restarts without BIST. -/
  | vcoreFault (r : Rails)
  /-- `XO_FAIL` (R467): loss of the 25 MHz oscillator stops the PLLs, halts the supervisor and downs the rings. -/
  | xoFail
  /-- `XO_RESTART` (R467): every 10 ms the keeper restarts the oscillator, and after 1 ms within tolerance the PLLs relock. -/
  | xoRestart (ok : Bool)
  /-- `LCLK_UNLOCK` (R467): LCLK PLL out of lock makes cycles slip. -/
  | lclkUnlock (locked : Bool)
  /-- `SUP_UNLOCK` (R467): supervisor PLL out of lock restarts the supervisor after relock. -/
  | supUnlock (locked : Bool)
  /-- `FLL_UNLOCK` (R284): TCLK FLL out of lock while TCLK runs slips the cycle. -/
  | fllUnlock (d : Int)
  /-- `SUP_PLL_WAKE` (R470): in QUIET a doorbell or posting restarts the stopped supervisor PLL. -/
  | supPllWake
  /-- `SHUTDOWN_ENTER` (R484): SHUTTING_DOWN begins: masters open, outputs 0, flush and BIST start. -/
  | shutdownEnter
  /-- `SHUTDOWN_BIST_END` (R487): at E + 32 ms the shut-down BIST window closes and parts still running count as failed. -/
  | shutdownBistEnd (bad : List (Fin 36))
  /-- `SHUTDOWN_COMPLETE` (R488): the shut-down record and TBASE mark are written, VCORE is switched off and the module is OFF. -/
  | shutdownComplete (r : Rails)
  /-- `CI_INDETERMINATE_LEVEL` (R182): a counting input whose level stays between 5.0 V and 11.0 V for more than 10 µs takes quality 0 with code 0x2. -/
  | ciIndeterminateLevel (k : Fin 8)
  /-- `ECO_OFF_PHASE_CHECK` (R202): BOn+ failing to read LOW in 16 consecutive economy PWM off phases counts as a failed high-side dark test. -/
  | ecoOffPhaseCheck (b : Fin 4) (low : Bool) (vf : BitVec 12)
  /-- `RING_FRAME_FORWARD` (R276): in pair mode a module forwards a received ring frame to its other port with HOP + 1. -/
  | ringFrameForward (p : Fin 4) (fr : List Byte)
  /-- `EARLIER_WAKE` (R298): the keeper restarts TCLK alone at least 16 SCLK ticks before a due WAKE compare in QUIET. -/
  | earlierWake
  /-- `PERST_RELEASE` (R302): release of PERST# starts PCI Express link training, and the endpoint answers configuration requests within 80 ms. -/
  | perstRelease
  /-- `BUS_MASTER_ENABLE` (R316): setting Bus Master Enable again resumes the DMA of rings and streams that were held. -/
  | busMasterEnable
  /-- `NV_INHIBIT_CLEAR` (R462): the NV-write inhibit clears when VHU and 3V3 have both been above their thresholds for 1 ms. -/
  | nvInhibitClear (r : Rails)
  /-- `VF_OVERVOLTAGE` (R463): a field group above 33.0 V for 1 ms records a supply event and changes nothing else. -/
  | vfOvervoltage (g : Fin 2) (vf : BitVec 12)
  /-- `SUP_PLL_IDLE_STOP` (R470): in QUIET the supervisor PLL is stopped once the supervisor has had no work for 1 ms. -/
  | supPllIdleStop
  /-- `KEEPER_FW_READY` (R442): the new keeper firmware reports ready within 2 s, ends the sideband silence and takes over pending state changes. -/
  | keeperFwReady
deriving DecidableEq, Repr

end Sys2Proof
end

