-- ==== Sys2Proof/Decode.lean ====
section
/-! DEFINITION. The commands that words spell. No row of spec/opcode_table.json gives its command a bit encoding: commands reach the
block as mailbox entries, frames, register accesses and events, whose bytes the meanings themselves read. -/

namespace Sys2Proof

/-- The command that a word of a number of bits spells by the table: none. -/
def decodeTableWord (_nbits _w : Nat) : Option Instr := none

end Sys2Proof
end

