-- ==== Sys2Proof/Machine/Blocks.lean ====
section
/-! DEFINITION. The blocks of the state: keeper and module state, supervisor, sessions, host port, recorder, cycle
controller and lanes. Each field's value here is its value at reset; a value the spec does not give is named in
notes/assumptions/3.md to 7.md. -/

namespace Sys2Proof.Machine

/-! ### Module state (01, 20) -/

/-- Result of one part of the shut-down BIST or of a start-up test. -/
inductive PartRes where
  | none | pass | fail
deriving DecidableEq, Repr, Inhabited

/-- Module state, held by the keeper (R18 to R25), with the start-up and shut-down sequences (R475, R485). -/
structure ModBlk where
  mstate : MState := .starting
  cause : Byte := 0
  /-- Causes recorded since the entry to the present state, the reported one first (R18, R25). -/
  recorded : List Byte := []
  /-- `SAFE_HOLD` causes found and waiting for the next commit point (R19), the first detected first. -/
  holdPend : List Byte := []
  /-- A Quiet exit found for the next boundary (R23). -/
  quietExit : Bool := false
  /-- Cycle number of the agreed entry to or exit from `QUIET` (R267). -/
  quietIn : Option Nat := none
  quietOut : Option Nat := none
  /-- Start-up step in progress, 1 to 11; 12: the sequence has ended (R475). -/
  startStep : Nat := 1
  startFull : Bool := true
  startReason : Nat := 1
  /-- Life-cycle `SCRAPPED`: the sequence has stopped in step 3. -/
  scrapped : Bool := false
  /-- The active configuration or calibration fails its check (cause 0x12). -/
  cfgBad : Bool := false
  /-- Identity conflict found (cause 0x15). -/
  idConflict : Bool := false
  /-- Instant at which step 6 ends at the latest (R483). -/
  step6End : Nat := 0
  /-- First t0 and first freeze of this start (R481). -/
  firstT0 : Option Nat := none
  committedCycles : Nat := 0
  /-- Shut-down asked for and not yet entered (R345, R373). -/
  shutReq : Option ShutKind := none
  /-- Shut-down in progress: how it began, its instant E, whether the BIST runs, results by lane, unit and bank. -/
  shut : Option ShutKind := none
  shutAt : Nat := 0
  shutBist : Bool := false
  /-- The BIST window of this shut-down has closed, and its results stand. -/
  shutRan : Bool := false
  shutLanes : Vector PartRes 5 := Vector.replicate 5 .none
  shutUnits : Vector PartRes 18 := Vector.replicate 18 .none
  shutBanks : Vector PartRes 36 := Vector.replicate 36 .none
  /-- `OFF` after `KP_SHUTDOWN`: VLOG must fall below 15.0 V and rise again (R489). -/
  offLatched : Bool := false
  /-- Qualifying partner of a pair (R281, R482). -/
  qualPartner : Bool := false
  /-- When the presence window last opened, for the LEDs (R502), and the start for the lamp test (R501). -/
  ledWindow : Option Nat := none
  ledStart : Nat := 0
  /-- Last commit point about which a group master was open or `LL_SAFE` set (R502, note 1); the LEDs as a keeper firmware switch holds
  them. -/
  safeSeen : Option Nat := none
  ledHold : Option Leds := none
deriving DecidableEq, Repr, Inhabited

/-! ### Supervisor and its commands (12, 13, 17) -/

/-- A supervisor command taken and not completed: its requester, tag, opcode, `FENCE`, the tick of its taking, and the
authority judged then (R308, R329). -/
structure Taken where
  src : Requester := .sideband
  tag : Half := 0
  opcode : Nat := 0
  fence : Bool := false
  at_ : Nat := 0
  refusal : Option Status := none
  /-- The entry that `COMMAND_ENTRY_FETCH` read (R308): the command is served with it. -/
  req : Option Req := none
  /-- Its ring has been stopped since: the completion is not written (R306, R316). -/
  mute : Bool := false
deriving DecidableEq, Repr, Inhabited

/-- What a command schedules for a cycle boundary (R326, R335). -/
inductive BKind where
  | holdAck | quietEnter | quietExit | streamOpen | streamClose | commit | prismEnter | prismExit | reseed (ll : Nat)
  | realign (mm : Nat) | qualify (g n : Nat) | handover (g : Nat) | progAbort | progLoad | adopt (g : Nat) (uid : Nat)
deriving DecidableEq, Repr, Inhabited

/-- A scheduled change: what, for which command (none: a keeper command, answered when it was accepted), and the cycle
number at which it was accepted (R439, R345 count cycles). -/
structure BAct where
  kind : BKind := .holdAck
  q : Option Req := none
  since : Nat := 0
deriving DecidableEq, Repr, Inhabited

/-- Supervisor (R315, R441): state, running and preferred bank, version, the checked mark of the other bank, a switch in
progress with the instant by which it must serve, and the instant since which it has no work (R470). -/
structure SupBlk where
  sup : SupState := .booting
  bank : Bool := false
  prefer : Bool := false
  ver : Half := 0
  otherChecked : Bool := false
  switchDue : Option Nat := none
  switchReq : Option Req := none
  /-- The switch failed and the old bank runs again: `SUP_FW_SWITCH` completes with `BAD_IMAGE` (R441). -/
  switchFailed : Bool := false
  taken : List Taken := []
  acts : List BAct := []
  /-- Commands whose effect was committed while the supervisor did not serve (R315). -/
  committed : List Req := []
  /-- `HOLD` commands that wait for the commit point (R344), `GROUP_ACK` for its master test, RING and FUSE waits. -/
  waitHold : List Req := []
  waitAck : List (Nat × Req) := []
  waitDisc : List (Nat × Req) := []
  waitAct : List (Nat × Req) := []
deriving DecidableEq, Repr, Inhabited

/-- Password record (R421); `crcOk` false: the record fails its `CRC` or was never written. -/
structure PwRec where
  salt : List Byte := []
  iter : Nat := 0
  dk : List Byte := []
  setSeq : Nat := 0
  crcOk : Bool := false
deriving DecidableEq, Repr, Inhabited

/-- A staged parameter change (R353). -/
structure ParamCh where
  graph : Nat := 0
  cell : Nat := 0
  value : Word := 0
deriving DecidableEq, Repr, Inhabited

/-- Presence (R416 to R419) and the configuration session (R330, R420, R422) with what it has staged. -/
structure SessBlk where
  pressed : Bool := false
  cfgPin : Bool := false
  sealed : Bool := true
  /-- The button has been read released since the last opening or restart (R417). -/
  released : Bool := true
  winOpen : Bool := false
  winEnd : Nat := 0
  fails : Nat := 0
  owner : Option Requester := none
  level : Level := .none
  id : Nat := 0
  /-- Staged items were lost with a supervisor restart (R422). -/
  lost : Bool := false
  cfg : Option (Mem 8) := none
  cfgChecked : Bool := false
  cal : Option (Mem 8) := none
  params : List ParamCh := []
  /-- Writes to owned timer registers: offset in `TMR` and value (R358). -/
  tmr : List (Nat × Word) := []
  /-- The staged image that passed `IMG_CHECK`, and the graphs it holds (R342). -/
  imgChecked : Option Image := none
  /-- A commit has written its copies and waits for its boundary (R440). -/
  commitWait : Bool := false
  /-- That commit has written a configuration copy, not a calibration copy alone. -/
  commitCfg : Bool := false
deriving DecidableEq, Repr, Inhabited

/-- The change log (R423 to R425): entries present, count n, H_n, anchor a and H_{a−1}. -/
structure LogBlk where
  entries : List LogEntry := []
  n : Nat := 0
  head : List Byte := []
  anchorHash : List Byte := []
  /-- Adoptions: entry number, node, old and new UID (R252; notes/assumptions/102.md). -/
  adopted : List (Nat × Nat × Nat × Nat) := []
deriving DecidableEq, Repr, Inhabited

/-! ### Host port (12) -/

/-- A mailbox ring (R306, R307, R314): its descriptor registers, head and tail, error code, commands in flight, whether the
next event carries `LOSTBEFORE`, and the entries since the last interrupt with the instant of the first. -/
structure MRing where
  base : Word64 := 0
  en : Bool := false
  log2 : BitVec 4 := 0
  cpl : BitVec 7 := 0
  vec : BitVec 6 := 0
  coalCnt : Byte := 0
  coalT : BitVec 6 := 0
  head : Half := 0
  tail : Half := 0
  err : BitVec 3 := 0
  inflight : Byte := 0
  lostBefore : Bool := false
  sinceIrq : Nat := 0
  firstAt : Nat := 0
deriving DecidableEq, Repr, Inhabited

/-- A data stream (R319 to R322). -/
structure Stream where
  open_ : Bool := false
  pull : Bool := false
  full : Bool := false
  err : Bool := false
  decim : Nat := 1
  phase : Nat := 0
  sevtRing : Nat := 0xFF
  sflags : Nat := 0
  buf : Nat := 0
  nrec : Nat := 1
  ranges : List (Nat × Nat) := []
  sprod : Word := 0
  scons : Word := 0
  slost : Word := 0
  /-- Records were lost before the next one written (R321). -/
  lostBefore : Bool := false
  /-- A push record on its way to host memory (R320). -/
  inFlight : Option (List Byte) := none
  /-- A pull read runs (R322); values accepted for the next t0. -/
  reading : Bool := false
  pulled : Option (List Word) := none
  /-- Stopped by a DMA error: a pull stream's cells take 0 from the next t0. -/
  zeroed : Bool := false
deriving DecidableEq, Repr, Inhabited

/-- One MSI-X table entry (R301). -/
structure Msix where
  addrLo : Word := 0
  addrHi : Word := 0
  data : Word := 0
  masked : Bool := true
deriving DecidableEq, Repr, Inhabited

/-- The host port (R300 to R323). -/
structure HpBlk where
  /-- Port selected: 0 PCI Express, 1 Quad-SPI; disabled when G3 is INVALID (R300). -/
  qspi : Bool := false
  disabled : Bool := false
  rev : Byte := 0
  /-- `PERST#` is asserted. -/
  perst : Bool := true
  d3hot : Bool := false
  busMaster : Bool := false
  ien : Bool := false
  evtRing : BitVec 7 := 64
  evt : Word := 0
  ipend : Word64 := 0
  imask : Word64 := 0xFFFFFFFFFFFFFFFF#64
  msix : Vector Msix 64 := Vector.replicate 64 {}
  pba : Word64 := 0
  /-- MSI-X function mask. -/
  fmask : Bool := false
  /-- Messages or pending bits raised, with the last vector: what went out on the bus. -/
  irqs : Nat := 0
  lastVec : Option Nat := none
  pbe : Half := 0
  dma : Half := 0
  /-- DMA errors reported through advanced error reporting of the endpoint (R302). -/
  aer : Half := 0
  /-- Output buffers of completed commands that wait for DMA to run again: address, bytes. -/
  outWait : List (Nat × List Byte) := []
  wdog : Half := 0
  wdogAt : Nat := 0
  wdogExpired : Bool := false
  evtLost : Word := 0
  stage : Vector Word 256 := Vector.replicate 256 0
  commit : Vector Word 256 := Vector.replicate 256 0
  /-- The tick of the last `COMMIT`, and the commit buffer as it was before the first one of that tick (R318). -/
  commitAt : Option Nat := none
  /-- The commit buffer before the first `COMMIT` of that tick, which a freeze at the same tick takes (R318). -/
  commitOld : Vector Word 256 := Vector.replicate 256 0
  hrqTaken : Half := 0
  hrqPending : Bool := false
  hrqShadowed : Byte := 0
  rings : Vector MRing 128 := Vector.replicate 128 {}
  /-- The command ring from which the supervisor's round goes on (R310). -/
  roundAt : Nat := 0
  streams : Vector Stream 32 := Vector.replicate 32 {}
  cpls : List Cpl := []
  events : List HEvent := []
  /-- Host memory written by the module, or the 64 KiB ring window in Quad-SPI mode. -/
  mem : Mem 8 := []
deriving DecidableEq, Repr, Inhabited

/-! ### Keeper (14) -/

/-- A sideband response (R365): address, tag, command, payload. -/
structure SbResp where
  addr : Byte := 0
  tag : Half := 0
  cmd : Nat := 0
  payload : List Byte := []
deriving DecidableEq, Repr, Inhabited

/-- The keeper (R363 to R378): line, last request and response, journal with its header, and the keeper state area. -/
structure KeepBlk where
  baud : Nat := 0
  oldBaud : Nat := 0
  /-- Instant of a rate change that no valid frame has confirmed yet (R364). -/
  baudAt : Option Nat := none
  discarded : Half := 0
  lastReq : Option (Half × Nat × Half) := none
  resp : Option SbResp := none
  sent : Nat := 0
  /-- A supervisor command over the sideband is being answered (R368): its response waits. -/
  waiting : Option (Half × Nat) := none
  journal : List KRec := []
  seq : Nat := 0
  lost : Half := 0
  mark : Nat := 0
  shadowHash : List Byte := []
  hashSet : Bool := false
  /-- Differing shadow seen at the last starts, and at how many in a row (R408). -/
  hashNew : List Byte := []
  hashRepeat : Nat := 0
  /-- Junction temperature at sensing (R408). -/
  senseTj : Byte := 0
  utc : Int := 0
  utcSet : Bool := false
  targetUcode : Byte := 0
  sessionCounter : Nat := 0
  retLanes : Vector Bool 5 := Vector.replicate 5 false
  retUnits : Vector Bool 18 := Vector.replicate 18 false
  fwVer : Half := 0
  fwSwitchDue : Option Nat := none
  fwSwitchReq : Option Req := none
  fwNewVer : Half := 0
  /-- Bytes written by recovery loading into each bank (R374, R376). -/
  recovered : Vector Nat 2 := Vector.replicate 2 0
deriving DecidableEq, Repr, Inhabited

/-! ### Event recorder (15) -/

/-- The event recorder (R379 to R396). -/
structure EvrBlk where
  queue : List EvEntry := []
  coS : List EvCo := []
  coO : List EvCo := []
  recS : List EvRec := []
  recK : List EvRec := []
  recC : List EvRec := []
  seqS : Nat := 0
  seqO : Nat := 0
  sumS : Option EvSum := none
  sumO : Option EvSum := none
  cursors : Vector (Option Cursor) 8 := Vector.replicate 8 none
  konly : Bool := false
  ready : Bool := false
  /-- Page remap table: failed logical page and the spare page in its place (R392). -/
  remap : List (Nat × Nat) := []
  evt : Word := 0
  qovf : Word := 0
  lost : Word := 0
  koCnt : Word := 0
  drops : Vector Word 8 := Vector.replicate 8 0
  /-- The shut-down marker stands in the directory (R394). -/
  marker : Bool := false
  /-- `SHUTTING_DOWN`: entries are no longer held (R394). -/
  flushing : Bool := false
  /-- Stopped by a VCORE fault (R490). -/
  stopped : Bool := false
deriving DecidableEq, Repr, Inhabited

/-! ### Lanes (03) -/

/-- A physical lane (R53, R71, R75, R78). -/
structure Lane where
  role : LaneRole := .off
  hosts : Option Nat := none
  suspect : Bool := false
  bistRes : Nat := 0
  ucodeVer : Byte := 0
  /-- TBASE of the fault-driven hand-overs from this lane (720 h window). -/
  faults : List Nat := []
  /-- Cycle numbers of the reruns of this lane (10,000-cycle window). -/
  reruns : List Nat := []
  lastBist : Option Nat := none
  /-- Comparator fault since the last commit point (R69). -/
  cmpFault : Bool := false
  /-- Latest instant at which a BIST or microcode load ends. -/
  testEnd : Nat := 0
  /-- Microcode version received in `UCODE_LOAD` that has not passed the BIST yet (R80), and whether it is the version the lane had,
  loaded again after a failure (R443). -/
  newUcode : Option Byte := none
  reload : Bool := false
  /-- Delay register file, as the last block run on the lane left it (R62). -/
  delay : List DelayE := []
deriving DecidableEq, Repr, Inhabited

/-- Where a logical lane's run stands in the cycle (R35, R36, R39). -/
inductive RunSt where
  | idle | first | rerun | agreed | failed (reason : Nat) | slipped
deriving DecidableEq, Repr, Inhabited

/-- A logical lane LL0–LL3, or LLO as number 4 (R54, R55). -/
structure LLane where
  /-- Lane that hosts it. -/
  lane : Option Nat := none
  region : Nat := 0
  gid : Nat := 0
  swz : Nat := 0
  graph : Graph := {}
  st : RunSt := .idle
  run : Run := {}
  stateFault : Bool := false
  ownViol : Bool := false
  heldLast : Bool := false
  /-- The last mismatch of this cycle, first run and rerun, and the mismatch that caused the last hand-over with the cycle
  number of the first cycle on the new lane (R72). -/
  mis1 : Option Mis := none
  mis2 : Option Mis := none
  hoMis : Option (Mis × Nat) := none
  /-- Hand-over requested at this cycle's commit point (R74). -/
  hoReq : Bool := false
  runMax : BitVec 20 := 0
deriving DecidableEq, Repr, Inhabited

/-- Qualification (R341, R435 to R438): state, graph, counts, end reason. -/
structure QualBlk where
  state : Nat := 0
  graph : Nat := 0
  requested : Nat := 0
  counted : Nat := 0
  noAgree : Nat := 0
  firstDiff : Nat := 0xFFFF
  endReason : Nat := 0
  /-- Cells of kind 1 seen to differ. -/
  seen : List Nat := []
  since : Nat := 0
  /-- In the last cycle both lanes had agreed results and no unpredicted difference arose (R439). -/
  lastOk : Bool := false
  /-- The image whose graph is on observer duty. -/
  img : Option Image := none
deriving DecidableEq, Repr, Inhabited

/-- The lane controller (R53 to R85). -/
structure LaneBlk where
  lanes : Vector Lane 5 := Vector.replicate 5 {}
  lls : Vector LLane 5 := Vector.ofFn fun i => { region := i.val, gid := i.val }
  regions : Vector Region 5 := Vector.replicate 5 {}
  /-- Free region: the one LLO or Prism mode uses. -/
  free : Nat := 4
  evt : Word := 0
  misPl : Nat := 0
  misLl : Nat := 0
  misRerun : Bool := false
  misField : Nat := 0
  misBlock : Nat := 0
  misNode : Nat := 0
  /-- `LANE_MIS_LOC` as latched by the last read of `LANE_MIS`. -/
  misLocLatched : Word := 0
  sentOk : BitVec 5 := 0
  rotPeriodH : Byte := 0
  rotDue : Bool := false
  rotSince : Nat := 0
  /-- A microcode roll in progress, its version, and whether the next relieved lane loads (R80). -/
  roll : Option Byte := none
  /-- A hand-over, rotation or placement was decided in the last P4 (R22, R83). -/
  moved : Bool := false
  qual : QualBlk := {}
  /-- Old owner's cells without an owner after a live hand-over: they take their defaults at the next commit (R439). -/
  orphan : List OwnE := []
  /-- Host status cells of the Prism graphs that ended: they take their defaults at the next boundary (R85). -/
  prismOut : List OwnE := []
deriving DecidableEq, Repr, Inhabited

/-! ### Cycle controller (02) -/

/-- The output guard (R43 to R45, R540). -/
structure GuardBlk where
  lastCnt : Half := 0
  /-- Period code of the cycle of the last accepted message, and the one it announced. -/
  lastPeriod : Nat := 0
  next : Nat := 0
  /-- In resynchronisation (R540). -/
  resync : Bool := true
  /-- The reference was accepted in resynchronisation and the first interval after it is T'. -/
  fresh : Bool := false
  /-- Consecutive accepted messages (R44, R45). -/
  run : Nat := 0
  lastAt : Nat := 0
deriving DecidableEq, Repr, Inhabited

/-- The cycle controller (R27 to R46): registers, phase instants, frozen input image and committed output cells. -/
structure CycBlk where
  tcyc : Nat := 0
  qtcyc : Nat := 0
  ha : BitVec 4 := 0
  rlock : BitVec 2 := 0
  period : Nat := 0
  llSafe : BitVec 4 := 0
  llHeld : BitVec 4 := 0
  guardOk : Bool := false
  evt : Word := 0
  rerunCnt : Byte := 0
  failCnt : Byte := 0
  slipCnt : Byte := 0
  guardCnt : Byte := 0
  num : Nat := 0
  numHiLatched : Word := 0
  nextT0 : Nat := 0
  lastT0 : Nat := 0
  /-- Cycles run: the first t0 has been set (R475 step 8). -/
  running : Bool := false
  /-- The cycle in progress has passed its freeze and not its commit point. -/
  open_ : Bool := false
  slipped : Bool := false
  input : Mem 32 := []
  committed : Mem 32 := []
  /-- Output points with the number of consecutive cycles in which they were committed with bit 0 = 0: for how many cycles
  each point that is not listed has been 0, and per cell the cycle number of the last commit of a 1. -/
  lastOne : List (Nat × Nat) := []
  guard : GuardBlk := {}
  /-- Committed output cells before the last commit point (R226). -/
  prev : Mem 32 := []
  /-- Instant of the last commit point. -/
  commitAt : Nat := 0
  /-- `RUN` period code of a configuration that takes effect at the next boundary (R15, R28). -/
  tcycNext : Option Nat := none
  /-- Its Quiet period. -/
  qtcycNext : Option Nat := none
  /-- Period code that the last guard message announced (R42). -/
  sentNext : Nat := 0
  /-- The commit point has passed and the end of P3 has not. -/
  p3Due : Bool := false
deriving DecidableEq, Repr, Inhabited

/-- Time base and clocks (R282 to R285, R297, R465 to R470). -/
structure TimeBlk where
  tbase : Nat := 0
  tbaseHiLatched : Word := 0
  tclkRun : Bool := false
  fllLock : Bool := false
  /-- SCLK edges since power-on, and the phase: TCLK ticks from the last SCLK edge. -/
  sclk : Nat := 0
  phase : Nat := 0
  /-- TBASE, phase and SCLK count captured when TCLK stopped (R297). -/
  capTbase : Nat := 0
  capPhase : Nat := 0
  capSclk : Nat := 0
  lastSclk : BitVec 20 := 0
  lastPhase : Nat := 0
  /-- At the last t0, TBASE and 32 times the SCLK count with its phase (R284). -/
  chkTbase : Nat := 0
  chkTicks : Nat := 0
  chkValid : Bool := false
  /-- SCLK count at which the FLL was started in `QUIET` (R468). -/
  fllAt : Option Nat := none
  /-- The FLL has lost lock since the last t0: the next cycle slips (R284). -/
  slipNext : Bool := false
deriving DecidableEq, Repr, Inhabited

/-! ### Non-volatile memory by region (18, R453) -/

/-- A copy of a configuration or calibration: file bytes, commit number, password record. -/
structure NvCopy where
  file : Mem 8 := []
  commit : Nat := 0
  pw : PwRec := {}
deriving DecidableEq, Repr, Inhabited

/-- What identifies the configuration in force (R427, R430): check word, version, image it serves, forerunner timing mode. -/
structure CfgInfo where
  loaded : Bool := false
  chk : Word := 0
  ver : Word := 0
  imageId : Word := 0
  fore : Bool := false
deriving DecidableEq, Repr, Inhabited

/-- Regions of the MRAM that hold files (R453). -/
structure NvBlk where
  inForce : CfgInfo := {}
  /-- Parameter overrides of the calibration record in force (R434). -/
  overs : List ParamCh := []
  img : Vector (Mem 8) 2 := Vector.replicate 2 []
  actImg : Nat := 0
  cfg : Vector NvCopy 2 := Vector.replicate 2 {}
  cal : Vector NvCopy 2 := Vector.replicate 2 {}
  sup : Vector (Mem 8) 2 := Vector.replicate 2 []
  ucode : Mem 8 := []
  kfw : Mem 8 := []
  nodeFw : Mem 8 := []
  /-- A chunk write was replayed at the last start (R454). -/
  replayed : Bool := false
deriving DecidableEq, Repr, Inhabited

end Sys2Proof.Machine
end

