-- ==== Sys2Proof/Machine/BlocksIo.lean ====
section
/-! DEFINITION. The blocks of the state at the field and the supply side: local outputs, power. Each field's value here is
its value at reset; a value the spec does not give is named in notes/assumptions/3.md. -/

namespace Sys2Proof.Machine

/-! ### Local outputs (08) -/

/-- One output SO0–SO15 (n = 0–15) or BO0–BO3 (n = 16–19): its configuration, switches, readback, codes and tests. -/
structure Out where
  used : Bool := false
  dtEn : Bool := false
  dtW : BitVec 10 := 0
  dtPer : BitVec 13 := 0
  ltEn : Bool := false
  paired : Bool := false
  eco : Bool := false
  cmd : Bool := false
  ch : Bool := false
  rb : BitVec 2 := 0
  rbl : BitVec 2 := 0
  iMeas : BitVec 12 := 0
  ecoAct : Bool := false
  /-- Part of the time for which the high-side switch is driven while on, as a fraction: all of it, or the duty of economy hold (R200). -/
  duty : Nat × Nat := (1, 1)
  /-- Tick of the last commit of 1 after a 0 (R200). -/
  onAt : Nat := 0
  /-- Latched codes 0x3, 0x4, 0x7, 0x8, 0x9 (R216). -/
  latched : List Nat := []
  openLoad : Bool := false
  lightBad : Bool := false
  srcOut : Nat := 0x1F
  dtFailCnt : Byte := 0
  ltFailCnt : Byte := 0
  last : Nat := 0
  /-- 8 ms frames from which the next dark and the next light test are due (R202, R203). -/
  nextTest : Nat := 0
  nextLight : Nat := 0
  /-- The next dark test of a brake output is the low-side one (R202). -/
  lowSide : Bool := false
  /-- The last dark or light test failed and its retest is pending (R201). -/
  retestDark : Bool := false
  retestLight : Bool := false
  /-- Tick since which the terminal reads LOW, or the coil current is below 50 mA, while committed 0 (R217). -/
  lowSince : Option Nat := none
  /-- Off since this tick: blanking time (R206). -/
  offAt : Nat := 0
  /-- Consecutive off phases of economy PWM in which BOn+ did not read LOW (R202). -/
  offPhase : Nat := 0
  /-- The last readback check failed (R213). -/
  rbBad : Bool := false
  /-- Its short has been classified since the last acknowledgement (R207). -/
  classified : Bool := false
deriving DecidableEq, Repr, Inhabited

/-- A test of the outputs (R201, R207, R480): the master of a starting group, or of an acknowledged one, a group master, a dark test, a light
test, the identification dark pulse of output `n` for the short of output `k`. -/
inductive TestSel where
  | start (g : Nat)
  | ack (g : Nat)
  | master (g : Nat)
  | dark (n : Nat)
  | light (n : Nat)
  | ident (k n : Nat)
deriving DecidableEq, Repr, Inhabited

/-- A test in progress: which, its frame, the end of its pulse, what its readback shows, and whether it is a low-side test (R202). -/
structure TestRun where
  sel : TestSel
  frame : Nat := 0
  until_ : Nat := 0
  pass : Bool := true
  low : Bool := false
deriving DecidableEq, Repr, Inhabited

/-- The classification of an output's short (R207): the output, the outputs of its group committed 1 at detection, the instant of the next
readback, whether kill has been asserted for it (R275), the outputs of the other group pulsed so far. -/
structure ShortId where
  out : Nat
  on : List Nat := []
  due : Nat := 0
  killed : Bool := false
  pulsed : List Nat := []
deriving DecidableEq, Repr, Inhabited

/-- One field group (R195, R197, R204, R214). -/
structure Grp where
  master : Bool := false
  /-- First cause of R197 in force; 0 none. -/
  first : Nat := 0
  /-- Latched causes 1 to 5 of R197, the first one first. -/
  latches : List Nat := []
  band : Nat := 0
  /-- Above 19.2 V for 100 ms since the last cut (R217). -/
  clear : Bool := true
  /-- Codes of the group itself: 0x8 group overcurrent, 0x9 master test, 0x4 while a short is being identified. -/
  codes : List Nat := []
  srcOut : Nat := 0x1F
  mtPerH : Byte := 0
  mtLast : Nat := 0
  mtRetest : Bool := false
  /-- The test of R480: passed at this start; failed once. -/
  startOk : Bool := false
  startFailed : Bool := false
  /-- The master drive toggles: the guard lets the master be closed (R196). -/
  drive : Bool := false
  iGrp : BitVec 12 := 0
  vGrp : BitVec 12 := 0
deriving DecidableEq, Repr, Inhabited

/-- One test output (R183, R210, R218). -/
structure TOut where
  width : BitVec 10 := 0
  per : BitVec 5 := 0
  res : BitVec 5 := 0
  slot : BitVec 4 := 0
  nslot : BitVec 2 := 0
  dark : Bool := false
  ovl : Bool := false
  /-- Tick of the last overload; quality returns 1 s after it (R210). -/
  ovlAt : Nat := 0
  ovlBad : Bool := false
  rbFail : Bool := false
  /-- Instant at which the dark pulse in progress started. -/
  darkAt : Nat := 0
  /-- Consecutive pulses not seen at the terminal, and passing pulses since (R218). -/
  miss : Nat := 0
  short : Bool := false
  passes : Nat := 0
  /-- Start of the first 8 ms frame of the schedule in force (R432), as TBASE. -/
  since : Nat := 0
  /-- Pulses still to come that are not counted as missing after a change (R432). -/
  grace : Nat := 0
  iMeas : BitVec 12 := 0
deriving DecidableEq, Repr, Inhabited

/-- The output block. -/
structure OutBlk where
  evt : Word := 0
  grps : Vector Grp 2 := Vector.replicate 2 {}
  outs : Vector Out 20 := Vector.replicate 20 {}
  tos : Vector TOut 16 := Vector.replicate 16 {}
  /-- Shorts being classified (R207). -/
  ident : List ShortId := []
  /-- The test in progress (R201, R205), and the frame whose window was served last. -/
  test : Option TestRun := none
  lastFrame : Option Nat := none
deriving DecidableEq, Repr, Inhabited

/-! ### Power and clocks (19) -/

/-- Supplies and clocks as last measured (R457 to R473). -/
structure PwrBlk where
  evt : Word := 0
  vlogOk : Bool := false
  onHu : Bool := false
  huReady : Bool := false
  huLow : Bool := false
  huWeak : Bool := false
  inhibit : Bool := false
  xoOk : Bool := false
  lclkLock : Bool := false
  supLock : Bool := false
  phyLock : Bool := false
  goscOk : Bool := false
  asleep : Bool := false
  /-- VLOG, VHU in units of 10 mV, 3V3 in mV; VLOG's lowest since start. -/
  vlog : BitVec 12 := 0
  vlogMin : BitVec 12 := 0xFFF
  vhu : BitVec 12 := 0
  v3v3 : BitVec 12 := 0
  vcore : BitVec 10 := 0
  tj : Byte := 0
  tjMax : Byte := 0x80
  capUf : BitVec 12 := 0
  capAt : Option Nat := none
  dips : Byte := 0
  xo : Byte := 0
  lclk : Byte := 0
  late : Byte := 0
  fllTk : Byte := 0
  pllTk : Byte := 0
  sleeps : Half := 0
  supPllOff : Bool := false
  /-- VLOG stands reported below 16.8 V, or above 33.0 V (R458). -/
  vlogLowIn : Bool := false
  vlogHighIn : Bool := false
  /-- 3V3 has fallen below 2.90 V: the keeper is reset (R462). -/
  keeperDown : Bool := false
deriving DecidableEq, Repr, Inhabited

/-! ### Timer array (11) -/

/-- A timer channel (R286 to R299): `TMR_CFG` as its register, the 48-bit values, the halves latched by reads (R11) and staged
by writes (R291), the flags of `TMR_ST`, what the next freeze takes (R299), and what the next host event counts (R313). -/
structure Chan where
  cfg : Word := 0
  cnt : Word48 := 0
  cmp : Word48 := 0
  pre : Word48 := 0
  act : Word48 := 0
  cap : Word48 := 0
  lat : Word48 := 0
  cntHi : Half := 0
  actHi : Half := 0
  capHi : Half := 0
  cmpHi : Option Half := none
  preHi : Option Half := none
  miss : Word := 0
  mcnt : Byte := 0
  match_ : Bool := false
  capt : Bool := false
  ovr : Bool := false
  late : Bool := false
  carry : Bool := false
  arm : Bool := false
  out : Bool := false
  /-- `OUT` as gated slaves see it: as it stands, or as it stood when the channel was disabled (R294). -/
  gate : Bool := false
  /-- Fire-all catch-up of a wake goes on: its matches are late (R298). -/
  catching : Bool := false
  accMatch : Bool := false
  accCapt : Bool := false
  accLate : Bool := false
  hevKind : Nat := 0
  hevCount : Nat := 0
  hevCnt : Word := 0
deriving DecidableEq, Repr, Inhabited

/-- What software does to a channel on an edge (R286 to R292); `takeCap` is a read of `CAP_LO`. -/
inductive ChOp where
  | arm | disarm | clear | intNow | takeCap
  | cmp (v : Word48) | pre (v : Word48) | cfg (v : Word) | st (v : Word) | miss (v : Word) | link (v : Word)
deriving DecidableEq, Repr, Inhabited

/-- The timer array: `TMR_CTRL.LINKLATCH`, `TMR_EVT`, the channels, and the writes that wait for the next TCLK edge while TCLK is stopped
(R288). -/
structure TmrBlk where
  link : Word := 0
  evt : Word := 0
  wait : List (Nat × ChOp) := []
  chans : Vector Chan 32 := Vector.replicate 32 {}
deriving DecidableEq, Repr, Inhabited

/-! ### Fuses (16) -/

/-- One of the two physical cells of every logical bit, as the three references read it (R397, R406): margin-high, normal,
margin-low. -/
structure FuseCells where
  mh : BitVec 8192 := 0
  n : BitVec 8192 := 0
  ml : BitVec 8192 := 0
deriving DecidableEq, Repr, Inhabited

/-- A group as sensed (R406): state 0 blank to 4 SEALED_INVALID, lock, accepted read, marginal bits, check words, and whether
it was programmed or locked since the start (R415). -/
structure FGrp where
  st : Nat := 0
  locked : Bool := false
  pend : Bool := false
  attempt : Nat := 7
  marg : Half := 0
  stored : Half := 0
  computed : Half := 0
deriving DecidableEq, Repr, Inhabited

/-- Logical bits that read 1 on a delivered module (R2), with identity, vendor key, trims and production record all 0
(notes/assumptions/4.md): check words and locks of G0, G1 and G2, and the step fields S1 and S2. -/
def deliveredFuses : BitVec 8192 :=
  BitVec.ofNat 8192 (37733 * 2 ^ 495 + 2 ^ 511 + (40657 * 2 ^ 1519 + 2 ^ 1535) * 2 ^ 512 +
    ((2 ^ 32 - 1) * 2 ^ 128 + 52315 * 2 ^ 239 + 2 ^ 255) * 2 ^ 2048)

/-- The fuse block: physical cells, the accepted shadow and the groups as last sensed, and the contents in force since the
start with the states and locks that go with them. -/
structure FuseBlk where
  a : FuseCells := { mh := deliveredFuses, n := deliveredFuses, ml := deliveredFuses }
  b : FuseCells := { mh := deliveredFuses, n := deliveredFuses, ml := deliveredFuses }
  shadow : BitVec 8192 := 0
  grps : Vector FGrp 8 := Vector.replicate 8 {}
  live : BitVec 8192 := 0
  liveSt : Vector Nat 8 := Vector.replicate 8 0
  liveLock : Vector Bool 8 := Vector.replicate 8 false
  sensed : Bool := false
  shadowMis : Bool := false
  rsvSet : Bool := false
  lc : Nat := 0
  lcDefault : Bool := false
  evt : Word := 0
deriving DecidableEq, Repr, Inhabited

/-! ### Memory pools and MRAM (18) -/

/-- A pool bank (R448 to R452): rows spared in the order of their spare rows, next row to test, consecutive missed periods,
whether a pass has completed in this period, and the rows with corrected errors by scrub pass (24 h window). -/
structure MBank where
  rows : List Nat := []
  degraded : Bool := false
  testRow : BitVec 10 := 0
  missed : Byte := 0
  passed : Bool := false
  corr : List (Nat × Nat) := []
deriving DecidableEq, Repr, Inhabited

/-- Memory protection: `MEM` registers, the pool banks, the MRAM scrub. -/
structure MemBlk where
  evt : Word := 0
  pCorr : BitVec 20 := 0
  pUncorr : BitVec 12 := 0
  mCorr : Half := 0
  mUncorr : Byte := 0
  inhibited : Byte := 0
  lastInst : Nat := 0
  lastKind : Nat := 0
  lastPos : Nat := 0
  lastAddr : Word := 0
  /-- `MEM_LAST_ADDR` as latched by the last read of `MEM_LAST`. -/
  lastAddrLatched : Word := 0
  scrubPos : BitVec 23 := 0
  scrubMissed : Byte := 0
  scrubPassed : Bool := false
  banks : Vector MBank 36 := Vector.replicate 36 {}
deriving DecidableEq, Repr, Inhabited

/-! ### Local inputs (07) -/

/-- Bands of a safety input (R172), in the coding of `INP_STn.RAW`. -/
inductive Band where
  | off | on | wireBreak | indet
deriving DecidableEq, Repr, Inhabited

/-- A run of a band at an input's filter that has not been accepted yet (R174): the band, the instant from which its time counts, the stamp
that an edge of it takes (R177). -/
structure FRun where
  band : Band := .off
  start : Nat := 0
  stamp : Nat := 0
deriving DecidableEq, Repr, Inhabited

/-- A safety input (R171 to R193). -/
structure Inp where
  filt : Byte := 0
  src : BitVec 5 := 0
  used : Bool := false
  raw : Band := .off
  /-- Filtered band; none after a start and after its group leaves cut (R176). -/
  fband : Option Band := none
  /-- The run that the filter times, none while it is presented its own band; the instant from which the band presented to it has not
  changed. -/
  run : Option FRun := none
  bandAt : Nat := 0
  /-- Instant up to which its samples are known; level of the `ON` comparator and the stamp of its last transition (R173, R177). -/
  sampled : Nat := 0
  comp : Bool := false
  compAt : Nat := 0
  iMeas : BitVec 12 := 0
  /-- Edge stamp register (R178). -/
  stamp : Nat := 0
  e : Bool := false
  ovr : Bool := false
  foreignTo : BitVec 5 := 0x1F
  missCnt : Byte := 0
  ovrCnt : Byte := 0
  dev : BitVec 12 := 0
  trimmed : Bool := false
  calOut : Bool := false
  /-- The channel failed its last self-check (R192). -/
  chBad : Bool := false
  /-- Trim correction for the next boundary (R190). -/
  trimPend : Option Int := none
  /-- Faults 0x3, 0x4 and 0x6 in force, and the instant at which the source regained quality. -/
  cross : Bool := false
  missing : Bool := false
  srcBad : Bool := false
  srcOkAt : Nat := 0
  /-- Test pulse window: instant of its start (R188). -/
  win : Option Nat := none
  /-- Raw band at the start of the last dark pulse (R186, R188). -/
  before : Band := .off
  /-- Own pulses seen and missed in a row; the test outputs whose last pulse was foreign here; own pulses seen since the last foreign one;
  own pulses not counted as missing after diagnostics resume (R186, R189). -/
  seenRow : Nat := 0
  missRow : Nat := 0
  foreign : Half := 0
  cleanRow : Nat := 0
  grace : Nat := 0
  /-- Trims in force: gain in ppm, current offset in µA, voltage offset in mV (R433), and the correction of R190. -/
  gain : Int := 0
  iOfs : Int := 0
  vOfs : Int := 0
  trim : Int := 0
deriving DecidableEq, Repr, Inhabited

/-- A counting input (R180 to R182). -/
structure Ci where
  lvl : Bool := false
  cnt : Word := 0
  rate : Bool := false
  indet : Bool := false
  /-- Last edge, in units of 0.5 ns, and the last instant, in ticks, of each condition. -/
  last : Option Nat := none
  rateAt : Nat := 0
  indetAt : Nat := 0
deriving DecidableEq, Repr, Inhabited

/-- The input block. -/
structure InpBlk where
  evt : Word := 0
  bad : Word := 0
  inps : Vector Inp 32 := Vector.replicate 32 {}
  cis : Vector Ci 8 := Vector.replicate 8 {}
  /-- Input that the reference converter checks next, and the instant of its last check (R190). -/
  calNext : Nat := 0
  calAt : Nat := 0
  /-- Cells of the safety and counting inputs as they stood at a t0 whose freeze is still to come (R33, R178). -/
  latched : Option (List (Nat × Word)) := none
deriving DecidableEq, Repr, Inhabited

/-! ### Motion monitors (06) -/

/-- A position source of a monitor (R144 to R150). Times are in units of 0.5 ns (125 per TCLK tick, 8 per LCLK period). -/
structure Src where
  kind : Nat := 0
  sel : Nat := 0
  num : Int := 1
  den : Nat := 1
  /-- Counts of every edge or remote sample so far, and those that the samples have taken. -/
  cnt : Int := 0
  taken : Int := 0
  /-- Position in PU with the division remainder, and the offset that a realignment set. -/
  pos : Int := 0
  rem : Int := 0
  ofs : Int := 0
  /-- Stamped edges or remote samples: time, count after it, and the step. -/
  edges : List (Nat × Int × Int) := []
  /-- Last edge or remote sample that a sample has taken (R148): tick and fine stamp of a counted edge, time and step. -/
  lastTick : Nat := 0
  lastFine : Nat := 0
  seen : Bool := false
  lastT : Nat := 0
  lastStep : Int := 0
  /-- Previous speed in counts per second as a fraction. -/
  vNum : Int := 0
  vDen : Nat := 1
  quadErr : Bool := false
  jump : Bool := false
  /-- Remote source: the last 24-bit value and its sample instant. -/
  last : Option (Nat × Nat) := none
  /-- Stamps taken at 2 µs resolution (R169) that a sample may still use. -/
  coarse : List Nat := []
  ok : Bool := false
deriving DecidableEq, Repr, Inhabited

/-- A drum layer map (R156, R433). -/
structure DrumMap where
  puTurn : Nat := 1
  ref : Int := 0
  lRef : Int := 0
  layers : List (Nat × Nat) := []
deriving DecidableEq, Repr, Inhabited

/-- A logical monitor (R143 to R161). -/
structure Mon where
  used : Bool := false
  a : Src := {}
  b : Src := {}
  /-- `WV` in steps of 0.25 ms, `WA`, `TST` and `TDIV` in ms. -/
  wv : Nat := 16
  wa : Nat := 8
  tst : Nat := 100
  vst : Nat := 0
  dpos : Nat := 0
  dv : Nat := 0
  dvrel : Nat := 0
  tdiv : Nat := 20
  jmax : Nat := 1
  map : Option DrumMap := none
  paramBad : Bool := false
  unit : Option Nat := none
  /-- Hand-over requested in this sample (R160); the unit's mismatch spoils this sample. -/
  handReq : Bool := false
  refillPend : Bool := false
  refillUntil : Nat := 0
  posSince : Option Nat := none
  velSince : Option Nat := none
  latchPos : Bool := false
  latchVel : Bool := false
  standSince : Option Nat := none
  stand : Bool := false
  slowSince : Option Nat := none
  slow : Bool := false
  /-- Speeds of the last samples, newest first (R152). -/
  hist : List Int := []
  lowrate : Bool := false
  coarse : Bool := false
  cause : Nat := 1
  code : Nat := 0
  outside : Bool := false
  /-- Result words 0x00 to 0x18 of the last sample (R158). -/
  res : List Word := []
  /-- Shadow: unit, samples equal in a row, samples so far (R162). -/
  shadow : Option Nat := none
  shadowEq : Nat := 0
  shadowN : Nat := 0
deriving DecidableEq, Repr, Inhabited

/-- A physical monitor unit (R143, R163). -/
structure MUnit where
  role : UnitRole := .off
  hosts : Option Nat := none
  bistRes : Nat := 0
  faults : List Nat := []
  lastBist : Option Nat := none
  testEnd : Nat := 0
deriving DecidableEq, Repr, Inhabited

/-- The monitor block. -/
structure MmBlk where
  evt : Word := 0
  periodH : Byte := 0
  due : Bool := false
  rotSince : Nat := 0
  mons : Vector Mon 16 := Vector.replicate 16 {}
  units : Vector MUnit 18 := Vector.replicate 18 {}
  /-- The monitor that a shadow unit computes, by its logical number, as the shadow has it (R162). -/
  shadowMon : Option (Nat × Mon) := none
deriving DecidableEq, Repr, Inhabited

end Sys2Proof.Machine
end

