-- ==== Sys2Proof/Machine/State.lean ====
section
/-! DEFINITION. The state of the block, its stops, and the state after reset. -/

namespace Sys2Proof.Machine

/-- Every register, buffer, counter, mode and pin the spec gives the block, and the queue of the commands that wait. -/
structure State where
  /-- The model's own queue of waiting commands, first in, first out. -/
  pending : List Instr := []
  /-- The model's own counter that free values are drawn with. -/
  free : Nat := 0
  /-- Data of the last register read: words from the lowest offset. -/
  rdata : List Word := []
  md : ModBlk := {}
  time : TimeBlk := {}
  cyc : CycBlk := {}
  lane : LaneBlk := {}
  sup : SupBlk := {}
  sess : SessBlk := {}
  log : LogBlk := {}
  hp : HpBlk := {}
  keep : KeepBlk := {}
  evr : EvrBlk := {}
  nv : NvBlk := {}
  inp : InpBlk := {}
  mm : MmBlk := {}
  out : OutBlk := {}
  pwr : PwrBlk := {}
  xl : XlBlk := {}
  ring : RingBlk := {}
  tmr : TmrBlk := {}
  mem : MemBlk := {}
  fuse : FuseBlk := {}
  /-- The configuration, calibration and image in force. -/
  image : Option Image := none
deriving DecidableEq, Repr

/-- Reasons for which the block stops with a fault: the spec gives none, every fault of the hardware is a reaction within the
state (R495 to R498). -/
inductive Fault where
  /-- Raised by no meaning. Safe. -/
  | none
deriving DecidableEq, Repr

/-- Reasons for which a command is refused by the model. -/
inductive Refusal where
  /-- A command whose meaning is not written yet, by its mnemonic. Safe. -/
  | notModelled (mnemonic : String)
deriving DecidableEq, Repr

/-- The state right after reset: every field at the value its block gives. -/
def State.reset : State := {}

end Sys2Proof.Machine
end

