-- ==== Sys2Proof/Machine/Record.lean ====
section
/-! DEFINITION. What the block writes down: event records (15_event_recorder R379 to R394), the keeper journal (R376, R377),
the change log (R423 to R426) and the host events waiting to be posted (R313). -/

namespace Sys2Proof.Machine

/-- TBASE as it is now; while TCLK is stopped it is made up from the SCLK count (R285, R297). -/
def now (s : State) : Nat :=
  if s.time.tclkRun then s.time.tbase
  else (s.time.capTbase - s.time.capPhase + 32 * (s.time.sclk - s.time.capSclk)) % 2 ^ 64

/-- TCLK ticks of a number of milliseconds. -/
def msTicks (n : Nat) : Nat := 16000 * n

/-- TCLK ticks of a number of hours. -/
def hourTicks (h : Nat) : Nat := h * 57600000000

/-! ### Host events (R313) -/

/-- A host event put to the event posting, stamped with TBASE. -/
def hostEvent (kind : Nat) (data : List Byte) (s : State) : State :=
  { s with hp := { s.hp with events := s.hp.events ++ [{ kind := kind, tbase := now s, data := data }] } }

/-- A stream's event for the stream's own event ring; none when it has none (R319, R320). -/
def streamEvent (ring kind : Nat) (data : List Byte) (s : State) : State :=
  if ring = 0xFF then s
  else { s with hp := { s.hp with events := s.hp.events ++ [{ kind := kind, tbase := now s, data := data, ring := some ring }] } }

/-! ### Keeper journal (R376) -/

/-- A write that the NV-write inhibit refuses (R455). -/
def countInhibited (s : State) : State := { s with mem := { s.mem with inhibited := satUp s.mem.inhibited } }

/-- A journal record. One that the NV-write inhibit prevents is lost and counted; a full journal overwrites its oldest. -/
def journal (kind sev : Nat) (data : List Byte) (s : State) : State :=
  if s.pwr.inhibit then countInhibited { s with keep := { s.keep with lost := satUp s.keep.lost } }
  else
    let r : KRec := { seq := s.keep.seq + 1, tbase := now s, kind := kind, sev := sev, state := s.md.mstate,
                      cause := s.md.cause, data := padTo 44 data }
    let l := s.keep.journal ++ [r]
    { s with keep := { s.keep with seq := s.keep.seq + 1, journal := l.drop (l.length - 1024) } }

/-- The 64 bytes of a journal record (R376). -/
def KRec.bytes (r : KRec) : List Byte :=
  let b := leBytes 4 r.seq ++ leBytes 8 r.tbase ++ leBytes 2 r.kind ++ leBytes 1 r.sev ++ leBytes 1 r.state.code ++
    leBytes 1 r.cause.toNat ++ [0#8] ++ padTo 44 r.data
  b ++ leBytes 2 (if r.crcBad then (~~~ crc16 b).toNat else (crc16 b).toNat)

/-! ### Change log (R423 to R426) -/

/-- The 64 bytes of a change-log entry. -/
def LogEntry.bytes (e : LogEntry) : List Byte :=
  leBytes 4 e.idx ++ leBytes 8 e.tbase ++ leBytes 2 e.opcode ++ leBytes 2 e.status ++ leBytes 1 e.req ++ leBytes 1 e.level ++
  [0#8, 0#8] ++ leBytes 4 e.session ++ padTo 32 e.phash ++ padTo 8 e.link

/-- Appends an entry: number n + 1, link to H_n, new head; entry n > 1,024 overwrites entry n − 15,360, and the anchor then
moves to the oldest circulating entry present (R423 to R425). -/
def logAppend (opcode status req level session : Nat) (phash : List Byte) (at_ : Nat) (s : State) : State :=
  let n := s.log.n + 1
  let e : LogEntry := { idx := n, tbase := at_, opcode := opcode, status := status, req := req, level := level,
                        session := session, phash := phash, link := s.log.head.take 8 }
  let h := sha256 (s.log.head ++ e.bytes)
  let gone := n - 15360
  let lost := s.log.entries.find? fun x => x.idx == gone && 1024 < gone
  -- the hash before the oldest circulating entry moves on with the entry that is overwritten
  let ah := match lost with
    | some x => sha256 (s.log.anchorHash ++ x.bytes)
    | none => if n ≤ 1024 then h else s.log.anchorHash
  { s with log := { s.log with entries := (s.log.entries.filter fun x => !(x.idx == gone && 1024 < gone)) ++ [e], n := n, head := h, anchorHash := ah } }

/-- Number of the oldest circulating entry present, or n + 1 while there is none (R425). -/
def anchorIdx (s : State) : Nat := if s.log.n ≤ 1024 then s.log.n + 1 else max 1025 (s.log.n + 1 - 15360)

/-! ### Event codes (R396) -/

/-- Class (true: safety) and severity of an event code. -/
def evClass (code : Nat) : Bool × Nat :=
  match code with
  | 0x0101 => (true, 1) | 0x0102 => (true, 7) | 0x0201 => (false, 3) | 0x0202 => (false, 0)
  | 0x0301 => (false, 3) | 0x0302 => (true, 6) | 0x0303 => (true, 6) | 0x0304 => (true, 7) | 0x0305 => (true, 6)
  | 0x0401 => (true, 5) | 0x0402 => (false, 2) | 0x0403 => (true, 5) | 0x0404 => (true, 5) | 0x0405 => (true, 5)
  | 0x0406 => (true, 6) | 0x0407 => (true, 6) | 0x0408 => (false, 0) | 0x0409 => (false, 4) | 0x040A => (false, 3)
  | 0x040B => (true, 3) | 0x040C => (true, 2) | 0x040D => (false, 2)
  | 0x0501 => (true, 4) | 0x0502 => (true, 5) | 0x0503 => (true, 5) | 0x0504 => (true, 5) | 0x0505 => (false, 2)
  | 0x0506 => (true, 5) | 0x0507 => (false, 3) | 0x0508 => (false, 1)
  | 0x0601 => (false, 1) | 0x0602 => (true, 4) | 0x0603 => (false, 2)
  | 0x0701 => (false, 1) | 0x0702 => (true, 6) | 0x0703 => (true, 6) | 0x0704 => (true, 2)
  | 0x0801 => (false, 1) | 0x0802 => (true, 5) | 0x0803 => (true, 5) | 0x0804 => (true, 4) | 0x0805 => (true, 5)
  | 0x0806 => (true, 6) | 0x0807 => (false, 1) | 0x0808 => (true, 2) | 0x0809 => (false, 2) | 0x080A => (true, 4)
  | 0x080B => (false, 3)
  | 0x0901 => (true, 5) | 0x0902 => (true, 5) | 0x0903 => (true, 5) | 0x0904 => (true, 7) | 0x0905 => (true, 5)
  | 0x0B02 => (true, 4) | 0x0B03 => (true, 6) | 0x0B04 => (true, 4) | 0x0B05 => (false, 2)
  | 0x0C01 => (true, 4) | 0x0C02 => (false, 1) | 0x0C03 => (true, 5) | 0x0C04 => (true, 4)
  | 0x0D01 => (true, 4) | 0x0D02 => (true, 5)
  | 0x0E01 => (false, 3) | 0x0E02 => (true, 3) | 0x0E03 => (true, 5)
  | _ => (false, 0)

/-- Key of an event by its code, instance and data bytes; the source block is the high byte of the code (R395). -/
def evKey (code inst : Nat) (data : List Byte) : EvKey :=
  { safety := (evClass code).1, sev := (evClass code).2, src := code / 256, inst := inst, code := code, data := padTo 6 data }

/-- Events of the supervisor's own firmware: state causes, supervisor state changes, qualification results (R379). -/
def evFirmware (code : Nat) : Bool := code == 0x0101 || code == 0x0102 || code == 0x0201 || code == 0x040B

/-! ### Records (R380, R383, R384, R385) -/

/-- The 32 bytes of a record (R380). -/
def EvRec.bytes (r : EvRec) : List Byte :=
  let b := leBytes 8 r.first ++ leBytes 4 r.lastOfs ++ leBytes 4 r.seq ++
    leBytes 1 (b2n (!r.key.safety) + 2 * r.key.sev) ++ leBytes 1 r.key.src ++ leBytes 2 r.key.inst ++ leBytes 2 r.key.code ++
    leBytes 2 (min r.rep 65535) ++ padTo 6 r.key.data
  b ++ leBytes 2 (if r.crcBad then (~~~ crc16 b).toNat else (crc16 b).toNat)

/-- `LAST_OFS` of R380. -/
def lastOfs (first last : Nat) : Nat := (last - first) / 1024

/-- Capacity of the safety area and of each operational area (R383). -/
def safetyCap : Nat := 65536
/-- Records in the kept and in the circulating area. -/
def operCap : Nat := 16384

/-- The oldest safety record whose severity is `sev` or lower (R384). -/
def victim (sev : Nat) (l : List EvRec) : Option EvRec :=
  (l.filter (·.key.sev ≤ sev)).foldl (fun acc r => match acc with
    | none => some r
    | some a => if r.seq < a.seq then some r else some a) none

/-- The lowest slot that no record of an area holds. -/
def freeSlot (l : List EvRec) : Nat := ((List.range (l.length + 1)).find? fun k => l.all fun r => r.slot != k).getD 0

/-- An operational record placed: first the kept area, then the circulating area, overwriting its oldest (R385). -/
def putOper (r : EvRec) (e : EvrBlk) : EvrBlk :=
  if e.recK.length < operCap then { e with recK := e.recK ++ [{ r with slot := freeSlot e.recK }] }
  else if e.recC.length < operCap then
    { e with recC := e.recC ++ [{ r with slot := freeSlot e.recC }] }
  else { e with recC := e.recC.drop 1 ++ [{ r with slot := ((e.recC.map (·.slot)).head?).getD 0 }] }

/-- Do cursors of a class stand at or below a record that is overwritten (R391)? Marks them. -/
def markCursors (safety : Bool) (lo hi : Nat) (v : Vector (Option Cursor) 8) : Vector (Option Cursor) 8 :=
  v.map fun c => c.map fun k => if k.safety == safety && k.pos ≤ hi && lo ≤ hi then { k with overrun := true } else k

/-- Occurrences in an entry: 1 + its repeats. -/
def EvEntry.count (e : EvEntry) : Nat := 1 + e.rep

/-- Order of writing: first timestamp, source, instance, code (R381). -/
def EvEntry.before (a b : EvEntry) : Bool :=
  if a.first != b.first then a.first < b.first
  else if a.key.src != b.key.src then a.key.src < b.key.src
  else if a.key.inst != b.key.inst then a.key.inst < b.key.inst
  else a.key.code < b.key.code

/-- The entry that is written first, with its place in the queue. -/
def firstDue : List EvEntry → Option EvEntry
  | [] => none
  | a :: r => match firstDue r with
    | none => some a
    | some b => if b.before a then some b else some a

/-- The queue without one entry. -/
def dropEntry (x : EvEntry) : List EvEntry → List EvEntry
  | [] => []
  | a :: r => if a = x then r else a :: dropEntry x r

/-- A record enters the coalescing table of its class; with 256 entries the one with the oldest last occurrence leaves. -/
def enterCo (c : EvCo) (l : List EvCo) : List EvCo :=
  if l.length < 256 then l ++ [c]
  else
    match l.foldl (fun (acc : Option EvCo) x => match acc with
      | none => some x
      | some a => if x.last < a.last then some x else some a) none with
    | none => [c]
    | some o => (l.filter (· ≠ o)) ++ [c]

/-! ### The front queue (R386, R388) -/

/-- An entry that finds the queue full is dropped, or takes the place of the newest entry of the lowest severity present when
that is lower than its own (R388). The drop counts its occurrences and goes to the pending summary of its class. -/
def countDrop (x : EvEntry) (e : EvrBlk) : EvrBlk :=
  let upd (o : Option EvSum) : Option EvSum :=
    let k := o.getD { count := 0, hi := 0, lo := 7 }
    some { count := k.count + x.count, hi := max k.hi x.key.sev, lo := min k.lo x.key.sev }
  let e := { e with qovf := satAdd e.qovf x.count, evt := e.evt ||| 4#32 }
  if x.key.safety then { e with sumS := upd e.sumS } else { e with sumO := upd e.sumO }

/-- The newest entry of the lowest severity in the queue. -/
def weakest : List EvEntry → Option EvEntry
  | [] => none
  | a :: r => match weakest r with
    | none => some a
    | some b => if b.key.sev ≤ a.key.sev then some b else some a

/-- A new entry into the front queue (R388). -/
def enqueue (x : EvEntry) (e : EvrBlk) : EvrBlk :=
  if e.queue.length < 256 then { e with queue := e.queue ++ [x] }
  else
    match weakest e.queue with
    | some w =>
      if w.key.sev < x.key.sev then
        let e := countDrop w e
        { e with queue := dropEntry w e.queue ++ [x] }
      else countDrop x e
    | none => { e with queue := e.queue ++ [x] }

/-- Merge into a front-queue entry of identical key. -/
def mergeQueue (k : EvKey) (t : Nat) : List EvEntry → Option (List EvEntry)
  | [] => none
  | a :: r =>
    if a.key = k then some ({ a with rep := a.rep + 1, last := t } :: r)
    else (mergeQueue k t r).map (a :: ·)

/-- Merge into a record of the coalescing table whose last occurrence lies less than 10 s back and whose `LAST_OFS` stays
within 32 bits (R386, R387); in keeper-only mode the repeat is only counted (R393). -/
def mergeCo (k : EvKey) (t : Nat) (konly : Bool) : List EvCo → Option (List EvCo)
  | [] => none
  | c :: r =>
    if c.key = k ∧ t - c.last < 160000000 ∧ lastOfs c.first t ≤ 2 ^ 32 - 1 then
      some ((if konly then { c with last := t }
        else { c with last := t, pend := c.pend + 1, firstPend := if c.pend = 0 then t else c.firstPend }) :: r)
    else (mergeCo k t konly r).map (c :: ·)

/-- Posts an occurrence at tick `t` into the queue (R386). -/
def postEntry (k : EvKey) (t rep : Nat) (e : EvrBlk) : EvrBlk :=
  match mergeQueue k t e.queue with
  | some q => { e with queue := q }
  | none =>
    match mergeCo k t e.konly (if k.safety then e.coS else e.coO) with
    | some l =>
      let e := if e.konly then { e with koCnt := satAdd e.koCnt 1 } else e
      if k.safety then { e with coS := l } else { e with coO := l }
    | none => enqueue { key := k, first := t, last := t, rep := rep } e

/-! ### Writing a record (R384, R385, R387, R393) -/

/-- A record enters its area. A safety record that finds the area full overwrites the oldest of its severity or lower, whose
pending repeats become a new entry (R389); when there is none it is dropped and counted (R384). -/
def storeRec (x : EvEntry) (e : EvrBlk) : EvrBlk × Option EvRec :=
  let mk (seq : Nat) : EvRec := { seq := seq, key := x.key, first := x.first, lastOfs := lastOfs x.first x.last, rep := min x.rep 65535 }
  let co (seq : Nat) : EvCo := { seq := seq, key := x.key, first := x.first, last := x.last, rep := x.rep, prevEnd := x.first + 32000 }
  if x.key.safety then
    if e.recS.length < safetyCap then
      let r := { mk (e.seqS + 1) with slot := freeSlot e.recS }
      ({ e with recS := e.recS ++ [r], seqS := e.seqS + 1, coS := enterCo (co (e.seqS + 1)) e.coS, evt := e.evt ||| 1#32 }, some r)
    else
      match victim x.key.sev e.recS with
      | none => ({ e with evt := e.evt ||| 8#32, drops := vmod e.drops x.key.sev satUp }, none)
      | some v =>
        let r := { mk (e.seqS + 1) with slot := v.slot }
        let held := e.coS.find? (·.seq == v.seq)
        let e := { e with recS := (e.recS.filter (·.seq != v.seq)) ++ [r], seqS := e.seqS + 1
                          coS := enterCo (co (e.seqS + 1)) (e.coS.filter (·.seq != v.seq)), evt := e.evt ||| 1#32
                          cursors := markCursors true v.seq v.seq e.cursors }
        match held with
        | some c => if c.pend = 0 then (e, some r)
            else (enqueue { key := c.key, first := c.firstPend, last := c.last, rep := c.pend - 1 } e, some r)
        | none => (e, some r)
  else
    let r := mk (e.seqO + 1)
    let gone := if operCap ≤ e.recC.length then (e.recC.head?).map (·.seq) else none
    let e1 := putOper r e
    let e2 := { e1 with seqO := e.seqO + 1, evt := e.evt ||| 2#32
                        coO := enterCo (co (e.seqO + 1)) (match gone with | none => e.coO | some g => e.coO.filter (·.seq != g))
                        cursors := match gone with | none => e1.cursors | some g => markCursors false g g e1.cursors }
    (e2, some r)

/-- Each pending summary becomes a front-queue entry once the queue has fallen below 192 entries (R388). -/
def flushSums (t : Nat) (e : EvrBlk) : EvrBlk :=
  if 192 ≤ e.queue.length then e
  else
    let put (safety : Bool) (o : Option EvSum) (e : EvrBlk) : EvrBlk := match o with
      | none => e
      | some k =>
        let key : EvKey := { safety := safety, sev := k.hi, src := 0x0B, inst := b2n (!safety), code := 0x0B01,
                             data := padTo 6 (leBytes 4 k.count ++ leBytes 1 k.hi ++ leBytes 1 k.lo) }
        enqueue { key := key, first := t, last := t } e
    let e1 := put true e.sumS { e with sumS := none, sumO := none }
    put false e.sumO e1

/-- A front-queue entry leaves the queue and is written (R387); in keeper-only mode an entry of severity 5 or above goes to the
journal and every other only counts (R393). Nothing is written under the NV-write inhibit: the entry is then lost. -/
def writeEntry (x : EvEntry) (s : State) : State :=
  let e0 := { s.evr with queue := dropEntry x s.evr.queue }
  if s.pwr.inhibit then countInhibited { s with evr := e0 }
  else if e0.konly then
    if 5 ≤ x.key.sev then
      let seq := if x.key.safety then e0.seqS + 1 else e0.seqO + 1
      let r : EvRec := { seq := seq, key := x.key, first := x.first, lastOfs := lastOfs x.first x.last, rep := min x.rep 65535 }
      let c : EvCo := { seq := seq, key := x.key, first := x.first, last := x.last, rep := x.rep }
      let e1 := if x.key.safety then { e0 with seqS := seq, coS := enterCo c e0.coS } else { e0 with seqO := seq, coO := enterCo c e0.coO }
      journal 0x0009 x.key.sev r.bytes { s with evr := flushSums (now s) e1 }
    else { s with evr := flushSums (now s) { e0 with koCnt := satAdd e0.koCnt x.count } }
  else
    let (e1, r) := storeRec x e0
    let s1 := { s with evr := flushSums (now s) e1 }
    match r with
    | some r => if r.key.safety ∧ s.sup.sup = .serving then hostEvent 0x0006 (leBytes 4 r.seq ++ leBytes 1 r.key.sev) s1 else s1
    | none => s1

/-- Writes the whole queue in order, at most `n` entries. -/
def writeAll : Nat → State → State
  | 0, s => s
  | n + 1, s => match firstDue s.evr.queue with
    | none => s
    | some x => writeAll n (writeEntry x s)

/-- Posts an event at TBASE (R379, R386). The recorder stops at a VCORE fault (R490); in `SHUTTING_DOWN` entries are written
at once and the marker after them (R394). Events of the supervisor's firmware are posted only while it serves (R379). -/
def postEv (code inst : Nat) (data : List Byte) (s : State) : State :=
  if s.evr.stopped || s.md.mstate == .off || (evFirmware code && s.sup.sup != .serving) then s
  else
    let s1 := { s with evr := postEntry (evKey code inst data) (now s) 0 s.evr }
    if s.evr.flushing then
      let s2 := writeAll s1.evr.queue.length s1
      { s2 with evr := { s2.evr with marker := s.evr.marker && !s.pwr.inhibit } }
    else s1

/-- A rewrite of a record with its pending repeats (R387): atomic, no host event. -/
def rewriteRec (c : EvCo) (t : Nat) (e : EvrBlk) : EvrBlk :=
  let rep := min (c.rep + c.pend) 65535
  let upd (l : List EvRec) : List EvRec :=
    l.map fun r => if r.seq = c.seq then { r with rep := rep, lastOfs := lastOfs c.first c.last } else r
  let co (l : List EvCo) : List EvCo := l.map fun x => if x = c then { x with rep := rep, pend := 0, prevEnd := t } else x
  if c.key.safety then { e with recS := upd e.recS, coS := co e.coS }
  else { e with recK := upd e.recK, recC := upd e.recC, coO := co e.coO }

end Sys2Proof.Machine
end

