-- ==== Sys2Proof/Machine/Ops.lean ====
section
/-! DEFINITION. Operations that many commands share: flags, opening the group masters (R197), the module's change of state and
its causes (R18 to R21, R25), and completions (R311, R315, R370). -/

namespace Sys2Proof.Machine

/-! ### Event flags of the blocks: a set wins over a clear in the same cycle (R7) -/

/-- Sets bit `i` of `CYC_EVT`. -/
def cycEvt (i : Nat) (s : State) : State := { s with cyc := { s.cyc with evt := s.cyc.evt ||| BitVec.twoPow 32 i } }
/-- Sets bit `i` of `LANE_EVT`. -/
def laneEvt (i : Nat) (s : State) : State := { s with lane := { s.lane with evt := s.lane.evt ||| BitVec.twoPow 32 i } }
/-- Sets bit `i` of `OUT_EVT`. -/
def outEvt (i : Nat) (s : State) : State := { s with out := { s.out with evt := s.out.evt ||| BitVec.twoPow 32 i } }
/-- Sets bit `i` of `HP_EVT`. -/
def hpEvt (i : Nat) (s : State) : State := { s with hp := { s.hp with evt := s.hp.evt ||| BitVec.twoPow 32 i } }
/-- Sets bit `i` of `PWR_EVT`. -/
def pwrEvt (i : Nat) (s : State) : State := { s with pwr := { s.pwr with evt := s.pwr.evt ||| BitVec.twoPow 32 i } }
/-- Sets bit `i` of `EVR_EVT`. -/
def evrEvt (i : Nat) (s : State) : State := { s with evr := { s.evr with evt := s.evr.evt ||| BitVec.twoPow 32 i } }
/-- Sets bit `i` of `MEM_EVT` (R456). -/
def memEvt (i : Nat) (s : State) : State := { s with mem := { s.mem with evt := s.mem.evt ||| BitVec.twoPow 32 i } }
/-- An MRAM write has failed its verify twice (R454). -/
def verifyFailed (s : State) : State := memEvt 9 s

/-- Have the blocks of the module taken their configuration (start-up step 8)? Until then what they report of their service reads as at
reset (notes/assumptions/22.md). -/
def configured (s : State) : Bool := s.md.mstate != .starting || 9 ≤ s.md.startStep

/-! ### Completions (R311, R315, R370) -/

/-- A flag of a command entry: 0 `IBUF`, 1 `OBUF`, 2 `FENCE`, 3 `QUIET_OK` (R309). -/
def Req.flag (q : Req) (i : Nat) : Bool := q.flags.getLsbD i

/-- Field of `n` bytes at entry offset `o` of a command's parameters (R324): with `IBUF` the parameters stand in the buffer,
whose first byte is that of entry offset 0x08. -/
def Req.arg (q : Req) (o n : Nat) : Nat := if q.flag 0 then leAt q.ibuf (o - 8) n else leAt q.param (o - 8) n

/-- Output buffer of a command: address and length at entry offsets 0x18 and 0x20 (R309). -/
def Req.obuf (q : Req) : Nat × Nat := (leAt q.param 0x10 8, leAt q.param 0x18 4)

/-- Does a taken record belong to the command? -/
def Taken.isOf (t : Taken) (q : Req) : Bool := t.src == q.src && t.tag == q.tag

/-- Module identifier of the cross-link (R257). -/
def midOf (s : State) : Nat := s.xl.mid

/-- Stores and sends a sideband response (R365, R369, R370). -/
def sbRespond (tag : Half) (cmd : Nat) (payload : List Byte) (s : State) : State :=
  { s with keep := { s.keep with
      resp := some { addr := BitVec.ofNat 8 (0x80 + midOf s), tag := tag, cmd := cmd, payload := payload },
      sent := s.keep.sent + 1, waiting := none } }

/-- Writes bytes to the host memory, or to the ring window in Quad-SPI mode, where addresses lie below 64 KiB. -/
def busWrite (a : Nat) (l : List Byte) (s : State) : State :=
  { s with hp := { s.hp with mem := Mem.writeBytes 0 s.hp.mem a l } }

/-- Is the register map served to the host (R17, R300 to R302)? -/
def hostServed (s : State) : Bool :=
  s.md.mstate != .off && !s.hp.disabled && (s.hp.qspi || (!s.hp.perst && !s.hp.d3hot))

/-- Does DMA run (R301, R316)? In Quad-SPI mode everything lies in the module. -/
def dmaOn (s : State) : Bool := hostServed s && (s.hp.qspi || s.hp.busMaster)

/-- A command's results go to its output buffer, once DMA runs (R301, R316). -/
def bufferWrite (a : Nat) (l : List Byte) (s : State) : State :=
  if dmaOn s then busWrite a l s else { s with hp := { s.hp with outWait := s.hp.outWait ++ [(a, l)] } }

/-- A DMA error counts, sets `HP_EVT.DMA_ERR`, and the PCI Express endpoint reports it (R302). -/
def dmaCount (s : State) : State :=
  hpEvt 6 { s with hp := { s.hp with dma := satUp s.hp.dma, aer := if s.hp.qspi then s.hp.aer else satUp s.hp.aer } }

/-- The command leaves the list of commands taken and not completed (R308). -/
def untake (q : Req) (s : State) : State :=
  let had := s.sup.taken.any fun t => t.isOf q && !t.mute
  let s1 := { s with sup := { s.sup with taken := s.sup.taken.filter fun t => !t.isOf q } }
  match q.src with
  | .ring r => if had then { s1 with hp := { s1.hp with rings := vmod s1.hp.rings r.val fun d => { d with inflight := d.inflight - 1 } } } else s1
  | .sideband => s1

/-- Bytes of a completion that go inline, at most 51 (R311). -/
def inlineMax : Nat := 51

/-- Completes a command (R311): the completion waits for its ring, unless the command ring has been stopped (R306) or
`QUIET_OK` suppresses an `OK` (R309); over the sideband it is the response (R370). With `OBUF` the results `buf` go to the
output buffer. While the supervisor does not serve, the completion waits for it and carries no inline results (R315). -/
def completeWith (q : Req) (op : Nat) (st : Status) (res : List Byte) (buf : Option (List Byte)) (restart : Bool)
    (s : State) : State :=
  let s0 := untake q s
  match q.src with
  | .sideband =>
    let data := match buf with | some b => b | none => res
    let p := leBytes 2 st.code ++ leBytes 2 data.length ++ data
    sbRespond q.tag (match s.keep.waiting with | some w => w.2 | none => op) p s0
  | .ring r =>
    let d := vget s.hp.rings r.val
    let mute := s.sup.taken.any fun t => t.isOf q && t.mute
    let s1 := match buf with | some b => bufferWrite q.obuf.1 b s0 | none => s0
    if !d.en || mute || (q.flag 3 && st == .ok && !restart) then s1
    else
      let c : Cpl := { ring := d.cpl.toNat, src := r.val, tag := q.tag, status := st
                       rlen := match buf with | some b => b.length | none => min res.length inlineMax
                       chead := d.head.toNat, result := res.take inlineMax, inbuf := buf.isSome, restart := restart }
      { s1 with hp := { s1.hp with cpls := s1.hp.cpls ++ [c] } }

/-- Completes a command with a status and inline results. While the supervisor does not serve, a command whose effect was committed is
noted, and completes when it serves again; any other one stays among the commands taken, and is then aborted (R315). -/
def complete (q : Req) (op : Nat) (st : Status) (res : List Byte) (s : State) : State :=
  if s.sup.sup = .serving then completeWith q op st res none false s
  else if st = .ok then { s with sup := { s.sup with committed := s.sup.committed ++ [q] } }
  else s

/-- Data that `WRONG_STATE` carries: the module state (R336). -/
def wrongState (s : State) : List Byte := leBytes 1 s.md.mstate.code

/-- Completes several commands with `WRONG_STATE`. -/
def allWrong (l : List Req) (s : State) : State := l.foldl (fun s q => complete q 0 .wrongState (wrongState s) s) s

/-! ### Group masters (R195 to R197) -/

/-- Does the module state hold both masters open under cause 6 (R197)? A qualifying partner's masters stay open too (R482). -/
def masterHeld (s : State) : Bool :=
  !(s.md.mstate == .run || s.md.mstate == .quiet) || s.md.qualPartner

/-- Opens the master of group `g` for a cause: the first cause is reported, each is recorded with the code that goes with it
(R197); causes 1 to 5 latch. -/
def openMaster (g cause code : Nat) (s : State) : State :=
  let x := { vget s.out.grps g with master := false, drive := false }
  if cause = 6 ∧ x.first = 6 ∨ cause ∈ x.latches then { s with out := { s.out with grps := vset s.out.grps g x } }
  else
    let x1 := { x with first := if x.first = 0 then cause else x.first
                       latches := if cause = 6 then x.latches else x.latches ++ [cause] }
    postEv 0x0703 g (leBytes 1 cause ++ leBytes 1 code) { s with out := { s.out with grps := vset s.out.grps g x1 } }

/-- Opens both masters. -/
def openMasters (cause code : Nat) (s : State) : State := openMaster 1 cause code (openMaster 0 cause code s)

/-- Cause 6 ends: a group reports its first latched cause, or none. -/
def endCause6 (s : State) : State :=
  let f (x : Grp) : Grp := if x.first = 6 then { x with first := (x.latches.head?).getD 0 } else x
  { s with out := { s.out with grps := s.out.grps.map f } }

/-! ### Committed outputs -/

/-- Sets the committed value of an output cell (R36); a local output takes bit 0 on its channel switch (R46, R97). -/
def commitCell (c : Nat) (v : Word) (s : State) : State :=
  let ones := if isOutPoint c && v.getLsbD 0 then (c, s.cyc.num) :: s.cyc.lastOne.filter (fun p => p.1 != c) else s.cyc.lastOne
  { s with cyc := { s.cyc with committed := Mem.write 0 s.cyc.committed c v, lastOne := ones } }

/-- The output cells that graphs of the image in force own, by owner code. -/
def ownedBy (o : Nat) (s : State) : List Nat :=
  match s.image with
  | none => []
  | some im => (im.own.filter (·.owner == o)).map (·.cell)

/-- The owned cells of logical safety lanes: those that commit 0 commits (R39, R40, R479, R484). -/
def allOwned (s : State) : List Nat :=
  match s.image with
  | none => []
  | some im => (im.own.filter (·.owner < 4)).map (·.cell)

/-- Commits 0 to a list of cells. -/
def commitZero (l : List Nat) (s : State) : State := l.foldl (fun s c => commitCell c 0 s) s

/-- Field group of an output (R194). -/
def grpOut (n : Nat) : Nat := if n < 16 then n / 8 else (n - 16) / 2

/-- May the channel switch of an output close: it is committed 1, not latched off, its group neither cut nor latched by a failed master
test (R196, R204, R214)? -/
def switchOn (b : OutBlk) (n : Nat) (o : Out) : Bool :=
  let g := vget b.grps (grpOut n)
  o.cmd && o.latched.isEmpty && !(2 ∈ g.latches) && !(4 ∈ g.latches)

/-- Does a test hold the channel switch of an output open: its own dark pulse, or a closing master test of its group (R205, R480)? -/
def heldDark (t : Option TestRun) (n : Nat) : Bool :=
  t.any fun r => match r.sel with
    | .dark m | .ident _ m => m == n
    | .start g | .ack g => grpOut n == g
    | _ => false

/-- The test in progress as a commit meets it (R205): the result of a light test is discarded, any other test goes on. -/
def testAfterCommit (t : Option TestRun) : Option TestRun :=
  match t with
  | some { sel := .light _, .. } => none
  | _ => t

/-- Channel switches take the committed local outputs (R46, R196); one in a dark pulse stays open until the pulse ends (R205). -/
def applyOutputs (s : State) : State :=
  let t := now s
  let test := testAfterCommit s.out.test
  let upd := fun (n : Nat) (o : Out) =>
    let v := v0 (Mem.read 0 s.cyc.committed (0x4000 + n)) && o.used
    let on := switchOn s.out n { o with cmd := v }
    let eco := o.ecoAct && on && o.cmd
    { o with cmd := v, ch := on && !heldDark test n
             onAt := if v && !o.cmd then t else o.onAt
             offAt := if !v && o.cmd then t else o.offAt
             ecoAct := eco, duty := if eco then o.duty else (1, 1) }
  { s with out := { s.out with outs := vmapi upd s.out.outs, test := test } }

/-! ### Causes and changes of state (R18 to R21) -/

/-- The module enters a state with a cause: the event, the journal record, `HP_EVT.MSTATE_CHG` and the host event (R18, R313,
R376). A `SAFE_HOLD` or `FAULT` starts its list of recorded causes. -/
def setState (new : MState) (cause : Byte) (s : State) : State :=
  let old := s.md.mstate
  let data := leBytes 1 old.code ++ leBytes 1 new.code ++ [cause]
  let bad := new == .safeHold || new == .fault
  -- the supervisor PLL stops in `QUIET` alone (R470)
  let awake := old == .quiet && s.pwr.supPllOff
  let s1 := { s with md := { s.md with mstate := new, cause := cause, recorded := if bad then [cause] else [] }
                     pwr := { s.pwr with supPllOff := s.pwr.supPllOff && !awake, supLock := s.pwr.supLock || awake } }
  let s2 := postEv (if bad then 0x0102 else 0x0101) 0 data s1
  let s3 := journal 0x0002 (if bad then 7 else 1) data s2
  hostEvent 0x0001 data (hpEvt 0 s3)

/-- Is a scheduled act a request for a change of state that a higher-ranked one drops (R20)? -/
def BKind.isState : BKind → Bool
  | .holdAck | .quietEnter | .quietExit => true
  | _ => false

/-- Is it a request for an entry to or an exit from `QUIET`? -/
def BKind.isQuiet : BKind → Bool
  | .quietEnter | .quietExit => true
  | _ => false

/-- Drops the pending requests of lower rank; their commands complete with `WRONG_STATE` (R20). -/
def dropRequests (keep : BKind → Bool) (s : State) : State :=
  let (stay, go) := s.sup.acts.partition fun a => keep a.kind
  allWrong (go.filterMap (·.q)) { s with sup := { s.sup with acts := stay },
                                          md := { s.md with quietExit := false, quietIn := none, quietOut := none },
                                          xl := { s.xl with quietReq := false } }

/-- The lanes stop: runs in progress are abandoned and no further cycle runs (R44, R484). -/
def stopLanes (s : State) : State :=
  { s with lane := { s.lane with lls := s.lane.lls.map fun l => { l with st := .idle, run := {}, hoReq := false } },
           cyc := { s.cyc with running := false, open_ := false, guard := { s.cyc.guard with resync := true, run := 0 } } }

/-- The fast clocks in `FAULT` (R466): LCLK is off unless the forerunner timing mode is on (R167); a TCLK that sleeps is started. -/
def faultClocks (s : State) : State :=
  { s with pwr := { s.pwr with lclkLock := s.pwr.lclkLock && s.nv.inForce.fore, asleep := false }
           time := if s.time.tclkRun || s.md.mstate != .quiet then s.time else { s.time with fllAt := some s.time.sclk } }

/-- A further cause in the state that the module is in: a separate event (R18, R25). -/
def recordCause (cause : Byte) (s : State) : State :=
  if cause ∈ s.md.recorded then s
  else
    postEv 0x0102 0 (leBytes 1 s.md.mstate.code ++ leBytes 1 s.md.mstate.code ++ [cause])
      { s with md := { s.md with recorded := s.md.recorded ++ [cause] } }

/-- Both masters open under cause 6, and the guard resynchronises for as long as they are held (R197, R540). -/
def holdMasters (s : State) : State :=
  openMasters 6 0 { s with cyc := { s.cyc with guard := { s.cyc.guard with resync := true, run := 0 } } }

/-- A `FAULT` cause (R19): at once, from any state that can take it; lower-ranked requests are dropped, `HOLD` commands among
them, and the causes that waited are recorded as separate events. In `FAULT` a further cause is one too (R18). -/
def enterFault (cause : Byte) (s : State) : State :=
  match s.md.mstate with
  | .starting | .run | .quiet | .safeHold =>
    let s1 := allWrong s.sup.waitHold { s with sup := { s.sup with waitHold := [] }, md := { s.md with holdPend := [], shutReq := none } }
    let s2 := dropRequests (fun k => !k.isState) s1
    let s3 := faultClocks (stopLanes (commitZero (allOwned s2) s2))
    s.md.holdPend.foldl (fun s c => recordCause c s) (holdMasters (applyOutputs (setState .fault cause s3)))
  | .fault => recordCause cause s
  | _ => s

/-- A `SAFE_HOLD` cause is found (R19): in `STARTING` one of 0x11, 0x12, 0x15 and 0x16 is
recorded until the end of the sequence; in `RUN` and `QUIET` it waits
for the next commit point; in `SAFE_HOLD` and in `FAULT` it is recorded as a separate event (R18, R25). -/
def findCause (cause : Byte) (s : State) : State :=
  match s.md.mstate with
  | .starting | .run | .quiet =>
    if cause ∈ s.md.holdPend || (s.md.mstate == .starting && (cause == 0x13#8 || cause == 0x14#8)) then s else { s with md := { s.md with holdPend := s.md.holdPend ++ [cause] } }
  | .safeHold | .fault => recordCause cause s
  | _ => s

/-- Entry to `SAFE_HOLD` with the causes found so far, the first reported and the others as separate events (R18, R19); quiet
requests and acknowledgements are dropped (R20), `HOLD` commands complete (R344), both masters open (R197). -/
def enterHold (s : State) : State :=
  match s.md.holdPend with
  | [] => s
  | c :: more =>
    let s1 := dropRequests (fun k => !k.isState) { s with md := { s.md with holdPend := [] } }
    let s2 := holdMasters (setState .safeHold c s1)
    let s3 := more.foldl (fun s c => findCause c s) s2
    let w := s3.sup.waitHold
    w.foldl (fun s q => complete q 0x0402 .ok [] s) { s3 with sup := { s3.sup with waitHold := [] } }

end Sys2Proof.Machine
end

