-- ==== Sys2Proof/Machine/Clock.lean ====
section
/-! DEFINITION. The passage of TCLK ticks: the timer array on one edge and over a span (11_timer_array R282 to R299), and the
advance of TBASE to an instant. -/

namespace Sys2Proof.Machine

/-! ### Fields of `TMR_CFG` -/

/-- `CLK`. -/
def Chan.clk (c : Chan) : Nat := bits c.cfg.toNat 1 0
/-- `CISEL`. -/
def Chan.cisel (c : Chan) : Nat := bits c.cfg.toNat 4 2
/-- `EDGE`. -/
def Chan.edge (c : Chan) : Nat := bits c.cfg.toNat 6 5
/-- `MASTER`. -/
def Chan.master (c : Chan) : Nat := bits c.cfg.toNat 11 7
/-- `SMODE`. -/
def Chan.smode (c : Chan) : Nat := bits c.cfg.toNat 13 12
/-- `MEVT`. -/
def Chan.mevt (c : Chan) : Nat := bits c.cfg.toNat 15 14
/-- `GPOL`. -/
def Chan.gpol (c : Chan) : Bool := c.cfg.getLsbD 16
/-- `CATCH`. -/
def Chan.fireAll (c : Chan) : Bool := c.cfg.getLsbD 17
/-- `WAKE`. -/
def Chan.wake (c : Chan) : Bool := c.cfg.getLsbD 18
/-- `CAPSRC`. -/
def Chan.capsrc (c : Chan) : Nat := bits c.cfg.toNat 20 19
/-- `CAPCI`. -/
def Chan.capci (c : Chan) : Nat := bits c.cfg.toNat 23 21
/-- `EN`. -/
def Chan.en (c : Chan) : Bool := c.cfg.getLsbD 24
/-- `HEVT`. -/
def Chan.hevt (c : Chan) : Bool := c.cfg.getLsbD 25
/-- `OWN`. -/
def Chan.own (c : Chan) : Bool := c.cfg.getLsbD 26

/-- Does the channel use its master at all? -/
def Chan.usesMaster (c : Chan) : Bool := c.clk == 3 || c.smode != 0 || c.capsrc == 2

/-! ### One edge -/

/-- One edge of the timer array: TCLK ticks and TCLK/16 ticks that it stands for (1 and 0 or 1, more at a make-up), the
counting-input edges on it (input, rising), t0, a restart edge (R298), and software writes, by channel. -/
structure EdgeIn where
  dt : Nat := 0
  d16 : Nat := 0
  ci : List (Nat × Bool) := []
  t0 : Bool := false
  restart : Bool := false
  capt : Option Nat := none
  ops : List (Nat × ChOp) := []
deriving DecidableEq, Repr, Inhabited

/-- Events of a channel on an edge, as its slaves see them (R293): matches, captures, wraps. -/
structure ChEv where
  mat : Nat := 0
  cap : Nat := 0
  wrap : Nat := 0
deriving DecidableEq, Repr, Inhabited

/-- Events of the master that the slave's `MEVT` selects. -/
def ChEv.of (e : ChEv) (mevt : Nat) : Nat := match mevt with | 0 => e.mat | 1 => e.cap | 2 => e.wrap | _ => 0

/-- Does `EDGE` select an edge of this direction? -/
def edgeSel (sel : Nat) (rising : Bool) : Bool := (sel == 0 && rising) || (sel == 1 && !rising) || sel == 2

/-- Has `CMP` been passed (R289)? -/
def Chan.passed (c : Chan) : Bool := (c.cnt - c.cmp).toNat < 2 ^ 47

/-- A match (R289): flags, output, count, interval, next compare; an interval of 0 disarms. -/
def Chan.fire (late : Bool) (c : Chan) : Chan :=
  { c with match_ := true, out := !c.out, mcnt := c.mcnt + 1, act := c.pre, cmp := c.cmp + c.pre
           arm := c.pre != 0, late := c.late || late, accMatch := true, accLate := c.accLate || late }

/-- Skip (R290): periods passed are added to `CMP` until it is no longer passed, each counting in `MISS`. -/
def Chan.skip (c : Chan) : Chan :=
  if !c.arm || !c.passed || c.fireAll then c
  else
    let k := (c.cnt - c.cmp).toNat / c.act.toNat + 1
    { c with cmp := c.cmp + BitVec.ofNat 48 (k * c.act.toNat), miss := satAdd c.miss k }

/-- What the write of `INT_NOW` does (R290). -/
def Chan.intNow (c : Chan) : Chan := { c with act := c.pre, cmp := c.cmp - c.act + c.pre }

/-- Software's part of the edge: it lands after the match of the same edge (R291); flags written 1 are cleared before
hardware sets them (R7), and a clear of the counter acts in the counting itself. -/
def Chan.after (c : Chan) (o : ChOp) : Chan :=
  match o with
  | .arm => { c with arm := true }
  | .disarm => { c with arm := false }
  | .intNow => c.intNow
  | .cmp v => { c with cmp := v, cmpHi := none }
  | .pre v => { c with pre := v, preHi := none }
  | .cfg v => { c with cfg := v }
  | .miss v => { c with miss := v }
  | .clear | .takeCap | .st _ | .link _ => c

/-- Flags of `TMR_ST` written 1 are cleared. -/
def Chan.clearSt (v : Word) (c : Chan) : Chan :=
  { c with match_ := c.match_ && !v.getLsbD 0, ovr := c.ovr && !v.getLsbD 2, late := c.late && !v.getLsbD 3
           carry := c.carry && !v.getLsbD 4 }

/-- Software's part that hardware comes after: flags written 1 (R7), and a read of `CAP_LO`, whose capture on the same edge is stored after
it (R292). -/
def Chan.before (c : Chan) (o : ChOp) : Chan :=
  match o with
  | .st v => c.clearSt v
  | .takeCap => { c with capHi := c.cap.extractLsb' 32 16, capt := false }
  | _ => c

/-- Host-event accounting of a channel (R313): at most one event per cycle counts every match and capture. -/
def Chan.hev (e : ChEv) (c : Chan) : Chan :=
  let k := e.mat + e.cap
  if k = 0 || !c.hevt then c
  else { c with hevKind := c.hevKind ||| (b2n (0 < e.mat) + 2 * b2n (0 < e.cap)), hevCount := c.hevCount + k
                hevCnt := c.cnt.setWidth 32 }

/-- A channel on an edge, with the events of its master on the same edge (none from a disabled master, R294) and the master's
gate level before it. -/
def Chan.onEdge (x : EdgeIn) (n : Nat) (mev : ChEv) (gate : Bool) (c0 : Chan) : Chan × ChEv :=
  let o := (x.ops.filter (·.1 == n)).map (·.2)
  let c := o.foldl Chan.before c0
  let m := if c.usesMaster then mev.of c.mevt else 0
  let inc := if !c.en || (c.smode == 1 && gate != c.gpol) then 0 else
    match c.clk with
    | 0 => x.dt
    | 1 => x.d16
    | 2 => (x.ci.filter fun e => e.1 == c.cisel && edgeSel c.edge e.2).length
    | _ => m
  let reset := o.any (· == .clear) || (c.smode == 2 && 0 < m)
  let sum := c.cnt.toNat + inc
  let wraps := if reset then 0 else sum / 2 ^ 48
  let capd : Bool := (match c.capsrc with
    | 1 => x.ci.any fun e => e.1 == c.capci && edgeSel c.edge e.2
    | 2 => decide (0 < m)
    | 3 => x.t0
    | _ => false) || (x.capt == some n && c.capsrc != 0)
  let c1 := { c with cnt := if reset then 0 else BitVec.ofNat 48 sum, carry := c.carry || decide (0 < wraps) }
  let c2 := if capd then { c1 with cap := if reset then c.cnt else c1.cnt, ovr := c1.ovr || c1.capt, capt := true, accCapt := true } else c1
  let fires := c2.arm && c2.passed
  let late := x.restart || c2.catching
  let c3 := if fires then (c2.fire late).skip else c2
  let c4 := { c3 with catching := fires && late && c3.arm && c3.passed }
  let e : ChEv := { mat := b2n fires, cap := b2n capd, wrap := wraps }
  let c5 := o.foldl Chan.after (c4.hev e)
  -- a disabled channel's gate level stands as it was, and follows `OUT` again from the edge that enables it (R294)
  ({ c5 with gate := if c.en || c5.en then c4.out else c.gate }, e)

/-- All channels on an edge, in order, so that a chain of slaves acts on that one edge (R293); answers the channels and
whether one overran or fired late. -/
def sweep (x : EdgeIn) (old : Vector Chan 32) : List Chan → Nat → List ChEv → List Chan × Bool × Bool
  | [], _, _ => ([], false, false)
  | c :: r, n, evs =>
    let m := vget old c.master
    let mev := if c.master < n && m.en then lget evs c.master {} else {}
    let (c', e) := c.onEdge x n mev m.gate
    let (l, ov, lt) := sweep x old r (n + 1) (evs ++ [e])
    let took := x.ops.any fun o => o.1 == n && o.2 == .takeCap
    (c' :: l, ov || (0 < e.cap && c.capt && !took), lt || (0 < e.mat && (x.restart || c.catching)))

/-- One edge of the timer array: the channels, `TMR_EVT.LATE` and `OVR`. -/
def tmrEdge (x : EdgeIn) (t : TmrBlk) : TmrBlk :=
  let (l, ov, lt) := sweep x t.chans t.chans.toList 0 []
  let link := x.ops.foldl (fun l o => match o.2 with | .link v => v | _ => l) t.link
  { t with link := link, evt := t.evt ||| BitVec.ofNat 32 (at1 lt 2 + at1 ov 3), chans := vtab 32 fun i => lget l i {} }

/-! ### A span of ticks -/

/-- Ticks until a channel's count reaches a distance: with TCLK/16 the edges at which TBASE[3:0] becomes 0 (R286). -/
def Chan.ticksFor (tb : Nat) (c : Chan) (k : Nat) : Option Nat :=
  match c.clk with
  | 0 => some k
  | 1 => some (16 * k - tb % 16)
  | _ => none

/-- Does the channel's gate let it count (R286, R292)? -/
def Chan.open_ (gate : Bool) (c : Chan) : Bool := c.en && !(c.smode == 1 && gate != c.gpol)

/-- Is a channel enabled and clocked (R299): its gate is open, and a master that clocks it gives events (R294)? -/
def Chan.clocked (v : Vector Chan 32) (c : Chan) : Bool :=
  let m := vget v c.master
  c.open_ m.gate && (c.clk != 3 || m.en)

/-- Ticks until the next match of a channel by its own clock; 1 where `CMP` is passed already. -/
def Chan.matchDue (tb : Nat) (gate : Bool) (c : Chan) : Option Nat :=
  if !c.arm then none
  else if c.passed then some 1
  else if c.open_ gate then c.ticksFor tb (c.cmp - c.cnt).toNat else none

/-- Ticks until the next wrap of a channel by its own clock. -/
def Chan.wrapDue (tb : Nat) (gate : Bool) (c : Chan) : Option Nat :=
  if c.open_ gate then c.ticksFor tb (2 ^ 48 - c.cnt.toNat) else none

/-- Ticks until the next match or wrap that counting brings to a channel. -/
def Chan.due (tb : Nat) (gate : Bool) (c : Chan) : Option Nat :=
  match c.matchDue tb gate, c.wrapDue tb gate with
  | some a, some b => some (min a b)
  | some a, none => some a
  | none, d => d

/-- Ticks until the next channel event, at most `k`. -/
def nextDue (s : State) (k : Nat) : Nat :=
  s.tmr.chans.toList.foldl (fun m c => match c.due s.time.tbase (vget s.tmr.chans c.master).gate with
    | some d => min m (max d 1)
    | none => m) k

/-- TBASE and the SCLK count go on by `k` ticks; 32 ticks per SCLK edge while the FLL holds (R282, R284). -/
def TimeBlk.pass (k : Nat) (t : TimeBlk) : TimeBlk :=
  { t with tbase := (t.tbase + k) % 2 ^ 64, sclk := t.sclk + (t.phase + k) / 32, phase := (t.phase + k) % 32 }

/-- One edge, or `x.dt` ticks without an event before the last. -/
def tclkEdge (x : EdgeIn) (s : State) : State :=
  let tb := s.time.tbase
  { s with time := s.time.pass x.dt, tmr := tmrEdge { x with d16 := (tb + x.dt) / 16 - tb / 16 } s.tmr }

/-- `d` ticks, of which only the last may hold an event: the ticks before it, then its own edge, so that what an event takes from a count
is the count of its own edge (R292). -/
def runTo (d : Nat) (s : State) : State := tclkEdge { dt := 1 } (if d ≤ 1 then s else tclkEdge { dt := d - 1 } s)

/-- `k` ticks, channel event by channel event. -/
def runTicks : Nat → Nat → State → State
  | 0, _, s => s
  | f + 1, k, s =>
    if k = 0 then s
    else
      let d := nextDue s k
      runTicks f (k - d) (runTo d s)

/-- The module lives on for `k` TCLK ticks; while TCLK is stopped SCLK goes on alone (R297). -/
def advance (k : Nat) (s : State) : State :=
  if s.time.tclkRun then runTicks k k s
  else { s with time := { s.time with sclk := s.time.sclk + (s.time.phase + k) / 32, phase := (s.time.phase + k) % 32 } }

/-- The present instant in ticks, whether or not TCLK runs: while it is stopped, the SCLK count and the ticks since its edge. -/
def instant (s : State) : Nat := if s.time.tclkRun then s.time.tbase else now s + s.time.phase

/-- Advances TBASE to an instant; one that lies in the past changes nothing. -/
def advanceTo (t : Nat) (s : State) : State := advance (t - instant s) s

/-- What the block does while no command waits: one TCLK edge, or one SCLK edge while TCLK is stopped (notes/assumptions/1.md). -/
def idle (s : State) : State := if s.time.tclkRun then tclkEdge { dt := 1 } s else advance (32 - s.time.phase) s

/-- A write that waits has taken the staged high word it goes with (R291). -/
def Chan.unstage (c : Chan) (o : ChOp) : Chan :=
  match o with
  | .cmp _ => { c with cmpHi := none }
  | .pre _ => { c with preHi := none }
  | _ => c

/-- Software writes on the next TCLK edge (R288): while TCLK is stopped they wait for the edge that starts it again. -/
def tmrWrite (ops : List (Nat × ChOp)) (s : State) : State :=
  if s.time.tclkRun then tclkEdge { dt := 1, ops := ops } s
  else
    { s with tmr := { s.tmr with wait := s.tmr.wait ++ ops
                                 chans := ops.foldl (fun v o => vmod v o.1 fun c => c.unstage o.2) s.tmr.chans } }

end Sys2Proof.Machine
end

