-- ==== Sys2Proof/Machine/Recorder.lean ====
section
/-! DEFINITION. The event recorder at work (15_event_recorder R379 to R394): posting, writing and rewriting records, pages that fail. -/

namespace Sys2Proof.Machine

/-! ### Posting (R379, R396) -/

/-- Is an event code listed in R396? The overflow record is the recorder's own (R388). -/
def evListed (code : Nat) : Bool := evClass code != (false, 0) || code == 0x0202 || code == 0x0408

/-- `EVENT_POST`: a block posts an event with its instance and data bytes. -/
def execEventPost (code inst : Half) (data : List Byte) (s : State) : Host.Outcome State Fault Refusal :=
  .next (if evListed code.toNat then postEv code.toNat inst.toNat data s else s)

/-! ### Pages (R383, R392, R393) -/

/-- Logical page of a slot: 512 pages of the safety class, 128 of the kept and 128 of the circulating area. -/
def pageOf (area slot : Nat) : Nat := lget [0, 512, 640] area 0 + slot / 128

/-- Byte address in the MRAM of a page of the recorder's region. -/
def pageAddr (page : Nat) : Nat := 0x01380000 + 4096 * page

/-- Is a record of an area on a page, at a place among `lost`, and not the record that is being written? -/
def lostHere (area page keep : Nat) (lost : List (Fin 128)) (r : EvRec) : Bool :=
  pageOf area r.slot == page && r.seq != keep && lost.any fun i => i.val == r.slot % 128

/-- The records that cannot be read are gone, and cursors below them are marked; answers how many. -/
def dropLost (page keep : Nat) (lost : List (Fin 128)) (e : EvrBlk) : Nat × EvrBlk :=
  let goneS := e.recS.filter (lostHere 0 page keep lost)
  let goneK := e.recK.filter (lostHere 1 page keep lost)
  let goneC := e.recC.filter (lostHere 2 page keep lost)
  let gone (l : List EvRec) (q : Nat) : Bool := l.any fun r => r.seq == q
  ((goneS ++ goneK ++ goneC).length,
    { e with recS := e.recS.filter fun r => !lostHere 0 page keep lost r
             recK := e.recK.filter fun r => !lostHere 1 page keep lost r
             recC := e.recC.filter fun r => !lostHere 2 page keep lost r
             coS := e.coS.filter fun c => !gone goneS c.seq, coO := e.coO.filter fun c => !gone (goneK ++ goneC) c.seq })

/-- Entry to keeper-only mode (R393) with a reason: 0 no spare page, 1 directory. -/
def enterKonly (reason : Nat) (s : State) : State :=
  if s.evr.konly then s
  else
    let t := now s
    let r : EvRec := { seq := s.evr.seqS + 1, key := evKey 0x0B03 0 (leBytes 1 reason), first := t }
    journal 0x0009 6 r.bytes (evrEvt 6 { s with evr := { s.evr with konly := true, seqS := s.evr.seqS + 1 } })

/-- A logical page fails (R392): remapped to the lowest free spare page, or keeper-only mode when none is free. `keep` is the number of
the record whose write found it, 0 when a read did. -/
def pageFail (page keep : Nat) (syn : Byte) (lost : List (Fin 128)) (s : State) : State :=
  if s.evr.konly then s
  else
    let spare := s.evr.remap.length
    let (n, e) := dropLost page keep lost s.evr
    let s1 := journal 0x0008 5 (leBytes 1 0x47 ++ leBytes 4 (pageAddr page) ++ [syn]) { s with evr := { e with lost := satAdd e.lost n } }
    if 64 ≤ spare then enterKonly 0 s1
    else
      let s2 := evrEvt 4 { s1 with evr := { s1.evr with remap := s1.evr.remap ++ [(page, spare)] } }
      let s3 := journal 0x0007 4 (leBytes 4 (pageAddr page) ++ leBytes 1 spare) s2
      postEv 0x0B02 spare (leBytes 4 (4096 * page) ++ leBytes 1 (min 255 n)) (if n = 0 then s3 else evrEvt 5 s3)

/-- A fault found by a read of pages that hold records. -/
def readFault (x : PageFault) (s : State) : State := pageFail x.page.val 0 x.syn x.lost s

/-- Area and slot of a record by class and number. -/
def slotOfRec (safety : Bool) (seq : Nat) (e : EvrBlk) : Option (Nat × Nat) :=
  let f (area : Nat) (l : List EvRec) : Option (Nat × Nat) := (l.find? (·.seq == seq)).map fun r => (area, r.slot)
  if safety then f 0 e.recS else (f 1 e.recK).orElse fun _ => f 2 e.recC

/-- The write of a record has failed its verify (R392). -/
def writeFailed (safety : Bool) (seq : Nat) (w : RecWrite) (s : State) : State :=
  match slotOfRec safety seq s.evr with
  | some (a, k) => pageFail (pageOf a k) seq w.syn w.lost (verifyFailed s)
  | none => s

/-! ### Writing (R387) -/

/-- `RECORD_WRITE`: the next entry of the front queue at its instant, 2 ms after its first timestamp. A failed page is remapped within
the write; with no spare page left the entry is written as keeper-only mode writes it. -/
def recordWrite (w : RecWrite) (s : State) : State :=
  match firstDue s.evr.queue with
  | none => s
  | some x =>
    let s1 := advanceTo (x.first + 32000) s
    if w.ok || s1.evr.konly || s1.pwr.inhibit then writeEntry x s1
    else
      let safety := x.key.safety
      let (e, r) := storeRec x s1.evr
      match r with
      | none => writeEntry x s1
      | some r =>
        if s1.evr.remap.length < 64 then writeFailed safety r.seq w (writeEntry x s1)
        else
          match slotOfRec safety r.seq e with
          | some (a, k) => writeEntry x (pageFail (pageOf a k) 0 w.syn w.lost (verifyFailed s1))
          | none => s1

/-- `RECORD_WRITE`. -/
def execRecordWrite (w : RecWrite) (s : State) : Host.Outcome State Fault Refusal := .next (recordWrite w s)

/-- Instant from which a record with pending repeats is rewritten. -/
def EvCo.due (c : EvCo) : Nat := max (c.firstPend + 32000) c.prevEnd

/-- The record with pending repeats that is rewritten next. -/
def nextRewrite (l : List EvCo) : Option EvCo :=
  (l.filter fun c => c.pend != 0).foldl (fun a c => match a with
    | none => some c
    | some b => if c.due < b.due then some c else some b) none

/-- `RECORD_REWRITE`: the next record with pending repeats at its instant; under the NV-write inhibit the earlier image stays. -/
def recordRewrite (w : RecWrite) (s : State) : State :=
  match nextRewrite (s.evr.coS ++ s.evr.coO) with
  | none => s
  | some c =>
    let s1 := advanceTo c.due s
    if s1.pwr.inhibit then countInhibited s1
    else if s1.evr.konly then s1
    else
      let s2 := { s1 with evr := rewriteRec c (now s1) s1.evr }
      if w.ok then s2 else writeFailed c.key.safety c.seq w s2

/-- `RECORD_REWRITE`. -/
def execRecordRewrite (w : RecWrite) (s : State) : Host.Outcome State Fault Refusal := .next (recordRewrite w s)

/-- Earliest last occurrence in the coalescing tables. -/
def oldestCo (l : List EvCo) : Option Nat := l.foldl (fun a c => match a with | none => some c.last | some t => some (min t c.last)) none

/-- `COALESCE_EXPIRE`: 10 s after its last occurrence a record leaves the coalescing table (R386). -/
def coalesceExpire (s : State) : State :=
  match oldestCo (s.evr.coS ++ s.evr.coO) with
  | none => s
  | some t =>
    let s1 := advanceTo (t + 160000000) s
    let stay (c : EvCo) : Bool := now s1 < c.last + 160000000
    let e := if s1.pwr.inhibit || s1.evr.konly then s1.evr
      else ((s1.evr.coS ++ s1.evr.coO).filter fun c => c.pend != 0 && !stay c).foldl (fun e c => rewriteRec c (now s1) e) s1.evr
    { s1 with evr := { e with coS := e.coS.filter stay, coO := e.coO.filter stay } }

/-- `COALESCE_EXPIRE`. -/
def execCoalesceExpire (s : State) : Host.Outcome State Fault Refusal := .next (coalesceExpire s)

end Sys2Proof.Machine
end

