-- ==== Sys2Proof/Machine/Timers.lean ====
section
/-! DEFINITION. The timer array's registers and commands (11_timer_array R285 to R299). -/

namespace Sys2Proof.Machine

/-- Bits of `TMR_CFG` that a write sets: all but the reserved ones and `OWN`. -/
def cfgMask : Word := 0x03FFFFFF#32

/-- Does a value of `TMR_CFG` for channel `n` name a reserved encoding (R9, R293, R298)? DESIGN CHOICE (notes/assumptions/83.md): a `MASTER`
that no field of the value uses (`CLK`, `SMODE`, `CAPSRC`) names no master, so it is taken as written, whatever its number. -/
def cfgReserved (n : Nat) (v : Word) : Bool :=
  let c : Chan := { cfg := v }
  c.edge == 3 || c.smode == 3 || c.mevt == 3 || (c.usesMaster && n ≤ c.master) || (c.wake && 2 ≤ c.clk)

/-- Puts the bits of `v` selected by a mask into `w`. -/
def putBits (mask v w : Word) : Word := (w &&& ~~~mask) ||| (v &&& mask)

/-- `TMR_CFG` after a write: a field with a reserved encoding keeps its old value, and the rest of the write takes effect (R9). A master
that is not below the channel keeps `MASTER` alone (R293); a `WAKE` on another clock keeps `WAKE` (R298). -/
def cfgMerge (n : Nat) (old v : Word) : Word :=
  let c : Chan := { cfg := v }
  let keep : Word :=
    (if c.edge == 3 then 0x60#32 else 0) ||| (if c.smode == 3 then 0x3000#32 else 0) ||| (if c.mevt == 3 then 0xC000#32 else 0)
    ||| (if c.usesMaster && n ≤ c.master then 0x00000F80#32 else 0) ||| (if c.wake && 2 ≤ c.clk then 0x40000#32 else 0)
  putBits (cfgMask &&& ~~~keep) v old

/-- A 48-bit value from its words. -/
def word48 (hi : Half) (lo : Word) : Word48 := hi ++ lo

/-- Upper half of a 48-bit value. -/
def hi48 (v : Word48) : Half := v.extractLsb' 32 16
/-- Lower word of a 48-bit value. -/
def lo48 (v : Word48) : Word := v.setWidth 32

/-- `TMR_ST` of a channel. -/
def Chan.stat (c : Chan) : Nat :=
  at1 c.match_ 0 + at1 c.capt 1 + at1 c.ovr 2 + at1 c.late 3 + at1 c.carry 4 + at1 c.arm 5 + at1 c.out 6 + 256 * c.mcnt.toNat

/-- The writes that a value of `TMR_CMD` asks for. -/
def cmdOps (v : Word) : List ChOp :=
  (if v.getLsbD 0 then [.arm] else []) ++ (if v.getLsbD 1 then [.disarm] else []) ++
  (if v.getLsbD 2 then [.clear] else []) ++ (if v.getLsbD 3 then [.intNow] else [])

/-- A write to a register of channel `n` at its offset, as the register decodes it. A `_HI` word is only staged (R291). -/
def chanWrite (n o : Nat) (v : Word) (s : State) : State :=
  let c := vget s.tmr.chans n
  let put (ops : List ChOp) : State := tmrWrite (ops.map fun x => (n, x)) s
  match o with
  | 0x00 => put [.cfg (cfgMerge n c.cfg v)]
  | 0x04 => put [.st v]
  | 0x10 => put [.cmp (word48 (c.cmpHi.getD (hi48 c.cmp)) v)]
  | 0x14 => { s with tmr := { s.tmr with chans := vset s.tmr.chans n { c with cmpHi := some (v.setWidth 16) } } }
  | 0x18 =>
    let h := c.preHi.getD (hi48 c.pre)
    put [.pre (word48 h v)]
  | 0x1C =>
    -- an interval of 2^47 or more is reserved: the half keeps its old value (R9)
    if v.getLsbD 15 then s else { s with tmr := { s.tmr with chans := vset s.tmr.chans n { c with preHi := some (v.setWidth 16) } } }
  | 0x38 => put [.miss v]
  | 0x3C => put (cmdOps v)
  | _ => s

/-- Offsets of a channel's registers that have a writable field. -/
def chanWritable (o : Nat) : Bool := o ∈ [0x00, 0x04, 0x10, 0x14, 0x18, 0x1C, 0x38, 0x3C]

/-- Bits of `LINKLATCH` that belong to owned channels. -/
def ownedMask (s : State) : Word :=
  BitVec.ofNat 32 ((List.range 32).map fun n => at1 (vget s.tmr.chans n).own n).sum

/-- A write to `TMR_CTRL`: the bits of free channels take effect; those of owned ones are staged by the session (R358). -/
def linkWrite (v : Word) (s : State) : State := tmrWrite [(0, .link v)] s

/-- What a register of the window `TMR` holds for the session: the value staged last, else the one in force. -/
def stagedTmr (o : Nat) (cur : Word) (s : State) : Word := ((s.sess.tmr.find? (·.1 == o)).map (·.2)).getD cur

/-- Does a requester write owned timer registers: it stages them into the session's configuration (R358). -/
def stageTmr (o : Nat) (v : Word) (s : State) : State :=
  { s with sess := { s.sess with tmr := (s.sess.tmr.filter (·.1 != o)) ++ [(o, v)], cfgChecked := false } }

/-- The value that a write to an owned channel's register stages: a field with a reserved encoding, and `OWN`, keep what stood staged
or in force (R6, R9). -/
def stagedValue (n o : Nat) (v : Word) (s : State) : Word :=
  let c := vget s.tmr.chans n
  match o with
  | 0x00 => cfgMerge n (stagedTmr (0x100 + 0x40 * n) c.cfg s) v
  | 0x1C => if v.getLsbD 15 then stagedTmr (0x100 + 0x40 * n + 0x1C) ((hi48 c.pre).setWidth 32) s else v
  | _ => v

/-- A direct write to a channel register: a free channel takes it; an owned one only through a session, which stages it
(R16, R288, R358). The flags of `TMR_ST` are W1C and clear at any time (R16). -/
def chanAccess (n o : Nat) (v : Word) (s : State) : State :=
  let c := vget s.tmr.chans n
  if !c.own || o == 0x04 then chanWrite n o v s
  else if s.sess.owner.isSome then stageTmr (0x100 + 0x40 * n + o) (stagedValue n o v s) s
  else s

/-- Channels that count the wraps, matches or captures of channel `n` in cascade, directly or through others (R295). -/
def cascadeOf (v : Vector Chan 32) (n : Nat) : List Nat :=
  (List.range 32).foldl (fun acc k =>
    let c := vget v k
    if c.clk == 3 && (c.master == n || c.master ∈ acc) && n < k then acc ++ [k] else acc) []

/-- Read of `CNT_LO`: latches `CNT_HI`, and under `LINKLATCH` the `CNT` of every cascade slave into its `LAT` (R295). -/
def readCnt (n : Nat) (s : State) : Nat × State :=
  let c := vget s.tmr.chans n
  let v1 := vset s.tmr.chans n { c with cntHi := hi48 c.cnt }
  let v2 := if s.tmr.link.getLsbD n then
      (cascadeOf s.tmr.chans n).foldl (fun v k => vmod v k fun d => { d with lat := d.cnt }) v1
    else v1
  ((lo48 c.cnt).toNat, { s with tmr := { s.tmr with chans := v2 } })

/-- Read of `CAP_LO`: latches `CAP_HI` and clears `CAPT` (R292). With a capture event on its own TCLK edge, that edge passes: the read
returns the earlier value, and the new one is stored with `CAPT` = 1 and without `OVR`, an event like any other for slaves and host. -/
def readCap (n : Nat) (onEdge : Bool) (s : State) : Nat × State :=
  let c := vget s.tmr.chans n
  ((lo48 c.cap).toNat,
    if onEdge && s.time.tclkRun then tclkEdge { dt := 1, capt := some n, ops := [(n, .takeCap)] } s
    else { s with tmr := { s.tmr with chans := vset s.tmr.chans n { c with capHi := hi48 c.cap, capt := false } } })

/-- Read of `INT_ACT_LO`: latches `INT_ACT_HI`. -/
def readAct (n : Nat) (s : State) : Nat × State :=
  let c := vget s.tmr.chans n
  ((lo48 c.act).toNat, { s with tmr := { s.tmr with chans := vset s.tmr.chans n { c with actHi := hi48 c.act } } })

/-- Read of `TBASE_LO`: latches `TBASE_HI` on the same edge; while TCLK is stopped the value is made up from SCLK (R285). -/
def readTbase (s : State) : Nat × State :=
  let t := now s
  (t % 2 ^ 32, { s with time := { s.time with tbaseHiLatched := BitVec.ofNat 32 (t / 2 ^ 32) } })

/-- Is a `WAKE` compare due within `k` ticks (R296)? -/
def wakeDue (k : Nat) (s : State) : Bool :=
  vany s.tmr.chans fun c => c.wake && c.clk < 2 && c.en && c.arm &&
    (match c.matchDue s.time.tbase (vget s.tmr.chans c.master).gate with | some d => d ≤ k | none => false)

/-- An enabled counting-input channel vetoes sleep (R287). -/
def ciVeto (s : State) : Bool := vany s.tmr.chans fun c => c.en && c.clk == 2

/-! ### Commands -/

/-- `ARM`: arms the compare of channel `n` (R289). -/
def execArm (n : Fin 32) (s : State) : Host.Outcome State Fault Refusal := .next (chanAccess n.val 0x3C 1#32 s)

/-- `DISARM`: a match on the same edge still fires (R291). -/
def execDisarm (n : Fin 32) (s : State) : Host.Outcome State Fault Refusal := .next (chanAccess n.val 0x3C 2#32 s)

/-- `CNT_CLR`: the clear wins over a count on the same edge (R286). -/
def execCntClr (n : Fin 32) (s : State) : Host.Outcome State Fault Refusal := .next (chanAccess n.val 0x3C 4#32 s)

/-- `INT_NOW` (R290). -/
def execIntNow (n : Fin 32) (s : State) : Host.Outcome State Fault Refusal := .next (chanAccess n.val 0x3C 8#32 s)

/-- `CMP_LO_WRITE`: applies the staged `CMP_HI` on the same edge (R291). -/
def execCmpLoWrite (n : Fin 32) (v : Word) (s : State) : Host.Outcome State Fault Refusal := .next (chanAccess n.val 0x10 v s)

/-- `INT_PRE_LO_WRITE`: applies the staged `INT_PRE_HI` on the same edge (R291). -/
def execIntPreLoWrite (n : Fin 32) (v : Word) (s : State) : Host.Outcome State Fault Refusal := .next (chanAccess n.val 0x18 v s)

/-- Answers a register read: its word stands in `rdata`. -/
def answerRead (r : Nat × State) : Host.Outcome State Fault Refusal :=
  .next { r.2 with rdata := [BitVec.ofNat 32 r.1] }

/-- `CNT_LO_READ` (R295). -/
def execCntLoRead (n : Fin 32) (s : State) : Host.Outcome State Fault Refusal := answerRead (readCnt n.val s)

/-- `CAP_LO_READ`, with a capture event on the edge of the read or not (R292). -/
def execCapLoRead (n : Fin 32) (onEdge : Bool) (s : State) : Host.Outcome State Fault Refusal := answerRead (readCap n.val onEdge s)

/-- `TBASE_LO_READ` (R285). -/
def execTbaseLoRead (s : State) : Host.Outcome State Fault Refusal := answerRead (readTbase s)

/-- `INT_ACT_LO_READ` (R11). -/
def execIntActLoRead (n : Fin 32) (s : State) : Host.Outcome State Fault Refusal := answerRead (readAct n.val s)

/-- Ticks until channel `n` is next matched by its own clock, or passed already: 1. -/
def matchIn (n : Nat) (s : State) : Nat :=
  let c := vget s.tmr.chans n
  (c.matchDue s.time.tbase (vget s.tmr.chans c.master).gate).getD 0

/-- `TMR_MATCH`: TCLK runs on to the edge at which channel `n` matches by its own clock (R289); without such an edge ahead
nothing happens. -/
def execTmrMatch (n : Fin 32) (s : State) : Host.Outcome State Fault Refusal :=
  .next (if s.time.tclkRun then advance (matchIn n.val s) s else s)

/-- `TMR_CAPTURE`: a capture event of channel `n` on the next edge (R292); none with `CAPSRC` 0b00. -/
def execTmrCapture (n : Fin 32) (s : State) : Host.Outcome State Fault Refusal :=
  .next (if s.time.tclkRun then tclkEdge { dt := 1, capt := some n.val } s else s)

/-- Ticks until channel `n` wraps by its own clock (R286). -/
def wrapIn (n : Nat) (s : State) : Nat :=
  let c := vget s.tmr.chans n
  (c.wrapDue s.time.tbase (vget s.tmr.chans c.master).gate).getD 0

/-- `TMR_WRAP`: TCLK runs on to the edge at which channel `n` wraps by its own clock (R286). -/
def execTmrWrap (n : Fin 32) (s : State) : Host.Outcome State Fault Refusal :=
  .next (if s.time.tclkRun then advance (wrapIn n.val s) s else s)

end Sys2Proof.Machine
end

