-- ==== Sys2Proof/Machine/Memory.lean ====
section
/-! DEFINITION. Memory protection (18_memory_protection R445 to R456): the symbol code, error reports, spare rows, the row test
and the scrub periods. -/

namespace Sys2Proof.Machine

/-! ### The symbol code RS(11,8) over GF(2⁴) (R445 to R447) -/

/-- Product in GF(2⁴) with x⁴ + x + 1. -/
def gfMul (a b : Nat) : Nat :=
  let p := (List.range 4).foldl (fun acc i => if b.testBit i then acc.xor (a * 2 ^ i) else acc) 0
  [6, 5, 4].foldl (fun v i => if v.testBit i then v.xor (0x13 * 2 ^ (i - 4)) else v) p

/-- Power of α = 2. -/
def gfPow : Nat → Nat
  | 0 => 1
  | n + 1 => gfMul 2 (gfPow n)

/-- The 12 message symbols of a word and its folded address. -/
def symbolsOf (f d : Nat) : List Nat := ((List.range 8).map fun i => bits d (4 * i + 3) (4 * i)) ++
  (List.range 4).map fun j => bits f (4 * j + 3) (4 * j)

/-- Remainder of x³·m(x) mod g(x): one message symbol, highest first, into the register (r2, r1, r0). -/
def rsStep (r : Nat × Nat × Nat) (m : Nat) : Nat × Nat × Nat :=
  let q := r.1.xor m
  (r.2.1.xor (gfMul q 0xE), r.2.2.xor (gfMul q 0xD), gfMul q 0xC)

/-- Check symbols r0, r1, r2. -/
def rsCheck (f d : Nat) : List Nat :=
  let r := (symbolsOf f d).reverse.foldl rsStep (0, 0, 0)
  [r.2.2, r.2.1, r.1]

/-- The 44-bit stored word: data, then the inverted check symbols. -/
def rsEncode (f d : Nat) : BitVec 44 :=
  let r := rsCheck f d
  BitVec.ofNat 44 (d % 2 ^ 32 + (lget r 0 0).xor 15 * 2 ^ 32 + (lget r 1 0).xor 15 * 2 ^ 36 + (lget r 2 0).xor 15 * 2 ^ 40)

/-- Outcome of a read (R447). -/
inductive RsRead where
  | clean (d : Nat)
  | corrected (d pos : Nat)
  | address
  | bad
deriving DecidableEq, Repr, Inhabited

/-- Reads a stored word at a folded address. -/
def rsDecode (f : Nat) (w : BitVec 44) : RsRead :=
  let v := w.toNat
  let chk := (List.range 3).map fun k => (bits v (35 + 4 * k) (32 + 4 * k)).xor 15
  let code := chk ++ symbolsOf f (v % 2 ^ 32)
  let syn (k : Nat) : Nat := (code.mapIdx fun i c => gfMul c (gfPow (k * i % 15))).foldl Nat.xor 0
  let s1 := syn 1; let s2 := syn 2; let s3 := syn 3
  if s1 = 0 ∧ s2 = 0 ∧ s3 = 0 then .clean (v % 2 ^ 32)
  else if s1 = 0 ∨ s2 = 0 ∨ s3 = 0 then .bad
  else
    match (List.range 15).find? fun p => gfMul s1 (gfPow p) == s2 && gfMul s2 (gfPow p) == s3 with
    | none => .bad
    | some p =>
      if 11 ≤ p then .address
      else
        let e := (List.range 16).find? fun e => gfMul e (gfPow p) == s1
        let x := e.getD 0
        .corrected (if 3 ≤ p then (v % 2 ^ 32).xor (x * 2 ^ (4 * (p - 3))) else v % 2 ^ 32) p

/-- Folded address of an MRAM word (R446). -/
def foldMram (w : Nat) : Nat := (w % 65536).xor ((bits w 22 16) * 512 % 65536)
/-- Folded address of a graph-pool half word. -/
def foldGraph (a : Nat) (high : Bool) : Nat :=
  let f := (a % 65536).xor (bits a 19 16 * 4096 % 65536)
  if high then 65535 - f else f
/-- Folded address of a state-pool cell; bit 15 is the bank parity. -/
def foldState (c : Nat) (k : Nat) : Nat := c % 32768 + 32768 * (k % 2)

/-! ### Reports (R456) -/

/-- An error report: corrected at a position, uncorrectable, or an address error; counts, `MEM_LAST`, the event. Instances
0x40 to 0x4A are the MRAM. -/
def memReport (inst : Nat) (r : RsRead) (addr : Nat) (s : State) : State :=
  let mram := 0x40 ≤ inst
  let put (kind pos evb : Nat) (s : State) : State :=
    { s with mem := { s.mem with lastInst := inst, lastKind := kind, lastPos := pos, lastAddr := BitVec.ofNat 32 addr
                                 evt := s.mem.evt ||| BitVec.ofNat 32 evb } }
  let data := leBytes 4 addr
  match r with
  | .clean _ => s
  | .corrected _ p =>
    let s1 := put 0 p (if mram then 128 else 1) s
    let s2 := if mram then { s1 with mem := { s1.mem with mCorr := satUp s1.mem.mCorr } }
      else { s1 with mem := { s1.mem with pCorr := satUp s1.mem.pCorr } }
    postEv 0x0C02 inst data s2
  | .address =>
    let s1 := put 2 0 (if mram then 256 + 4 else 2 + 4) s
    let s2 := if mram then { s1 with mem := { s1.mem with mUncorr := satUp s1.mem.mUncorr } }
      else { s1 with mem := { s1.mem with pUncorr := satUp s1.mem.pUncorr } }
    postEv 0x0C03 inst data s2
  | .bad =>
    let s1 := put 1 0 (if mram then 256 else 2) s
    let s2 := if mram then { s1 with mem := { s1.mem with mUncorr := satUp s1.mem.mUncorr } }
      else { s1 with mem := { s1.mem with pUncorr := satUp s1.mem.pUncorr } }
    postEv 0x0C03 inst data s2

/-! ### Pool banks (R448 to R450) -/

/-- Rows of a bank: 1,024 in the graph pool, 512 in the state pool. -/
def bankRows (b : Nat) : Nat := if b < 16 then 1024 else 512
/-- Spare rows that take failing rows: one of each bank is the test row. -/
def bankSpares (b : Nat) : Nat := if b < 16 then 16 else 8
/-- `SPARE_LEFT`. -/
def spareLeft (b : Nat) (k : MBank) : Nat := bankSpares b - k.rows.length

/-- Rows tested per cycle: ⌈rows × TCYC / 5 s⌉ with TCYC in µs (R449). -/
def rowsPerCycle (b us : Nat) : Nat := (bankRows b * us + 4999999) / 5000000

/-- A failing row is spared (R450): the lowest free spare row takes it for good; with none free the bank is degraded. -/
def spareRow (b row : Nat) (s : State) : State :=
  let k := vget s.mem.banks b
  if row ∈ k.rows then s
  else if k.rows.length < bankSpares b then
    let s1 := { s with mem := { s.mem with banks := vset s.mem.banks b { k with rows := k.rows ++ [row], corr := k.corr.filter (·.1 != row) } } }
    postEv 0x0C04 b (leBytes 2 row) (memEvt 3 s1)
  else
    let s1 := memEvt 4 { s with mem := { s.mem with banks := vset s.mem.banks b { k with degraded := true } } }
    postEv 0x0C03 b (leBytes 4 (row * 64)) s1

/-- Marks a state-pool cell as poison: an uncorrectable word in a bank that holds one (R450). -/
def poisonCell (bank addr : Nat) (s : State) : State :=
  if bank < 16 then s
  else
    let r := (bank - 16) / 4
    { s with lane := { s.lane with regions := vmod s.lane.regions r fun g =>
        { g with bad := ((bank - 16) % 4, 0x8000 + addr % 32768) :: g.bad.filter (· ≠ ((bank - 16) % 4, 0x8000 + addr % 32768)) } } }

/-- A pool finding handled (R450, R456): reports, the third corrected pass within 24 h, sparing, poison in the state pool; a
graph-pool word is rewritten from the active image. -/
def poolFound (x : PoolFind) (s : State) : State :=
  match x with
  | .march b row => if b < 36 then spareRow b row (memEvt 5 s) else s
  | .corr b a p =>
    if 36 ≤ b then s else
    let s1 := memReport b (.corrected 0 p) a s
    let t := now s
    let k := vget s1.mem.banks b
    -- a pass reads a row once: what it finds in it stands under one tick
    let l := (k.corr.filter fun e => t - e.2 < 24 * 3600 * 16000000 && e != (a / 64, t)) ++ [(a / 64, t)]
    let s2 := { s1 with mem := { s1.mem with banks := vset s1.mem.banks b { k with corr := l } } }
    if 3 ≤ (l.filter (·.1 == a / 64)).length then spareRow b (a / 64) s2 else s2
  | .bad b a => if b < 36 then poisonCell b a (spareRow b (a / 64) (memReport b .bad a s)) else s
  | .addr b a => if b < 36 then poisonCell b a (spareRow b (a / 64) (memReport b .address a s)) else s

/-- The row test of a cycle's P4 (R449): every bank goes on by its rows; a bank that wraps has completed a pass, which ends its run of
missed periods (R452). -/
def rowTest (us : Nat) (s : State) : State :=
  { s with mem := { s.mem with banks := vmapi (fun b k =>
      let n := k.testRow.toNat + rowsPerCycle b us
      { k with testRow := BitVec.ofNat 10 (n % bankRows b), passed := k.passed || bankRows b ≤ n
               missed := if bankRows b ≤ n then 0 else k.missed }) s.mem.banks } }

/-- `SCRUB_PERIOD_END` of a pool bank, or of the MRAM: a missed period counts; from the third on it is recorded (R452). -/
def execScrubPeriodEnd (bank : Option (Fin 36)) (s : State) : Host.Outcome State Fault Refusal :=
  let note (inst : Nat) (m : Byte) (s : State) : State :=
    let s1 := memEvt 6 s
    if 3 ≤ m.toNat then postEv 0x0C01 inst (leBytes 1 m.toNat) s1 else s1
  .next <| match bank with
  | some b =>
    let k := vget s.mem.banks b.val
    let m := if k.passed then 0 else satUp k.missed
    let s1 := { s with mem := { s.mem with banks := vset s.mem.banks b.val { k with passed := false, missed := m } } }
    if k.passed then s1 else note b.val m s1
  | none =>
    let m := if s.mem.scrubPassed then 0 else satUp s.mem.scrubMissed
    let s1 := { s with mem := { s.mem with scrubPassed := false, scrubMissed := m } }
    -- the MRAM as a whole is reported under its first region
    if s.mem.scrubPassed then s1 else note 0x40 m s1

/-- Region instance 0x40 to 0x4A of an MRAM word address (R453, R456); the two copies of a pair count as one. -/
def mramInst (w : Nat) : Nat :=
  let b := 4 * w
  if b < 0x00400000 then 0x40 else if b < 0x00800000 then 0x41 else if b < 0x00C00000 then 0x42
  else if b < 0x01000000 then 0x43 else if b < 0x01200000 then 0x44 else if b < 0x01280000 then 0x45
  else if b < 0x01380000 then 0x46 else if b < 0x01B80000 then 0x47 else if b < 0x01F80000 then 0x48
  else if b < 0x01FC0000 then 0x49 else 0x4A

/-- The page of the recorder that an MRAM word lies in, by its logical number, with the word's record on it: its own page while that is
not remapped, or the page that the spare page stands for. -/
def recorderPage (w : Nat) (e : EvrBlk) : Option (Nat × Fin 128) :=
  let o := 4 * w - 0x01380000
  let p := o / 4096
  let k : Fin 128 := ⟨o % 4096 / 32, by omega⟩
  let spareOf (g : Nat) : Option Nat := ((e.remap.filter (·.1 == g)).getLast?).map (·.2)
  if 4 * w < 0x01380000 ∨ 832 ≤ p then none
  else if p < 768 then (if (spareOf p).isNone then some (p, k) else none)
  else match e.remap.find? (·.2 == p - 768) with
    | some (g, _) => if spareOf g == some (p - 768) then some (g, k) else none
    | none => none

/-- An uncorrectable word that the scrub finds in the recorder's pages fails its page (R392). -/
def scrubPage (w : Nat) (r : RsRead) (syn : Byte) (s : State) : State :=
  match r with
  | .address | .bad => (match recorderPage w s.evr with | some (p, k) => pageFail p 0 syn [k] s | none => s)
  | _ => s

/-- `MRAM_SCRUB`: one paced scrub read of the next word, as it is stored, with the syndrome that a failure journals (R451). A
correctable word is written back, unless the inhibit holds; the data read by everyone else are the corrected ones already. -/
def execMramScrub (raw : BitVec 44) (syn : Byte) (s : State) : Host.Outcome State Fault Refusal :=
  let w := s.mem.scrubPos.toNat
  let r := rsDecode (foldMram w) raw
  let s1 := scrubPage w r syn (memReport (mramInst w) r w s)
  let s2 := match r with
    | .corrected _ _ => if s.pwr.inhibit then countInhibited s1 else s1
    | _ => s1
  let done := s.mem.scrubPos == BitVec.allOnes 23
  .next { s2 with mem := { s2.mem with scrubPos := s.mem.scrubPos + 1, scrubPassed := s2.mem.scrubPassed || done
                                       scrubMissed := if done then 0 else s2.mem.scrubMissed } }

/-- `MEM_LAST_READ`: latches `MEM_LAST_ADDR` (R11). -/
def readMemLast (s : State) : Nat × State :=
  (s.mem.lastInst % 256 + 256 * (s.mem.lastKind % 4) + 1024 * (s.mem.lastPos % 16),
   { s with mem := { s.mem with lastAddrLatched := s.mem.lastAddr } })

/-- `MEM_LAST_READ`. -/
def execMemLastRead (s : State) : Host.Outcome State Fault Refusal := answerRead (readMemLast s)

end Sys2Proof.Machine
end

