-- ==== Sys2Proof/Config.lean ====
section
/-! DEFINITION. The free values: what the spec leaves open, as constants without a body. Each is named in the assumption log. -/

namespace Sys2Proof.Config

/-- The value drawn with number n of the model's counter where the spec states no result for ordinary data (notes/assumptions/6.md). -/
opaque freeWord : Nat → Word

/-- The bytes of the request `CONFIG` (R249) for a node: k, s, module ring address, period code, plan speed, O_IN, Δ, O_MG in ns, W, CID,
filter times. The spec names the fields and not their widths (notes/assumptions/8.md). -/
opaque nodeConfig : List Nat → List Byte → List Nat → List Byte

/-- Does supervisor firmware carry a valid signature, and its version: the file's layout is not in the spec
(notes/assumptions/9.md). -/
opaque supSigned : Mem 8 → Bool
opaque supVersion : Mem 8 → Half
/-- The same of lane microcode. -/
opaque ucodeSigned : Mem 8 → Bool
opaque ucodeVersion : Mem 8 → Byte
/-- The lane microcode that a supervisor bank carries (R478). -/
opaque bankUcode : Mem 8 → Mem 8
/-- The same of keeper firmware. -/
opaque keeperSigned : Mem 8 → Bool
opaque keeperVersion : Mem 8 → Half

/-- Random bytes that the module draws as the salt of a password (R421): the n-th draw. -/
opaque salt : Nat → BitVec 128

end Sys2Proof.Config
end

