-- ==== Sys2Proof/Machine/Fuses.lean ====
section
/-! DEFINITION. Fuses (16_fuses_lifecycle R397 to R415): reading, sensing, the policy fields, programming. -/

namespace Sys2Proof.Machine

/-! ### Groups -/

/-- First logical bit of a group (R398). -/
def grpLo (g : Nat) : Nat := lget [0, 512, 2048, 2304, 2560, 3840, 4096, 6144] g 8192
/-- Length of a group. -/
def grpLen (g : Nat) : Nat := lget [512, 1536, 256, 256, 1280, 256, 2048, 256] g 0

/-- A group's bits in a read of all fuses, as a number. -/
def grpOf (r : BitVec 8192) (g : Nat) : Nat := bits r.toNat (grpLo g + grpLen g - 1) (grpLo g)

/-- Check word computed over the data bits of a group value; in G2 the step fields count as 0 (R399). -/
def grpCheck (g v : Nat) : Half :=
  let n := grpLen g - 17
  let d := v % 2 ^ n
  let d := if g = 2 then d % 2 ^ 128 + (d / 2 ^ 192) * 2 ^ 192 else d
  crc16 (BitVec.ofNat 8 g :: leBytes ((n + 7) / 8) d)

/-- Stored check word of a group value. -/
def grpStored (g v : Nat) : Nat := bits v (grpLen g - 2) (grpLen g - 17)
/-- Lock fuse of a group value. -/
def grpLock (g v : Nat) : Bool := bitOf v (grpLen g - 1)
/-- Does the group verify (R399)? -/
def grpVerifies (g v : Nat) : Bool := grpStored g v == (grpCheck g v).toNat

/-! ### Reading -/

/-- A read of the eight kinds that sensing takes: 0 N, 1 N again, 2 ML, 3 MH, 4 to 6 the fresh N, ML and MH of the majority. A
bit that reads differently in one of them is in `noise` (read, logical bit). -/
def fuseRead (f : FuseBlk) (k : Nat) (noise : List (Nat × Nat)) : BitVec 8192 :=
  let base := match k with
    | 2 | 5 => f.a.ml ||| f.b.ml
    | 3 | 6 => f.a.mh ||| f.b.mh
    | _ => f.a.n ||| f.b.n
  noise.foldl (fun r p => if p.1 = k ∧ p.2 < 8192 then r ^^^ BitVec.twoPow 8192 p.2 else r) base

/-- Number of 1 bits among the `n` low bits. -/
def ones (v n : Nat) : Nat := if v % 2 ^ n = 0 then 0 else ((List.range n).filter v.testBit).length

/-- Repair entry `e` of a G6 value (R410). -/
def repairEntry (g6 e : Nat) : Nat := bits g6 (24 * e + 23) (24 * e)

/-- Does an entry check (R410)? -/
def entryChecks (w : Nat) : Bool :=
  bitOf w 0 && ones (bits w 14 1) 14 % 2 == 1 && bits w 23 16 == 255 - bits w 8 1

/-- Logical bits of G0 to G5 and G7 that checking entries force to 1. -/
def repairedBits (g6 : Nat) : List Nat :=
  (((List.range 80).map (repairEntry g6)).filter entryChecks).map (fun w => bits w 13 1) |>.filter
    fun b => b < 4096 || (6144 ≤ b && b < 6400)

/-- A read with the repairs applied. -/
def applyRepairs (g6 : Nat) (r : BitVec 8192) : BitVec 8192 :=
  if g6 = 0 then r else (repairedBits g6).foldl (fun r b => r ||| BitVec.twoPow 8192 b) r

/-- Step fields taken, from S1 (R401). -/
def stepTaken (g2 i : Nat) : Bool := 9 ≤ ones (bits g2 (143 + 16 * i) (128 + 16 * i)) 16

/-- Life-cycle state by the step fields, and whether a taken field follows one not taken. -/
def stepCount (g2 : Nat) : Nat × Bool :=
  let t := (List.range 4).map (stepTaken g2)
  let n := (t.takeWhile id).length
  (n, (t.drop n).any id)

/-- A group's sensing (R406, R411): its group record and the value taken. -/
def senseGrp (g : Nat) (rd : Nat → Nat) (old : FGrp) : FGrp × Nat :=
  let n := rd 0; let ml := rd 2; let mh := rd 3
  let maj := (rd 4 &&& rd 5) ||| (rd 4 &&& rd 6) ||| (rd 5 &&& rd 6)
  let diff := (n ^^^ ml) ||| (n ^^^ mh)
  let lock := grpLock g n || grpLock g ml || grpLock g mh
  let marg := min (ones diff (grpLen g)) 65535
  let tries := [n, rd 1, ml, mh, maj]
  let mk (st att v : Nat) : FGrp × Nat :=
    ({ st := st, locked := lock, pend := old.pend, attempt := att, marg := BitVec.ofNat 16 marg
       stored := BitVec.ofNat 16 (grpStored g v), computed := grpCheck g v }, v)
  let valid := if marg = 0 then 1 else 2
  if mh = 0 then mk 0 7 n
  else if g = 6 ∧ !lock then
    (if (List.range 80).any fun e => bitOf n (24 * e) then mk valid 0 n else mk 0 7 n)
  else match tries.findIdx? (grpVerifies g) with
    | some i =>
      let v := lget tries i n
      if g = 2 ∧ (stepCount v).2 then mk (if lock then 4 else 3) i v else mk valid i v
    | none => mk (if lock then 4 else 3) 7 n

/-- Sensing of all groups, or of those in `only`; the shadow takes the value of each. -/
def senseAll (noise : List (Nat × Nat)) (only : List Nat) (f : FuseBlk) : FuseBlk :=
  let raw (k : Nat) : BitVec 8192 := fuseRead f k noise
  let g6 := grpOf (raw 0) 6
  let rds : List (BitVec 8192) := (List.range 7).map fun k => applyRepairs g6 (raw k)
  only.foldl (fun f g =>
    let rd (k : Nat) : Nat := if g = 6 then grpOf (raw k) 6 else grpOf (lget rds k 0) g
    let (r, v) := senseGrp g rd (vget f.grps g)
    let keep := ~~~(BitVec.ofNat 8192 ((2 ^ grpLen g - 1) * 2 ^ grpLo g))
    { f with grps := vset f.grps g r, shadow := (f.shadow &&& keep) ||| BitVec.ofNat 8192 (v * 2 ^ grpLo g)
             evt := f.evt ||| BitVec.ofNat 32 (at1 (r.st == 2) 0 + at1 (r.st == 3 || r.st == 4) 1) }) f

/-- Repair entries used. -/
def g6Used (f : FuseBlk) : Nat := ((List.range 80).filter fun e => bitOf (grpOf f.shadow 6) (24 * e)).length

/-- Hash of the shadow of all eight groups, their states and their lock flags (R408). -/
def shadowHash (f : FuseBlk) : List Byte :=
  sha256 (leBytes 800 (f.shadow.toNat % 2 ^ 6400) ++ (f.grps.toList.map fun g => BitVec.ofNat 8 g.st) ++
    f.grps.toList.map fun g => BitVec.ofNat 8 (b2n g.locked))

/-- The life-cycle state that the sensed G2 gives (R401, R412): blank `RAW`; invalid `FIELD` by default. -/
def lifeOf (f : FuseBlk) : Nat × Bool :=
  match (vget f.grps 2).st with
  | 0 => (0, false)
  | 1 | 2 => ((stepCount (grpOf f.shadow 2)).1, false)
  | _ => (3, true)

/-- The contents sensed come into force: start-up step 2 and 3 (R415). -/
def takeForce (f : FuseBlk) : FuseBlk :=
  { f with live := f.shadow, liveSt := f.grps.map (·.st), liveLock := f.grps.map (·.locked)
           lc := (lifeOf f).1, lcDefault := (lifeOf f).2, grps := f.grps.map fun g => { g with pend := false } }

/-! ### Fields in force (R400, R402 to R405, R412) -/

/-- State of a group in force: 0 blank, 1 valid, 2 invalid. -/
def inForce (s : State) (g : Nat) : Nat := match vget s.fuse.liveSt g with | 0 => 0 | 1 | 2 => 1 | _ => 2

/-- Bits [hi:lo] of a group in force. -/
def fuseField (s : State) (g hi lo : Nat) : Nat := bits (grpOf s.fuse.live g) hi lo

/-- The module UID; 0 while G0 is invalid. -/
def moduleUid (s : State) : Nat := if inForce s 0 = 1 then fuseField s 0 63 0 else 0
/-- Key hash for the supervisor banks, in digest order. -/
def vendorKeyHash (s : State) : List Byte := leBytes 32 (fuseField s 0 375 120)
/-- Pair UID: 0 unless G7 is valid (R405). -/
def pairUid (s : State) : Nat := if inForce s 7 = 1 then fuseField s 7 63 0 else 0
/-- Carrier group ID. -/
def carrierId (s : State) : Nat := if inForce s 7 = 1 then fuseField s 7 95 64 else 0
/-- OEM key hash of a G4 slot; none for a slot that authenticates nothing (R92, R403). -/
def slotHash (s : State) (k : Nat) : Option (List Byte) :=
  if inForce s 4 = 1 ∧ vget s.fuse.liveLock 4 ∧ k < 4 then
    let v := fuseField s 4 (256 * k + 255) (256 * k)
    if v = 0 then none else some (leBytes 32 v)
  else none
/-- `HPSEL`. -/
def hpSel (s : State) : Bool := inForce s 3 == 1 && fuseField s 3 0 0 == 1
/-- Sideband fully enabled (R371). -/
def sbEnabled (s : State) : Bool := inForce s 3 != 1 || fuseField s 3 1 1 == 1
/-- `REQ_CFG`: the `CONFIG` jumper is required. -/
def reqCfg (s : State) : Bool := inForce s 3 != 1 || fuseField s 3 2 2 == 1
/-- `REQ_SEAL`. -/
def reqSeal (s : State) : Bool := match inForce s 3 with | 0 => false | 1 => fuseField s 3 3 3 == 1 | _ => true
/-- Hold time of `PRESENCE` in seconds. -/
def btnHold (s : State) : Nat :=
  match inForce s 3 with
  | 0 => 2
  | 1 => match fuseField s 3 5 4 with | 0 => 2 | 1 => 5 | _ => 10
  | _ => 10
/-- Window length in minutes. -/
def winMin (s : State) : Nat :=
  match inForce s 3 with
  | 0 => 10
  | 1 => let v := fuseField s 3 11 6; if v = 0 then 10 else min v 60
  | _ => 5
/-- Shortest password. -/
def pwMin (s : State) : Nat :=
  match inForce s 3 with
  | 0 => 8
  | 1 => max 8 (min 32 (fuseField s 3 17 12))
  | _ => 16
/-- Characters required: bit 0 lowercase, 1 uppercase, 2 digit, 3 other printable. -/
def pwClass (s : State) : Nat := match inForce s 3 with | 0 => 0 | 1 => fuseField s 3 21 18 | _ => 7
/-- Class to which a command group is raised (R402, R328). -/
def raiseOf (s : State) (grp : Nat) : Cls :=
  if grp = 0 ∨ 13 < grp then .p0
  else
    let r := match inForce s 3 with | 0 => 0 | 1 => fuseField s 3 (23 + 2 * (grp - 1)) (22 + 2 * (grp - 1)) | _ => 1
    match r with | 0 => .p0 | 1 => .p1 | 2 => .p1s | _ => .p2
/-- A lock bit of G5: in force when valid and set, or for the first two when G5 is invalid (R404, R412). -/
def g5Lock (s : State) (i : Nat) : Bool := match inForce s 5 with | 0 => false | 1 => fuseField s 5 i i == 1 | _ => i < 2
/-- `NO_PRISM`. -/
def noPrism (s : State) : Bool := g5Lock s 0
/-- `NO_FORERUN`. -/
def noForerun (s : State) : Bool := g5Lock s 1
/-- `NO_RECOVER`. -/
def noRecover (s : State) : Bool := g5Lock s 2
/-- `SUP_MIN`. -/
def supMin (s : State) : Nat := if inForce s 5 = 1 then fuseField s 5 31 16 else 0
/-- `KP_MIN`. -/
def kpMin (s : State) : Nat := if inForce s 5 = 1 then fuseField s 5 47 32 else 0
/-- `UC_MIN`. -/
def ucMin (s : State) : Nat := if inForce s 5 = 1 then fuseField s 5 55 48 else 0

/-! ### Programming (R409 to R411) -/

/-- Programming in progress: the block, pulses to come, the stop by supply or temperature with its result, and a repair that
failed. -/
structure Prog where
  f : FuseBlk := {}
  pulses : List Pulse := []
  stop : Option (Status × List Byte) := none
  nvBad : Bool := false
  repaired : Bool := false
deriving DecidableEq, Repr, Inhabited

/-- A cell after a pulse: a bit can only change from 0 to 1. -/
def FuseCells.pulse (level bit : Nat) (c : FuseCells) : FuseCells :=
  let m := BitVec.twoPow 8192 bit
  { mh := if 1 ≤ level then c.mh ||| m else c.mh, n := if 2 ≤ level then c.n ||| m else c.n
    ml := if 3 ≤ level then c.ml ||| m else c.ml }

/-- Limits of R362 for a pulse: VLOG at least 20.0 V, temperature 0 to 70 °C. -/
def pulseStop (p : Pulse) : Option (Status × List Byte) :=
  if p.vlog < 2000 then some (.supplyLow, leBytes 2 p.vlog)
  else if p.tj < 0 ∨ 70 < p.tj then some (.tempRange, leBytes 1 (ofSigned 8 p.tj))
  else none

/-- One pulse on cell A or B of a bit, after the check of its supply and temperature. -/
def Prog.pulse (cellB : Bool) (bit : Nat) (x : Prog) : Prog :=
  if x.stop.isSome then x
  else
    let p := (x.pulses.head?).getD {}
    match pulseStop p with
    | some st => { x with stop := some st, pulses := x.pulses.drop 1 }
    | none =>
      let f := if cellB then { x.f with b := x.f.b.pulse p.level bit } else { x.f with a := x.f.a.pulse p.level bit }
      { x with f := f, pulses := x.pulses.drop 1 }

/-- Does a logical bit read 1 in ML, repairs applied? -/
def Prog.reads (x : Prog) (bit : Nat) : Bool :=
  (x.f.a.ml ||| x.f.b.ml).getLsbD bit || bit ∈ repairedBits (grpOf (fuseRead x.f 0 []) 6)

/-- Pulses on cells A and B, repeated up to `n` times while the bit does not verify (R409). -/
def Prog.rounds (bit : Nat) : Nat → Prog → Prog
  | 0, x => x
  | n + 1, x => if x.stop.isSome || x.reads bit then x else Prog.rounds bit n ((x.pulse false bit).pulse true bit)

/-- Value of a repair entry for a bit (R410). -/
def repairWord (bit : Nat) : Nat :=
  1 + 2 * bit + (if ones bit 13 % 2 = 0 then 2 ^ 14 else 0) + (255 - bit % 256) * 2 ^ 16

/-- Writes a repair entry into the first free place of G6; no free place, or an entry that fails, fails the command. -/
def Prog.repair (bit : Nat) (x : Prog) : Prog :=
  let g6 := grpOf (fuseRead x.f 0 []) 6
  match (List.range 80).find? fun e => !(bitOf g6 (24 * e)) with
  | none => { x with nvBad := true }
  | some e =>
    let w := repairWord bit
    let y := ((List.range 24).filter w.testBit).foldl (fun y i => Prog.rounds (4096 + 24 * e + i) 4 y) x
    if y.stop.isSome then y
    else
      let ok := ((List.range 24).filter w.testBit).all fun i => (y.f.a.ml ||| y.f.b.ml).getLsbD (4096 + 24 * e + i)
      if ok then { y with repaired := true } else { y with nvBad := true }

/-- Sets one logical bit (R409): skipped when it reads 1 in ML; after the pulses a bit that still fails gets a repair entry,
if its group may have one. -/
def Prog.setBit (x : Prog) (bit : Nat) : Prog :=
  if x.stop.isSome || x.nvBad || x.reads bit then x
  else
    let y := Prog.rounds bit 4 x
    if y.stop.isSome || y.reads bit then y
    else if 4096 ≤ bit ∧ bit < 6144 then { y with nvBad := true } else y.repair bit

/-- Sets several bits in rising order. -/
def Prog.setBits (l : List Nat) (x : Prog) : Prog := l.foldl Prog.setBit x

/-- Re-sensing after a fuse command: groups touched are pending, the hash kept by the keeper is that of the new shadow
(R408, R415), `FUSE_EVT` takes a repair or a stop. -/
def afterProg (x : Prog) (env : FuseEnv) (g : Nat) (s : State) : State :=
  let f0 := { x.f with evt := x.f.evt ||| BitVec.ofNat 32 (at1 x.repaired 3 + at1 x.stop.isSome 4) }
  let f1 := senseAll env.noise (if g = 6 then [6] else [g, 6]) f0
  let f2 := { f1 with grps := vmod (if x.repaired then vmod f1.grps 6 fun r => { r with pend := true } else f1.grps) g
                        fun r => { r with pend := true } }
  let r := vget f2.grps g
  journal 0x000A 2 (leBytes 1 g ++ leBytes 2 r.marg.toNat ++ leBytes 1 r.st)
    { s with fuse := f2, keep := { s.keep with shadowHash := shadowHash f2, hashSet := true, hashNew := [], hashRepeat := 0 } }

/-- Bits of a group that `FUSE_PROG` may set (R399 to R405): defined data fields and the check word; never the lock. -/
def progAllowed (g i : Nat) : Bool :=
  let chk := grpLen g - 17 ≤ i && i < grpLen g - 1
  chk || match g with
    | 3 => i < 48
    | 4 => i < 1024
    | 5 => i < 3 || (16 ≤ i && i < 56)
    | 7 => i < 96
    | _ => false

/-- May a group be programmed in the present life-cycle state (R413)? -/
def lcAllows (s : State) (g : Nat) : Bool := s.fuse.lc == 2 && g ∈ [3, 4, 5, 7]

/-- Does the group verify in all three reads, repairs applied (R412)? Answers the check word computed over N. -/
def lockCheck (f : FuseBlk) (g : Nat) : Bool × Nat :=
  let g6 := grpOf (fuseRead f 0 []) 6
  let v (k : Nat) : Nat := grpOf (applyRepairs g6 (fuseRead f k [])) g
  (grpVerifies g (v 0) && grpVerifies g (v 2) && grpVerifies g (v 3), (grpCheck g (v 0)).toNat)

/-- VLOG and temperature when a fuse command is taken (R362). -/
def takenStop (s : State) : Option (Status × List Byte) :=
  pulseStop { vlog := s.pwr.vlog.toNat, tj := toSigned 8 s.pwr.tj.toNat }

end Sys2Proof.Machine
end

