-- ==== Sys2Proof/Machine/Pair.lean ====
section
/-! DEFINITION. What a redundant pair shares with the inputs, outputs and rings (10_cross_link_pairs R269 to R278): pair mode,
the grid of the test-pulse owner, takeovers and the kill. -/

namespace Sys2Proof.Machine

/-- Sets bit `i` of `XL_EVT`. -/
def xlEvt (i : Nat) (s : State) : State := { s with xl := { s.xl with evt := s.xl.evt ||| BitVec.twoPow 32 i } }
/-- Sets bit `i` of `RING_EVT`. -/
def ringEvt (i : Nat) (s : State) : State := { s with ring := { s.ring with evt := s.ring.evt ||| BitVec.twoPow 32 i } }

/-- Pair mode (R269): G7 holds a pair UID other than 0 and the configuration sets `XL_CFG.PAIR`. -/
def pairMode (s : State) : Bool := s.xl.pairCfg && pairUid s != 0

/-- Role of the module: bit 0 of its MID. -/
def roleOf (s : State) : Nat := s.xl.mid % 2

/-- Address of the partner. -/
def partnerMid (s : State) : Nat := s.xl.mid + 1 - 2 * roleOf s

/-- `XL_ST.TO_OWNER`: this module drives every test output (R270). -/
def toOwner (s : State) : Bool := s.xl.toMask == 0xFFFF#16

/-- Does the schedule of test pulses follow this module's own frame grid: always outside pair mode, and as the configured owner
(R185, R270)? A module that took over goes on following the owner's schedule (R271). -/
def ownsGrid (s : State) : Bool := !pairMode s || b2n s.xl.toRole == roleOf s

/-- Does this module schedule the paired dark tests: the owner, and one that has taken over every test output (R271, R272)? -/
def plansTests (s : State) : Bool := ownsGrid s || toOwner s

/-- Own TBASE plus this offset is the TBASE of the owner's frame grid (R270). -/
def gridOfs (s : State) : Int := if ownsGrid s then 0 else s.xl.ofs

/-- An instant of the owner's grid as own TBASE, and back. -/
def fromGrid (s : State) (t : Nat) : Nat := ((t : Int) - gridOfs s).toNat
/-- Own TBASE as an instant of the owner's grid. -/
def toGrid (s : State) (t : Nat) : Nat := ((t : Int) + gridOfs s).toNat

/-- The module takes over a list of test outputs that it does not drive (R271): an event for each, `XL_EVT.TO_TAKE`. -/
def takeTos (l : List Nat) (s : State) : State :=
  l.foldl (fun s k =>
    if s.xl.toMask.getLsbD k then s
    else postEv 0x0903 k [] (xlEvt 8 { s with xl := { s.xl with toMask := s.xl.toMask ||| BitVec.twoPow 16 k } })) s

/-- The module becomes acting ring master of ring k, or standby again (R277). -/
def setRingMaster (k : Nat) (on : Bool) (s : State) : State :=
  let r := vget s.ring.rings k
  if r.master == on then s
  else
    let role := if on then roleOf s else 1 - roleOf s
    postEv 0x080B k (leBytes 1 role) (xlEvt 7 { s with ring := { s.ring with rings := vset s.ring.rings k { r with master := on } } })

/-- Test outputs that this module drives: all outside pair mode and as the configured owner, unless it qualifies (R270, R281). -/
def setToMask (s : State) : State :=
  let all := !pairMode s || (b2n s.xl.toRole == roleOf s && !s.md.qualPartner)
  { s with xl := { s.xl with toMask := if all then 0xFFFF else 0 } }

/-- Is this module the ring master by configuration: always outside pair mode, else by role, unless it qualifies (R277, R281)? -/
def ringRole (s : State) : Bool := !pairMode s || (b2n s.xl.rmRole == roleOf s && !s.md.qualPartner)

/-- A module in pair mode begins or ends qualifying: it lays down or takes its configured roles, with the events of a change (R277,
R281, R482). -/
def takeRoles (s : State) : State :=
  (List.range 2).foldl (fun s k => setRingMaster k (ringRole s) s) (setToMask s)

/-- The module asserts kill on its partner (R273, R275, R278): the line low, the event, takeover of every test output (R271). -/
def assertKill (cause : Nat) (s : State) : State :=
  if !pairMode s || s.xl.killOut then s
  else
    let s1 := xlEvt 6 { s with xl := { s.xl with killOut := true, killGone := 0 } }
    takeTos (List.range 16) (postEv 0x0904 0 (leBytes 1 0 ++ leBytes 1 cause) s1)

/-- May the paired dark test of output n run in frame f: announced by the owner, and the partner commits the same (R272)? -/
def testAgreed (s : State) (n f : Nat) : Bool :=
  (match s.xl.announce with | some (k, g) => k == n && g == f | none => false) &&
  s.xl.partner6.getLsbD n == (vget s.out.outs n).cmd

end Sys2Proof.Machine
end

