-- ==== Sys2Proof/Machine/Inputs.lean ====
section
/-! DEFINITION. Local inputs, counting inputs and the test-pulse schedule (07_local_inputs R170 to R193), with the test outputs'
own state (R183, R210, R218). -/

namespace Sys2Proof.Machine

/-! ### Groups, bands -/

/-- Field group of a safety input, a counting input, a test output (R170). -/
def grpIn (n : Nat) : Nat := if n < 16 then 0 else 1
/-- Group of a counting input. -/
def grpCi (k : Nat) : Nat := if k < 4 then 0 else 1
/-- Group of a test output. -/
def grpTo (k : Nat) : Nat := if k < 8 then 0 else 1

/-- Band code of a group (R463). -/
def bandOf (s : State) (g : Nat) : Nat := (vget s.out.grps g).band

/-- Codes of `INP_STn.RAW`. -/
def Band.num : Band → Nat
  | .off => 0 | .on => 1 | .wireBreak => 2 | .indet => 3

/-- Raw band of a measurement (R172); a source of 0 V gives no normalised current. -/
def rawBand (external : Bool) (m : Meas) : Band :=
  if 11000 ≤ m.v ∧ 2000 ≤ m.i then .on
  else if external then
    (if m.v < 5000 ∨ (m.i < 1500 ∧ m.v < 11000) then .off else .indet)
  else if m.src = 0 then .indet
  else if 450 * m.src ≤ m.i * 24000 ∧ m.i * 24000 ≤ 1400 * m.src then .off
  else if m.i * 24000 < 300 * m.src then .wireBreak
  else .indet

/-- A measurement with the input's trims applied (R190, R191): the current by the gain correction in ppm, the current offset and the
correction of the reference check, the voltage by its offset. DEDUCED (notes/assumptions/66.md): the spec names the trims and their units,
and no formula. -/
def Inp.adjust (x : Inp) (m : Meas) : Meas :=
  { m with v := m.v + x.vOfs, i := ((m.i : Int) + (m.i : Int) * x.gain / 1000000 + x.iOfs + x.trim).toNat }

/-- Raw band in which an input places a measurement. -/
def Inp.bandOf (x : Inp) (m : Meas) : Band := rawBand (x.src.toNat == 0x11) (x.adjust m)

/-- What the registers show of a measurement (`RAW`, `I_MEAS`). -/
def Inp.shows (x : Inp) (m : Meas) : Inp := { x with raw := x.bandOf m, iMeas := BitVec.ofNat 12 (min ((x.adjust m).i / 10) 4095) }

/-- Filter time in ticks. -/
def Inp.tf (x : Inp) : Nat := 1600 * x.filt.toNat

/-! ### Test outputs (R183, R210, R218) -/

/-- Value, quality and code of a test output (R218). -/
def toView (s : State) (k : Nat) : Bool × Bool × Nat :=
  let t := vget s.out.tos k
  if bandOf s (grpTo k) = 3 then (false, false, 5)
  else if t.short then (!t.ovl, false, 4)
  else if t.ovlBad then (!t.ovl, false, 8)
  else (!t.ovl, true, 0)

/-- Slots that a test output occupies: ⌈(W + 100 µs) / 500 µs⌉; 0 without pulses. -/
def slotsFor (w : Nat) : Nat := if w = 0 then 0 else (w + 100 + 499) / 500

/-- Greatest common divisor conflict of two placed test outputs (R184): (n, r, s, c). -/
def pulsesClash (a b : Nat × Nat × Nat × Nat) : Bool :=
  let (n1, r1, s1, c1) := a
  let (n2, r2, s2, c2) := b
  let g := Nat.gcd n1 n2
  s1 < s2 + c2 && s2 < s1 + c1 && r1 % g == r2 % g

/-- The supervisor's assignment (R184): test outputs in ascending order with width and period; each takes the first free pair
of residue and slot. None when a test output finds no place. -/
def assignPulses : List (Nat × Nat) → List (Nat × Nat × Nat × Nat) → Option (List (Nat × Nat × Nat × Nat))
  | [], acc => some acc
  | (w, n) :: rest, acc =>
    if w = 0 then assignPulses rest (acc ++ [(0, 0, 0, 0)])
    else
      let c := slotsFor w
      let cand := (List.range n).flatMap fun r => (List.range (16 - c + 1)).map fun s => (n, r, s, c)
      match cand.find? fun x => acc.all fun y => y.2.2.2 == 0 || !pulsesClash x y with
      | none => none
      | some x => assignPulses rest (acc ++ [x])

/-- Start of the next dark pulse of a test output at or after an instant (R183). -/
def nextPulse (t : TOut) (from_ : Nat) : Nat :=
  let ofs := (50 + 500 * t.slot.toNat) * 16
  let n := max t.per.toNat 1
  let f0 := from_ / 128000
  let frames := (List.range (n + 1)).map (f0 + ·)
  match frames.find? fun f => f % n == t.res.toNat && from_ ≤ 128000 * f + ofs with
  | some f => 128000 * f + ofs
  | none => 128000 * (f0 + n) + ofs

/-! ### Present state of an input (R175, R176, R192) -/

/-- Is the input affected by a cut: its terminal's group, or that of the test output that feeds it (R189)? -/
def inpCut (s : State) (n : Nat) (x : Inp) : Bool :=
  bandOf s (grpIn n) == 3 || (x.src.toNat < 16 && bandOf s (grpTo x.src.toNat) == 3)

/-- Diagnostic code of the filtered band. -/
def bandCode : Option Band → Nat
  | none => 2
  | some .on | some .off => 0
  | some .wireBreak => 1
  | some .indet => 2

/-- The lowest of several codes, 0 when none is set. -/
def lowest (l : List Nat) : Nat := (l.filter (0 < ·)).foldl (fun a b => if a = 0 then b else min a b) 0

/-- Value, quality, code of a safety input. -/
def inpView (s : State) (n : Nat) : Bool × Bool × Nat :=
  let x := vget s.inp.inps n
  if !x.used then (false, false, 0)
  else
    let cut := inpCut s n x
    let c := lowest [if cut then 5 else bandCode x.fband, if x.cross then 3 else 0, if x.missing then 4 else 0,
                     if x.srcBad then 6 else 0, if x.calOut || x.chBad then 7 else 0]
    (c == 0 && x.fband == some .on, c == 0, c)

/-- Quality and code of a counting input (R182). -/
def ciView (s : State) (k : Nat) : Bool × Nat :=
  let x := vget s.inp.cis k
  let c := lowest [if x.indet then 2 else 0, if bandOf s (grpCi k) = 3 then 5 else 0, if x.rate then 8 else 0]
  (c == 0, c)

/-- Cell of a safety input (R101): filtered value, quality, flags, code, stamp. -/
def inpCell (s : State) (n : Nat) : Word :=
  let x := vget s.inp.inps n
  let (v, q, c) := inpView s n
  BitVec.ofNat 32 (at1 v 0 + at1 q 1 + at1 (x.e && x.ovr) 2 + at1 x.e 3 + 16 * c + (if x.e then (x.stamp % 2 ^ 24) * 256 else 0))

/-- Cell of a counting input. -/
def ciCell (s : State) (k : Nat) : Word :=
  let x := vget s.inp.cis k
  let (q, c) := ciView s k
  BitVec.ofNat 32 (at1 x.lvl 0 + at1 q 1 + 16 * c + (x.cnt.toNat % 2 ^ 24) * 256)

/-- Sets bits of `INP_EVT`. -/
def inpEvt (v : Nat) (s : State) : State := { s with inp := { s.inp with evt := s.inp.evt ||| BitVec.ofNat 32 v } }

/-- Changes an input. -/
def modInp (n : Nat) (f : Inp → Inp) (s : State) : State := { s with inp := { s.inp with inps := vmod s.inp.inps n f } }

/-- Flags of `INP_EVT` for a new code. -/
def codeFlag (c : Nat) : Nat := match c with | 1 => 1 | 2 => 2 | 3 => 4 | 4 => 8 | 5 => 512 | 6 => 16 | 7 => 32 | 8 => 128 | _ => 0

/-- Conditions 0x3, 0x4 and 0x7 of an input, whatever the code shown. -/
def inpFaults (x : Inp) : List Nat := (if x.cross then [3] else []) ++ (if x.missing then [4] else []) ++ (if x.calOut || x.chBad then [7] else [])

/-- Events of a change (R192): every change of an input's quality, operational; codes 0x3, 0x4 and 0x7 found, safety. -/
def inpEvents (before after : State) : State :=
  let step (s : State) (n : Nat) : State :=
    let x := vget before.inp.inps n
    let y := vget after.inp.inps n
    let (_, q0, c0) := inpView before n
    let (_, q1, c1) := inpView after n
    let s1 := if y.used && c1 != c0 && (x.used || c1 != 2) then inpEvt (codeFlag c1) s else s
    let s2 := if q0 != q1 then postEv 0x0601 n (leBytes 1 (b2n q1) ++ leBytes 1 c1) s1 else s1
    (inpFaults y).foldl (fun s c => if y.used && !(c ∈ inpFaults x) then
        postEv 0x0602 n (leBytes 1 c ++ leBytes 1 y.foreignTo.toNat ++ leBytes 2 (ofSigned 16 (toSigned 12 y.dev.toNat))) (inpEvt (codeFlag c) s)
      else s) s2
  let ci (s : State) (k : Nat) : State :=
    let (q0, c0) := ciView before k
    let (q1, c1) := ciView after k
    let s1 := if c1 != c0 then inpEvt (codeFlag c1) s else s
    if q0 != q1 then postEv 0x0601 (32 + k) (leBytes 1 (b2n q1) ++ leBytes 1 c1) s1 else s1
  (List.range 8).foldl ci ((List.range 32).foldl step after)

/-- Events of the test outputs (R216, R218): code 0x4 found, safety; any other change of quality or code, operational. -/
def toEvents (before after : State) : State :=
  (List.range 16).foldl (fun s k =>
    let was := (toView before k).2
    let is := (toView after k).2
    let s1 := if was.1 && !is.1 then outEvt 12 s else s
    if was == is then s
    else if is.2 = 4 then postEv 0x0702 (32 + k) (leBytes 1 4 ++ leBytes 1 0x1F) s1
    else postEv 0x0701 (32 + k) (leBytes 1 (b2n is.1) ++ leBytes 1 is.2) s1) after

/-- A change at the inputs and the test outputs, with its events. -/
def withInpEvents (f : State → State) (s : State) : State :=
  let t := f s
  toEvents s (inpEvents s t)

/-! ### The cells at t0 (R33, R178) -/

/-- The cells of the safety and counting inputs as they stand. -/
def presentCells (s : State) : List (Nat × Word) :=
  (List.range 32).map (fun n => (0x2000 + n, inpCell s n)) ++ (List.range 8).map (fun k => (0x2020 + k, ciCell s k))

/-- The cells of the inputs for the next freeze: those that stood at its t0. -/
def inputCells (s : State) : List (Nat × Word) := s.inp.latched.getD (presentCells s)

/-- Every edge stamp register is cleared (R178). -/
def clearEdges (s : State) : State :=
  { s with inp := { s.inp with inps := s.inp.inps.map fun x => { x with e := false, ovr := false } } }

/-- An event strictly before t0 counts in the cycle of that t0, any later one in the next (R33): at the first change of an input at or after
a t0 whose freeze is still to come, the cells that it freezes stand. -/
def latchT0 (s : State) : State :=
  if s.cyc.running && s.cyc.nextT0 ≤ instant s && s.inp.latched.isNone then
    clearEdges { s with inp := { s.inp with latched := some (presentCells s) } }
  else s

/-- Time goes on to the instant of a change at the inputs. -/
def inputsTo (t : Nat) (s : State) : State := latchT0 (advanceTo t s)

/-- The freeze takes the cells of the inputs: it clears the edge stamp registers, unless that happened at t0, and notes the inputs of
quality 0 (R178). -/
def clearStamps (s : State) : State :=
  let bad := BitVec.ofNat 32 ((((inputCells s).take 32).zipIdx.map fun p => at1 (!p.1.2.getLsbD 1) p.2).sum)
  let s1 := if s.inp.latched.isNone then clearEdges s else s
  { s1 with inp := { s1.inp with bad := bad, latched := none } }

/-! ### Filter (R174 to R179, R188) -/

/-- Value that a filtered band gives. -/
def bandVal : Option Band → Bool
  | some .on => true
  | _ => false

/-- A transition made while TCLK is stopped is stamped from the SCLK count (R179). -/
def stampOf (t : Nat) (s : State) : Nat :=
  let b := s.time.capTbase - s.time.capPhase
  if s.time.tclkRun || t < s.time.capTbase then t else b + 32 * ((t - b) / 32)

/-- The band that an input presents to its filter: that of the run in progress, else the filtered one. -/
def Inp.held (x : Inp) : Option Band := match x.run with | some r => some r.band | none => x.fband

/-- A band is presented to the filter from an instant on (R174): the band it held goes on, the filtered band ends a run, any other begins one. -/
def Inp.present (b : Band) (t stamp : Nat) (x : Inp) : Inp :=
  if x.held == some b then x
  else { x with bandAt := t, run := if x.fband == some b then none else some { band := b, start := t, stamp := stamp } }

/-- The level of the `ON` comparator with a band, and the stamp of the transition that led to it (R177). -/
def Inp.compare (b : Band) (stamp : Nat) (x : Inp) : Inp :=
  if x.comp == (b == .on) then x else { x with comp := b == .on, compAt := stamp }

/-- The filter accepts a run: first band without an edge, else an edge when the value changes (R177, R178). -/
def acceptRun (n : Nat) (r : FRun) (s : State) : State :=
  let x := vget s.inp.inps n
  let y := { x with fband := some r.band, run := none }
  if x.fband.isNone || bandVal x.fband == bandVal (some r.band) then modInp n (fun _ => y) s
  else
    let s1 := modInp n (fun _ => { y with stamp := r.stamp, e := true, ovr := x.e, ovrCnt := if x.e then satUp x.ovrCnt else x.ovrCnt }) s
    if x.e then inpEvt 64 s1 else s1

/-- The filter of an input up to an instant, to which its band is presented unchanged: a run that has lasted t_f is accepted (R174); code 0x6
ends once the source has quality 1 and the band has held for t_f since (R192). -/
def filterTo (n t : Nat) (s : State) : State :=
  let x := vget s.inp.inps n
  let s1 := match x.run with
    | some r => if x.win.isNone && r.start + x.tf ≤ t then acceptRun n r (inputsTo (r.start + x.tf) s) else s
    | none => s
  let back := max x.srcOkAt x.bandAt + x.tf
  if x.srcBad && (toView s1 x.src.toNat).2.1 && back ≤ t then modInp n (fun x => { x with srcBad := false }) (inputsTo back s1) else s1

/-- A sample of an input (R172): the registers show it; but in a window, or in a cut, it is presented to the filter (R188, R189). One that
lies before the samples already taken is none. -/
def sampleInput (n : Nat) (p : Sample) (s : State) : State :=
  if p.at_ < (vget s.inp.inps n).sampled then s
  else
    let s1 := inputsTo p.at_ (filterTo n p.at_ s)
    modInp n (fun x =>
      let y := { x.shows p.meas with sampled := p.at_ }
      if !x.used || x.win.isSome || inpCut s1 n x then y
      else let z := y.compare y.raw (stampOf p.edge s1); z.present y.raw p.at_ z.compAt) s1

/-- `FILTER_ACCEPT`: the samples of an input since the last ones, each in its raw band; a band that holds for t_f without interruption is
accepted (R174). DESIGN CHOICE (notes/assumptions/94.md): each sample stands until the next, and the last one names the instant up to which
the filter runs. -/
def execFilterAccept (n : Fin 32) (samples : List Sample) (s : State) : Host.Outcome State Fault Refusal :=
  .next (withInpEvents (fun s => samples.foldl (fun s p => sampleInput n.val p s) s) s)

/-- A window ends without a measurement of its own: the paused run goes on (R188). -/
def Inp.resume (t : Nat) (x : Inp) : Inp :=
  match x.win with
  | some w => { x with win := none, sampled := max x.sampled t, run := x.run.map fun r => { r with start := r.start + (t - w) } }
  | none => x

/-- End of an input's window (R188): the measured band is presented again. The band held resumes the paused run; any other begins a run at the
window end, with its tick as stamp. -/
def Inp.windowEnd (t : Nat) (m : Meas) (x : Inp) : Inp :=
  let y := { (x.resume t).shows m with sampled := t }
  if y.held == some y.raw then y else (y.compare y.raw t).present y.raw t t

/-! ### Test pulses (R183, R186 to R188) -/

/-- Code 0x6 follows the quality of the source test output; the instant at which it returns is kept (R192). -/
def followSources (s : State) : State :=
  { s with inp := { s.inp with inps := s.inp.inps.map fun x =>
      if !x.used || 16 ≤ x.src.toNat then x
      else
        let (_, q, c) := toView s x.src.toNat
        if q then (if x.srcBad && x.srcOkAt = 0 then { x with srcOkAt := now s } else x)
        else if c = 5 then x
        else { x with srcBad := true, srcOkAt := 0 } } }

/-- Are the pulses of a test output running: configured, group in band 0b00 or 0b01, not in overload? -/
def pulsing (s : State) (k : Nat) : Bool :=
  let t := vget s.out.tos k
  t.width != 0 && bandOf s (grpTo k) ≤ 1 && !t.ovl

/-- Does the input run pulse windows: band below diagnostics suspended in its own group as well (R189)? -/
def windowed (s : State) (k n : Nat) (x : Inp) : Bool := x.used && x.src.toNat == k && bandOf s (grpIn n) ≤ 1

/-- `TEST_PULSE_START`: at its next scheduled instant test output k goes dark, and the inputs it feeds hold their raw band and
pause their filter. A pair's partner opens the same windows without driving (R185). -/
def testPulseStart (k : Nat) (s : State) : State :=
  let t := vget s.out.tos k
  if !pulsing s k || t.dark then s
  else
    let at_ := max (instant s) (fromGrid s (nextPulse t (toGrid s (max (now s) t.since))))
    let s1 := advanceTo at_ ((List.range 32).foldl (fun s n => filterTo n at_ s) s)
    { s1 with out := { s1.out with tos := vmod s1.out.tos k fun t => { t with dark := true, darkAt := at_ } },
              inp := { s1.inp with inps := vmapi (fun n x =>
                let y := { x with before := x.raw }
                if windowed s1 k n x then { y with win := some at_ } else y) s1.inp.inps } }

/-- `TEST_PULSE_START`. -/
def execTestPulseStart (k : Fin 16) (s : State) : Host.Outcome State Fault Refusal := .next (withInpEvents (testPulseStart k.val) s)

/-- Two samples one after the other in the band `WIRE_BREAK`. -/
def twoBreaks (x : Inp) : List Meas → Bool
  | a :: b :: l => (x.bandOf a == .wireBreak && x.bandOf b == .wireBreak) || twoBreaks x (b :: l)
  | _ => false

/-- Is a dark pulse seen (R186): 20 µs of the `ON` comparator off from `ON`, two samples in a row in `WIRE_BREAK` from `OFF`? -/
def Inp.sees (x : Inp) (d : Dip) : Bool :=
  match x.before with
  | .on => 320 ≤ d.off
  | .off => twoBreaks x d.dark
  | _ => false

/-- Does a pulse judge the input at all: raw band `ON` or `OFF` before it (R186)? -/
def Inp.judged (x : Inp) : Bool := x.before == .on || x.before == .off

/-- Own pulse judged (R186): two in a row missed set code 0x4, two in a row seen clear it; two seen without a foreign pulse in
between clear code 0x3. `grace` pulses are not counted as missing (R189, R432). -/
def Inp.ownPulse (seen grace : Bool) (x : Inp) : Inp :=
  let y := { x with grace := x.grace - 1 }
  if !x.judged then y
  else if seen then
    let k := x.seenRow + 1
    let c := x.cleanRow + 1
    { y with seenRow := k, missRow := 0, cleanRow := c, missing := x.missing && k < 2, cross := x.cross && c < 2 }
  else if grace || 0 < x.grace then y
  else
    { y with seenRow := 0, missRow := x.missRow + 1, missCnt := satUp x.missCnt, cleanRow := 0
             missing := x.missing || 2 ≤ x.missRow + 1 }

/-- A dark pulse of another test output j (R186): the second foreign pulse from consecutive pulses of the same j sets code 0x3. -/
def Inp.foreignPulse (j : Nat) (drop : Bool) (x : Inp) : Inp :=
  let bit := BitVec.ofNat 16 (2 ^ j)
  if !x.judged then x
  else if !drop then { x with foreign := x.foreign &&& ~~~bit }
  else
    let again := x.foreign.getLsbD j
    { x with foreign := x.foreign ||| bit, cleanRow := 0, cross := x.cross || again
             foreignTo := if again then BitVec.ofNat 5 j else x.foreignTo }

/-- Is a drop one of a dark pulse of `width` µs: it starts within the pulse, is back by 10 µs after its end, and is judged like a seen pulse
(R186)? -/
def Inp.foreignDrop (width : Nat) (x : Inp) (d : Drop) : Bool :=
  decide (d.start < 16 * width) && (match d.back with | some b => decide (b ≤ 16 * (width + 10)) | none => false) && x.sees d.dip

/-- A test output's own terminal in a pulse (R218): two in a row without LOW are a short to a supply, two passing clear it. -/
def toPulse (low : Bool) (t : TOut) : TOut :=
  if low then { t with dark := false, rbFail := false, miss := 0, passes := t.passes + 1, short := t.short && t.passes + 1 < 2, grace := t.grace - 1 }
  else { t with dark := false, rbFail := true, miss := t.miss + 1, passes := 0, short := t.short || 2 ≤ t.miss + 1, grace := t.grace - 1 }

/-- Does the input's source give pulses that are judged: a test output with pulses, in a group under diagnostics (R186, R189)? -/
def pulseChecked (s : State) (n : Nat) (x : Inp) : Bool :=
  x.used && x.src.toNat < 16 && (vget s.out.tos x.src.toNat).width != 0 && bandOf s (grpIn n) ≤ 1

/-- `TEST_PULSE_WINDOW_END` of test output k, 50 µs after its pulse: `low` says that its terminal read LOW for 20 µs, `obs` what
the inputs it feeds showed, `foreign` the drops that others showed. In band 0b10 nothing is judged (R189). -/
def pulseWindowEnd (k : Nat) (low : Bool) (obs : List PulseObs) (foreign : List Drop) (s : State) : State :=
  let t := vget s.out.tos k
  if !t.dark then s
  else
    let s1 := inputsTo (t.darkAt + 16 * (t.width.toNat + 50)) s
    let at_ := instant s1
    let judge (n : Nat) (x : Inp) : Inp :=
      if !x.used then x
      else if x.src.toNat == k then
        match obs.find? fun o => o.inp.val == n with
        | some o =>
          let y := if x.win.isSome && bandOf s1 (grpIn n) ≤ 1 then x.ownPulse (x.sees o.dip) (decide (0 < t.grace)) else x
          if x.win.isSome then y.windowEnd at_ o.meas else y
        | none => x.resume at_
      else if x.win.isSome || !pulseChecked s1 n x then x
      else x.foreignPulse k (foreign.any fun d => d.inp.val == n && x.foreignDrop t.width.toNat d)
    followSources { s1 with out := { s1.out with tos := vset s1.out.tos k (toPulse low t) }, inp := { s1.inp with inps := vmapi judge s1.inp.inps } }

/-- `TEST_PULSE_WINDOW_END`. -/
def execTestPulseWindowEnd (k : Fin 16) (low : Bool) (obs : List PulseObs) (foreign : List Drop) (s : State) :
    Host.Outcome State Fault Refusal := .next (withInpEvents (pulseWindowEnd k.val low obs foreign) s)

/-- A dark pulse of test output k ends before its time: the windows of its inputs end with it. -/
def endWindows (k : Nat) (s : State) : State :=
  { s with inp := { s.inp with inps := s.inp.inps.map fun x => if x.src.toNat == k then x.resume (instant s) else x } }

/-! ### Calibration check (R190) -/

/-- The deviation that a check finds (R190): the input's measurement, trims applied, minus the reference, in µA. -/
def calDev (x : Inp) (c : CalCheck) : Int := ((x.adjust { i := c.own }).i : Int) - c.ref

/-- What a deviation d of input n leads to (R190). -/
def judgeDev (n : Nat) (d : Int) (s : State) : State :=
  let y := { vget s.inp.inps n with dev := BitVec.ofNat 12 (ofSigned 12 (max (-2048) (min 2047 d))) }
  if d.natAbs ≤ 50 then modInp n (fun _ => { y with trimmed := false, calOut := false }) s
  else if d.natAbs ≤ 150 then
    postEv 0x0603 n (leBytes 2 (ofSigned 16 d)) (inpEvt 256 (modInp n (fun _ => { y with trimmed := true, trimPend := some d }) s))
  else modInp n (fun _ => { y with trimmed := false, calOut := true }) s

/-- `INPUT_CAL_CHECK`: 10 ms after the last check the reference converter checks the next of the 32 inputs (R190); the channel's self-check
goes with it (R192, notes/assumptions/95.md). -/
def inputCalCheck (c : CalCheck) (s : State) : State :=
  let n := s.inp.calNext
  let s1 := inputsTo (s.inp.calAt + msTicks 10) s
  let s2 := modInp n (fun x => { x with chBad := !c.selfOk }) { s1 with inp := { s1.inp with calNext := (n + 1) % 32, calAt := instant s1 } }
  judgeDev n (calDev (vget s2.inp.inps n) c) s2

/-- `INPUT_CAL_CHECK`. -/
def execInputCalCheck (c : CalCheck) (s : State) : Host.Outcome State Fault Refusal := .next (withInpEvents (inputCalCheck c) s)

/-- Trim corrections found since the last boundary take effect (R190). -/
def applyTrims (s : State) : State :=
  { s with inp := { s.inp with inps := s.inp.inps.map fun x => match x.trimPend with
      | some d => { x with trim := x.trim - d, trimPend := none }
      | none => x } }

/-! ### Group bands (R189) -/

/-- The pulse checks of an input start anew, and their faults end (R189, R193). -/
def Inp.unchecked (x : Inp) : Inp :=
  { x with seenRow := 0, missRow := 0, foreign := 0, cleanRow := 0, missing := false, cross := false }

/-- An input at a change of its group's band, or that of its source (R189): suspended diagnostics end windows and checks; a cut resets the filter
too, which restarts from no band as the group leaves it; resumed diagnostics do not count two pulses as missing. -/
def Inp.onBand (old new t : Nat) (x : Inp) : Inp :=
  let y := if new = 3 then { x.unchecked with fband := none, run := none, win := none }
    else if new = 2 then x.unchecked.resume t
    else if 2 ≤ old then { x with grace := 2 }
    else x
  if old = 3 && new != 3 then { y with fband := none, run := some { band := x.raw, start := t, stamp := t }, bandAt := t, sampled := max x.sampled t } else y

/-- What the inputs and test outputs do as group g changes from one band to another (R189). -/
def inputsOnBand (g old new : Nat) (s : State) : State :=
  let touches (n : Nat) (x : Inp) : Bool := grpIn n == g || (x.src.toNat < 16 && grpTo x.src.toNat == g)
  let t (k : Nat) (x : TOut) : TOut :=
    if grpTo k != g then x
    else if 2 ≤ new then { x with dark := false, miss := 0 }
    else if 2 ≤ old then { x with grace := 2 }
    else x
  { s with inp := { s.inp with inps := vmapi (fun n x => if touches n x then x.onBand old new (instant s) else x) s.inp.inps }
           out := { s.out with tos := vmapi t s.out.tos } }

/-! ### Counting inputs (R181, R182) -/

/-- Time of an edge in units of 0.5 ns: tick and fine stamp in LCLK periods. -/
def edgeT (tick fine : Nat) : Nat := 125 * tick + 8 * fine

/-- The counting of an edge (R181): counter, level, and code 0x8 when the last edge lies less than 0.5 µs back (R182), by the instants of the
edges themselves, whatever the resolution of their stamps. -/
def ciCount (k : Nat) (level : Bool) (tick fine : Nat) (s : State) : State :=
  let x := vget s.inp.cis k
  let t := edgeT tick fine
  let fast := match x.last with | some l => t < l + 1000 | none => false
  let y := { x with lvl := level, cnt := x.cnt + 1, last := some t, rate := x.rate || fast, rateAt := if fast then tick else x.rateAt }
  { s with inp := { s.inp with cis := vset s.inp.cis k y } }

/-- `CI_INDETERMINATE_LEVEL`: the level has been between 5.0 V and 11.0 V for more than 10 µs (R182). -/
def execCiIndeterminateLevel (k : Fin 8) (s : State) : Host.Outcome State Fault Refusal :=
  .next (withInpEvents (fun s =>
    let s := latchT0 s
    { s with inp := { s.inp with cis := vmod s.inp.cis k.val fun x => { x with indet := true, indetAt := instant s } } }) s)

/-- The end of each condition of a counting input that stands: 10 ms after its last occurrence (R182). -/
def Ci.ends (x : Ci) : List Nat := (if x.rate then [x.rateAt + msTicks 10] else []) ++ (if x.indet then [x.indetAt + msTicks 10] else [])

/-- `CI_QUALITY_RETURN`: 10 ms after its last occurrence the condition that ends first ends (R182). -/
def execCiQualityReturn (k : Fin 8) (s : State) : Host.Outcome State Fault Refusal :=
  let f (s : State) : State :=
    match (vget s.inp.cis k.val).ends.min? with
    | none => s
    | some e =>
      let s1 := inputsTo e s
      let t := instant s1
      { s1 with inp := { s1.inp with cis := vmod s1.inp.cis k.val fun x =>
          { x with rate := x.rate && t < x.rateAt + msTicks 10, indet := x.indet && t < x.indetAt + msTicks 10 } } }
  .next (withInpEvents f s)

end Sys2Proof.Machine
end

