-- ==== Sys2Proof/Machine/Outputs.lean ====
section
/-! DEFINITION. Local outputs and field groups (08_local_outputs R194 to R218, R463, R464): codes, tests, readback faults,
overloads, the group bands and the group acknowledgement. -/

namespace Sys2Proof.Machine

/-! ### Views -/

/-- Outputs of a group (R194). -/
def members (g : Nat) : List Nat := (List.range 20).filter fun n => grpOut n == g

/-- Is the group cut, by its band or by its latch? -/
def grpCut (s : State) (g : Nat) : Bool := bandOf s g == 3 || 2 ∈ (vget s.out.grps g).latches

/-- Diagnostic codes present at an output (R216): its own, and those of its group's cut, overcurrent and failed master test. -/
def outCodes (s : State) (n : Nat) : List Nat :=
  let o := vget s.out.outs n
  let l := (vget s.out.grps (grpOut n)).latches
  o.latched ++ (if o.openLoad then [1] else []) ++ (if o.lightBad then [7] else []) ++
    (if o.used && grpCut s (grpOut n) then [5] else []) ++ (if o.used && 5 ∈ l then [8] else []) ++ (if o.used && 4 ∈ l then [9] else [])

/-- Diagnostic code of an output: the lowest present. -/
def outCode (s : State) (n : Nat) : Nat := lowest (outCodes s n)

/-- Quality of an output: 0 with any code but open load (R203, R211, R216). -/
def outQ (s : State) (n : Nat) : Bool := (outCodes s n).all (· == 1)

/-- Is an output latched off, by itself or by its group (`OUT_STn.LATCH`)? -/
def outLatched (s : State) (n : Nat) : Bool :=
  !(vget s.out.outs n).latched.isEmpty || grpCut s (grpOut n) || 4 ∈ (vget s.out.grps (grpOut n)).latches

/-- Code of a group (R215): the lowest among 0x3, 0x4, 0x5, 0x7, 0x8 and 0x9 present in it. -/
def grpCode (s : State) (g : Nat) : Nat :=
  lowest ((vget s.out.grps g).codes ++ (members g).flatMap (fun n => (vget s.out.outs n).latched) ++
    [if grpCut s g then 5 else 0, if 4 ∈ (vget s.out.grps g).latches then 9 else 0])

/-- Quality of a group state cell (R215). -/
def grpQ (s : State) (g : Nat) : Bool :=
  let x := vget s.out.grps g
  !(x.band == 3 || 3 ∈ x.latches || 4 ∈ x.latches || 4 ∈ x.codes ||
    (members g).any fun n => (vget s.out.outs n).latched.any fun c => c == 3 || c == 4 || c == 7 || c == 9)

/-- Group state cell (R101, R215). -/
def grpCell (s : State) (g : Nat) : Word :=
  let x := vget s.out.grps g
  BitVec.ofNat 32 (at1 (x.master && x.band != 3) 0 + at1 (grpQ s g) 1 + 4 * x.band + 16 * grpCode s g)

/-- Test output state cell (R218). -/
def toCell (s : State) (k : Nat) : Word :=
  let (v, q, c) := toView s k
  BitVec.ofNat 32 (at1 v 0 + at1 q 1 + 16 * c)

/-- Changes an output. -/
def modOut (n : Nat) (f : Out → Out) (s : State) : State := { s with out := { s.out with outs := vmod s.out.outs n f } }
/-- Changes a group. -/
def modGrp (g : Nat) (f : Grp → Grp) (s : State) : State := { s with out := { s.out with grps := vmod s.out.grps g f } }

/-- Supply event (R473): the journal record and, for VLOG, VHU and the field groups, the event. Value in 10 mV. -/
def supplyEvent (rail code value : Nat) (s : State) : State :=
  let sev := if code = 0x11 then 5 else if code = 0x31 then 6 else 3
  let s1 := journal 0x0004 sev (leBytes 1 rail ++ leBytes 1 code ++ leBytes 2 value) s
  if 4 ≤ rail then s1
  else if code = 0x11 then postEv 0x0E03 rail (leBytes 1 code ++ leBytes 2 value) s1
  else postEv 0x0E01 rail (leBytes 1 code ++ leBytes 2 value) s1

/-- Events of the outputs' codes (R216): 0x3, 0x4, 0x7 and 0x9 as they come, safety; every other change, operational. -/
def outEvents (before after : State) : State :=
  (List.range 20).foldl (fun s n =>
    let was := outCodes before n
    let is := outCodes after n
    let new := is.filter fun c => !(c ∈ was)
    let s1 := (new.filter (· ∈ [3, 4, 7, 9])).foldl (fun s c => postEv 0x0702 n (leBytes 1 c ++ leBytes 1 (vget after.out.outs n).srcOut) s) s
    if new.any (fun c => !(c ∈ [3, 4, 7, 9])) || was.any (fun c => !(c ∈ is)) then
      postEv 0x0701 n (leBytes 1 (b2n (outQ after n)) ++ leBytes 1 (outCode after n)) s1
    else s1) after

/-- A change at the outputs, with its events. -/
def withOutEvents (f : State → State) (s : State) : State := outEvents s (f s)

/-- Flag of `OUT_EVT` for a latched code. -/
def outFlag (code : Nat) : Nat := match code with | 3 => 3 | 4 => 2 | 7 => 13 | 8 => 5 | _ => 4

/-- Latches an output off with a code and the other output named by R207. -/
def latchOut (n code src : Nat) (s : State) : State :=
  let o := vget s.out.outs n
  if code ∈ o.latched then s
  else outEvt (outFlag code) (modOut n (fun o => { o with latched := o.latched ++ [code], ch := false, ecoAct := false, duty := (1, 1), srcOut := src }) s)

/-! ### Short condition (R206, R207) -/

/-- Output n meets the short condition: its group's master opens, the group cell is bad with code 0x4 until the classification, whatever the
output has latched before. One whose short has been classified waits for the acknowledgement. -/
def shortCondition (n : Nat) (s : State) : State :=
  if s.out.ident.any (·.out == n) || (vget s.out.outs n).classified then s
  else
    let g := grpOut n
    let on := (members g).filter fun j => j != n && (vget s.out.outs j).cmd
    let s1 := openMaster g 3 4 s
    { s1 with out := { s1.out with ident := s1.out.ident ++ [{ out := n, on := on, due := instant s1 + msTicks 1 }]
                                   grps := vmod s1.out.grps g fun x => { x with codes := 4 :: x.codes }
                                   outs := vmod s1.out.outs n fun o => { o with lowSince := none } } }

/-- Is the partner's committed value for a paired output 0 as well (R209)? Given by the cross-link; always outside pair mode. -/
def pairedOff (s : State) (n : Nat) : Bool :=
  !(pairMode s && (vget s.out.outs n).paired) || !s.xl.partner6.getLsbD n

/-- `READBACK_FAULT`: the terminal of output n, committed 0, has read other than LOW for 100 µs after its blanking time; `coil`
is a brake output's coil current in mA (R206). An unused output is judged as off. -/
def readbackFault (n coil : Nat) (s : State) : State :=
  let o := vget s.out.outs n
  if o.cmd || 2 ≤ bandOf s (grpOut n) || !pairedOff s n then s
  else
    let s1 := advanceTo (o.offAt + (if n < 16 then msTicks 1 else msTicks 200) + 1600) s
    if n < 16 || 50 ≤ coil then shortCondition n s1 else latchOut n 9 0x1F s1

/-- `READBACK_FAULT`. -/
def execReadbackFault (n : Fin 20) (coil : Nat) (s : State) : Host.Outcome State Fault Refusal := .next (withOutEvents (readbackFault n.val coil) s)

/-- Ends an identification: the output's latch, the group's provisional code, the output named. -/
def endIdent (n code src : Nat) (s : State) : State :=
  let g := grpOut n
  let s1 := { s with out := { s.out with ident := s.out.ident.filter fun x => x.out != n
                                         grps := vmod s.out.grps g fun x => { x with codes := x.codes.erase 4, srcOut := src } } }
  latchOut n code src (modOut n (fun o => { o with classified := true }) s1)

/-- Is an output wired in parallel with the partner's in pair mode (R209)? -/
def pairedNow (s : State) (o : Out) : Bool := pairMode s && o.paired

/-- The test in progress ends: its channel switch takes the committed value again (R205). -/
def releaseTest (s : State) : State :=
  { s with out := { s.out with test := none, outs := vmapi (fun n o =>
      if heldDark s.out.test n || s.out.test.map (·.sel) == some (.light n) then { o with ch := switchOn s.out n o } else o) s.out.outs } }

/-- The next identification dark pulse for the short of output k, in an output of the other group committed 1 and unpaired, in ascending order;
none left: the source lies outside the module (R207). -/
def identNext (k : Nat) (x : ShortId) (s : State) : State :=
  match (members (1 - grpOut k)).find? fun j => (vget s.out.outs j).cmd && !pairedNow s (vget s.out.outs j) && !(j ∈ x.pulsed) with
  | none => endIdent k 4 0x1F s
  | some j =>
    let upd (y : ShortId) : ShortId := if y.out == k then { y with pulsed := y.pulsed ++ [j] } else y
    { s with out := { s.out with ident := s.out.ident.map upd, outs := vmod s.out.outs j fun o => { o with ch := false }
                                 test := some { sel := .ident k j, until_ := instant s + 16 * (vget s.out.outs j).dtW.toNat } } }

/-- `SHORT_IDENTIFY` of output k (R207): the next readback of its classification, `low` says that the terminal reads LOW. The first one, 1 ms
after the master opened, tells a source behind the master from one outside it; a paired output first has kill asserted, and is read again
within 1 ms (R275); then each reads within one identification dark pulse. -/
def shortIdentify (k : Nat) (low : Bool) (s : State) : State :=
  match s.out.ident.find? (·.out == k), s.out.test with
  | none, _ => s
  | some x, some r =>
    match r.sel with
    | .ident k' j =>
      if k' != k then s
      else
        let s1 := releaseTest (advanceTo r.until_ s)
        if low then latchOut j 3 k (endIdent k 3 j (openMaster (1 - grpOut k) 3 3 s1)) else identNext k x s1
    | _ => s
  | some x, none =>
    let s1 := advanceTo x.due s
    let g := grpOut k
    if low && x.killed then
      -- the partner was the source: nothing latches, and the master closes again at a commit point (R275)
      let back := fun (y : Grp) => { y with codes := y.codes.erase 4, latches := y.latches.erase 3, first := ((y.latches.erase 3).head?).getD 0 }
      { s1 with out := { s1.out with ident := (s1.out.ident.filter fun y => y.out != k), grps := vmod s1.out.grps g back } }
    else if low then endIdent k (if x.on.isEmpty then 9 else 3) (match x.on with | [j] => j | _ => 0x1F) s1
    else if pairedNow s1 (vget s1.out.outs k) && !x.killed then
      let upd (y : ShortId) : ShortId := if y.out == k then { y with killed := true, due := instant s1 + msTicks 1 } else y
      assertKill 1 { s1 with out := { s1.out with ident := s1.out.ident.map upd } }
    else identNext k x s1

/-- `SHORT_IDENTIFY`. -/
def execShortIdentify (k : Fin 20) (low : Bool) (s : State) : Host.Outcome State Fault Refusal :=
  .next (withOutEvents (shortIdentify k.val low) s)

/-! ### Output tests (R201 to R205, R480) -/

/-- Are the outputs of a group under test and judgement: bands 0b00 and 0b01 (R214)? -/
def testable (s : State) (g : Nat) : Bool := bandOf s g ≤ 1

/-- Dark tests of an output apply: in use, enabled, not latched, its group under test. -/
def darkReady (s : State) (n : Nat) (o : Out) : Bool := o.used && o.dtEn && o.latched.isEmpty && testable s (grpOut n)

/-- A dark test of the output is due in frame f: by its period, or for a paired output in the frame announced (R202, R272). -/
def darkOn (s : State) (n f : Nat) (o : Out) : Bool :=
  darkReady s n o && (if pairedNow s o then testAgreed s n f else o.nextTest ≤ f)

/-- Light tests of an output apply: enabled, committed 0, not latched, its group under test and its master closed (R203). -/
def lightReady (s : State) (n : Nat) (o : Out) : Bool :=
  n < 16 && o.used && o.ltEn && o.latched.isEmpty && !o.cmd && testable s (grpOut n) && (vget s.out.grps (grpOut n)).master

/-- The test of a window in frame f (R201): identification takes precedence; the start test of step 11 and the test of an
acknowledgement run in it; then the queue. -/
def selectTest (s : State) (f : Nat) : Option TestSel :=
  let grp (g : Nat) : Grp := vget s.out.grps g
  let o (n : Nat) : Out := vget s.out.outs n
  let starting := s.md.mstate == .starting && s.md.startStep == 11
  let closed (g : Nat) : Bool := (grp g).master && testable s g
  let outs := List.range 20
  if !s.out.ident.isEmpty then none
  else
    (([0, 1].find? fun g => starting && (grp g).band == 0 && !(2 ∈ (grp g).latches) && !(4 ∈ (grp g).latches) && !(grp g).startOk).map TestSel.start)
    <|> ((s.sup.waitAck.find? fun w => testable s w.1).map fun w => TestSel.ack w.1)
    <|> (([0, 1].find? fun g => (grp g).mtRetest && closed g).map TestSel.master)
    <|> ((outs.find? fun n => (o n).retestDark && darkReady s n (o n) && (!pairedNow s (o n) || testAgreed s n f) && (o n).cmd && !(o n).ecoAct).map TestSel.dark)
    <|> ((outs.find? fun n => (o n).retestLight && lightReady s n (o n)).map TestSel.light)
    <|> (([0, 1].find? fun g => closed g && (grp g).mtPerH != 0 && (grp g).mtLast + (grp g).mtPerH.toNat * 3600 * 16000000 ≤ now s).map TestSel.master)
    <|> ((outs.find? fun n => darkOn s n f (o n) && (o n).cmd).map TestSel.dark)
    <|> ((outs.find? fun n => lightReady s n (o n) && (o n).nextLight ≤ f).map TestSel.light)

/-- Dark tests that fall due while their output is committed 0 are skipped and counted as done; a high-side test due while economy
PWM runs is replaced by the check of the off phases, and the low-side one is next (R202). A paired test in whose frame the partner
commits differently, or that the partner has not announced, is skipped as well (R272). -/
def skipDark (f : Nat) (s : State) : State :=
  let skip (n : Nat) (o : Out) : Out :=
    let said (later : Bool) : Bool := match s.xl.announce with | some (k, g) => k == n && (g == f || (later && f < g)) | none => false
    let due := if pairedNow s o then said false || (!plansTests s && o.nextTest ≤ f && !said true) else o.nextTest ≤ f
    if !darkReady s n o || !due then o
    else if !o.cmd || !darkOn s n f o then { o with nextTest := f + o.dtPer.toNat, last := 5 }
    else if o.ecoAct && !o.lowSide then { o with nextTest := f + o.dtPer.toNat, lowSide := true }
    else o
  { s with out := { s.out with outs := vmapi skip s.out.outs } }

/-- What the terminals showed up to a window is noted: readbacks, currents, and since when an output committed 0 reads LOW or its
coil current lies below 50 mA (R217). -/
def noteReads (e : TestEnv) (s : State) : State :=
  let t := now s
  let f (n : Nat) (o : Out) : Out :=
    match e.reads.find? fun r => r.out.val == n with
    | none => o
    | some r => { o with rb := BitVec.ofNat 2 r.rb.val, rbl := if n < 16 then 0 else BitVec.ofNat 2 r.rbl.val, iMeas := r.ma
                         lowSince := if r.low && !o.cmd then some (o.lowSince.getD (max o.offAt (t - 128000))) else none }
  let g (n : Nat) (x : Grp) : Grp := match e.grpMa.find? fun r => r.1.val == n with | some r => { x with iGrp := r.2 } | none => x
  let k (n : Nat) (x : TOut) : TOut := match e.toMa.find? fun r => r.1.val == n with | some r => { x with iMeas := r.2 } | none => x
  { s with out := { s.out with outs := vmapi f s.out.outs, grps := vmapi g s.out.grps, tos := vmapi k s.out.tos } }

/-- The next dark test of an output after one in frame f, and which side of a brake output it takes (R202). -/
def Out.darkNext (f : Nat) (lowSide : Bool) (o : Out) : Out := { o with retestDark := false, lowSide := lowSide, nextTest := f + o.dtPer.toNat }

/-- A failed dark test (R202): counted, retested in the next frame; the second in a row is the short condition. A failed
low-side test latches the brake output off with code 0x9 (R206). -/
def darkFailed (n f : Nat) (low : Bool) (s : State) : State :=
  let o := vget s.out.outs n
  let s1 := outEvt 0 (modOut n (fun o => { o with last := 2, dtFailCnt := satUp o.dtFailCnt }) s)
  if low then latchOut n 9 0x1F (modOut n (·.darkNext f false) s1)
  else if o.retestDark then shortCondition n (modOut n (·.darkNext f (16 ≤ n)) s1)
  else modOut n (fun o => { o with retestDark := true }) s1

/-- A master test has failed twice: every channel switch of the group opens and is latched off, with cause 4 (R204). -/
def masterFailed (g : Nat) (s : State) : State :=
  let off (n : Nat) (o : Out) : Out := if grpOut n = g then { o with ch := false, ecoAct := false } else o
  openMaster g 4 9 (outEvt 7 { s with out := { s.out with outs := vmapi off s.out.outs } })

/-- Master test of a group judged (R204, R480): `closing` tests leave their result to the start or the acknowledgement. -/
def masterJudged (g : Nat) (pass : Bool) (s : State) : State :=
  let x := vget s.out.grps g
  let t := now s
  if pass then modGrp g (fun x => { x with mtLast := t, mtRetest := false }) s
  else if x.mtRetest then
    masterFailed g (modGrp g (fun x => { x with mtLast := t, mtRetest := false }) s)
  else modGrp g (fun x => { x with mtRetest := true }) s

/-- Clears every latch of a group (R217): the next cause in force is the module state's, or none. -/
def ackGroup (g : Nat) : State → State := withOutEvents fun s =>
  let s1 := modGrp g (fun x => { x with latches := [], codes := [], srcOut := 0x1F, first := if masterHeld s then 6 else 0 }) s
  let s2 := { s1 with out := { s1.out with outs := vmapi (fun n o => if grpOut n = g then { o with latched := [], retestDark := false, classified := false } else o) s1.out.outs } }
  postEv 0x0704 g [] (outEvt 11 s2)

/-- Is every latched condition of the group gone but a master test failure (R217)? -/
def ackReady (s : State) (g : Nat) : Bool :=
  let x := vget s.out.grps g
  (!(1 ∈ x.latches) || 16 ≤ s.cyc.guard.run) && (!(2 ∈ x.latches) || (x.clear && x.band == 0)) &&
  !(s.out.ident.any fun i => grpOut i.out == g) &&
  (members g).all fun n =>
    let o := vget s.out.outs n
    (!(o.latched.any fun c => c == 3 || c == 4 || c == 9) || (!o.cmd && (match o.lowSince with | some t => max t o.offAt + msTicks 100 ≤ now s | none => false))) &&
    (!(7 ∈ o.latched) || !o.rbBad)

/-- `GRP_STg` (08, registers). -/
def grpSt (s : State) (g : Nat) : Nat :=
  let x := vget s.out.grps g
  at1 x.master 0 + at1 (!x.latches.isEmpty) 1 + 4 * x.first + 32 * x.band + at1 (configured s && ackReady s g) 7 + 256 * grpCode s g + 4096 * x.srcOut

/-- A dark test judged at the end of its pulse (R202). -/
def judgeDark (n : Nat) (r : TestRun) (s : State) : State :=
  if r.pass then modOut n (fun o => { o.darkNext r.frame (16 ≤ n && !r.low) with last := 1 }) s else darkFailed n r.frame r.low s

/-- A light test judged (R203): the second failure in a row sets code 0x7, which is not latched, and a pass ends it. -/
def judgeLight (n : Nat) (pass : Bool) (s : State) : State :=
  if pass then modOut n (fun o => { o with last := 3, retestLight := false, lightBad := false }) s
  else outEvt 1 (modOut n (fun o => { o with last := 4, ltFailCnt := satUp o.ltFailCnt, retestLight := !o.retestLight
                                             lightBad := o.lightBad || o.retestLight }) s)

/-- The closing test of a starting group judged (R480). -/
def judgeStart (g : Nat) (pass : Bool) (s : State) : State :=
  if pass then modGrp g (fun x => { x with startOk := true, mtLast := now s }) s
  else if (vget s.out.grps g).startFailed then masterFailed g s
  else modGrp g (fun x => { x with startFailed := true }) s

/-- The closing test that an acknowledgement runs, judged: it decides the acknowledgement (R217). -/
def judgeAck (g : Nat) (pass : Bool) (s : State) : State :=
  let w := s.sup.waitAck.filter fun w => w.1 == g
  let s1 := { s with sup := { s.sup with waitAck := s.sup.waitAck.filter fun w => w.1 != g } }
  let done := pass && ackReady s1 g
  let s2 := if done then ackGroup g (modGrp g (fun x => { x with startOk := true, mtLast := now s1 }) s1) else s1
  w.foldl (fun s p => complete p.2 0x0406 (if done then .ok else .wrongState) (if done then leBytes 4 (grpSt s g) else wrongState s) s) s2

/-- The pulse of a test ends: its switches take what is committed again, a master that it opened closes while its drive toggles, one that it
closed opens, and the test is judged. -/
def endTest (r : TestRun) (s : State) : State :=
  let s1 := releaseTest (advanceTo r.until_ s)
  match r.sel with
  | .start g => judgeStart g r.pass (modGrp g (fun x => { x with master := false }) s1)
  | .ack g => judgeAck g r.pass (modGrp g (fun x => { x with master := false }) s1)
  | .master g => masterJudged g r.pass (modGrp g (fun x => { x with master := x.drive }) s1)
  | .dark n => judgeDark n r s1
  | .light n => judgeLight n r.pass s1
  | .ident _ _ => s

/-- A test whose pulse has ended by now is judged; an identification pulse is ended by its own readback. -/
def settleTest (s : State) : State :=
  match s.out.test with
  | some r => if r.until_ ≤ instant s then withOutEvents (endTest r) s else s
  | none => s

/-- A test of a window begins: its pulse, of so many µs, and the switch that makes it (R202 to R204, R480). -/
def startTest (sel : TestSel) (f : Nat) (pass : Bool) (s : State) : State :=
  let run (us : Nat) (low : Bool) : State → State := fun s =>
    { s with out := { s.out with test := some { sel := sel, frame := f, until_ := instant s + 16 * us, pass := pass, low := low } } }
  let open_ (s : State) : State := { s with out := { s.out with outs := vmapi (fun n o => if heldDark s.out.test n then { o with ch := false } else o) s.out.outs } }
  match sel with
  | .start g | .ack g => open_ (run 300 false (modGrp g (fun x => { x with master := true }) s))
  | .master g => run 300 false (modGrp g (fun x => { x with master := false }) s)
  | .dark n =>
    let o := vget s.out.outs n
    open_ (run o.dtW.toNat (16 ≤ n && o.lowSide && !o.retestDark) s)
  | .light n => run 200 false (modOut n (fun o => { o with ch := true, nextLight := f + o.dtPer.toNat }) s)
  | .ident _ _ => s

/-- The frame of the next window: the first one that starts from now on and has not been served (R201). -/
def nextFrame (s : State) : Nat :=
  let f := (toGrid s (instant s) + 127999 - 104000) / 128000
  if s.out.lastFrame == some f then f + 1 else f

/-- The readback comparators are checked in every frame, in the bands in which outputs are tested (R213, R214). -/
def checkReadbacks (bad : List (Fin 20)) (s : State) : State :=
  (List.range 20).foldl (fun s n =>
    if !testable s (grpOut n) then s
    else
      let b := bad.any fun x => x.val == n
      let s := modOut n (fun o => { o with rbBad := b }) s
      if b then latchOut n 7 0x1F s else s) s

/-- `OUTPUT_TEST_WINDOW`: the window of the next 8 ms frame (R201) starts one test; its pulse is in progress until its end, and the first of
this command, a freeze or a commit point that comes after the end judges it (notes/assumptions/97.md). -/
def testWindow (e : TestEnv) (s : State) : State :=
  let s0 := match s.out.test with
    | some r => match r.sel with | .ident _ _ => s | _ => endTest r s
    | none => s
  let f := nextFrame s0
  let s1 := noteReads e (advanceTo (fromGrid s0 (128000 * f + 104000)) s0)
  let s2 := skipDark f (checkReadbacks e.rbBad { s1 with out := { s1.out with lastFrame := some f } })
  match selectTest s2 f with
  | some sel => startTest sel f e.pass s2
  | none => s2

/-- `OUTPUT_TEST_WINDOW`. -/
def execOutputTestWindow (e : TestEnv) (s : State) : Host.Outcome State Fault Refusal := .next (withOutEvents (testWindow e) s)

/-! ### Overload, open load, group overcurrent (R210 to R212) -/

/-- `OUTPUT_OVERLOAD` (R210). -/
def execOutputOverload (n : Fin 20) (s : State) : Host.Outcome State Fault Refusal := .next (withOutEvents (latchOut n.val 8 0x1F) s)

/-- `TO_OVERLOAD_RETRY` of test output k (R210): in current limit for more than 1 ms it is off and tries again after 100 ms;
quality returns once 1 s has passed without overload. -/
def toOverload (k : Nat) (still : Bool) (s : State) : State :=
  let t := vget s.out.tos k
  let s1 := if t.ovl then advanceTo (t.ovlAt + msTicks 100) s else if t.ovlBad && !still then advanceTo (t.ovlAt + msTicks 1000) s else s
  let t1 := if still then { t with ovl := true, ovlBad := true, ovlAt := now s1, dark := false }
    else { t with ovl := false, ovlBad := t.ovlBad && (t.ovl || now s1 < t.ovlAt + msTicks 1000) }
  let s2 := { s1 with out := { s1.out with tos := vset s1.out.tos k t1 } }
  let s3 := if still && !t.ovlBad then outEvt 5 s2 else s2
  followSources (if still && t.dark then endWindows k s3 else s3)

/-- `TO_OVERLOAD_RETRY`. -/
def execToOverloadRetry (k : Fin 16) (still : Bool) (s : State) : Host.Outcome State Fault Refusal :=
  .next (withInpEvents (toOverload k.val still) s)

/-- Is an output energised (R211)? -/
def energised (s : State) (n : Nat) : Bool :=
  let o := vget s.out.outs n
  o.cmd && o.ch && (vget s.out.grps (grpOut n)).master && testable s (grpOut n)

/-- `OPEN_LOAD`: the current of an energised output has been on one side of its minimum for 100 ms (R211); `ua` in µA. -/
def openLoad (n ua : Nat) (s : State) : State :=
  let low := ua < (if n < 16 then 2000 else 20000)
  if !energised s n then s
  else
    let s1 := modOut n (fun o => { o with openLoad := low, iMeas := BitVec.ofNat 12 (min (ua / 1000) 4095) }) s
    if low && !(vget s.out.outs n).openLoad then outEvt 6 s1 else s1

/-- `OPEN_LOAD`. -/
def execOpenLoad (n : Fin 20) (ua : Nat) (s : State) : Host.Outcome State Fault Refusal := .next (withOutEvents (openLoad n.val ua) s)

/-- `GROUP_OVERCURRENT` (R212). -/
def execGroupOvercurrent (g : Fin 2) (s : State) : Host.Outcome State Fault Refusal :=
  .next (withOutEvents (fun s =>
    openMaster g.val 5 8 (outEvt 8 (modGrp g.val (fun x => { x with codes := if 8 ∈ x.codes then x.codes else x.codes ++ [8] }) s))) s)

/-! ### Brake economy (R200, R202) -/

/-- Duty of economy hold at a group voltage in 10 mV: max(50%, 12.0 V / VF), as a fraction; all of the time below 12.0 V (R200). -/
def ecoDuty (vf : Nat) : Nat × Nat := if 2400 ≤ vf then (1, 2) else if vf ≤ 1200 then (1, 1) else (1200, vf)

/-- A group's voltage measured, in 10 mV: the duty of economy hold follows it (R200, R214). -/
def measureVf (g vf : Nat) (s : State) : State :=
  let s1 := modGrp g (fun x => { x with vGrp := BitVec.ofNat 12 vf }) s
  { s1 with out := { s1.out with outs := vmapi (fun n o => if grpOut n = g && o.ecoAct then { o with duty := ecoDuty vf } else o) s1.out.outs } }

/-- `ECO_PHASE_END`: 300 ms after the commit of 1 a brake output with `ECO` changes to PWM (R200). -/
def execEcoPhaseEnd (b : Fin 4) (s : State) : Host.Outcome State Fault Refusal :=
  let n := 16 + b.val
  let o := vget s.out.outs n
  .next (if !o.eco || !o.cmd || !o.ch then s
    else modOut n (fun o => { o with ecoAct := true, offPhase := 0, duty := ecoDuty (vget s.out.grps (grpOut n)).vGrp.toNat }) (advanceTo (o.onAt + msTicks 300) s))

/-- `ECO_OFF_PHASE_CHECK`: one PWM period of a brake output, with the group voltage measured in it (R200); 16 off phases in a row in which BOn+
does not read LOW count as a failed high-side dark test (R202). -/
def ecoOffPhase (n : Nat) (low : Bool) (vf : Nat) (s : State) : State :=
  let o := vget s.out.outs n
  if !o.ecoAct then s
  else
    let s1 := measureVf (grpOut n) vf s
    if !testable s1 (grpOut n) then s1
    else if low then modOut n (fun o => { o with offPhase := 0, retestDark := false }) s1
    else if o.offPhase + 1 < 16 then modOut n (fun o => { o with offPhase := o.offPhase + 1 }) s1
    else darkFailed n (toGrid s1 (now s1) / 128000) false (modOut n (fun o => { o with offPhase := 0 }) s1)

/-- `ECO_OFF_PHASE_CHECK`. -/
def execEcoOffPhaseCheck (b : Fin 4) (low : Bool) (vf : BitVec 12) (s : State) : Host.Outcome State Fault Refusal :=
  .next (withOutEvents (ecoOffPhase (16 + b.val) low vf.toNat) s)

/-- `MASTER_DRIVE_LOSS`: a drive that stops toggling opens its master within 100 µs; the guard toggles it again as it next lets the master be
closed, at a commit point (R44, R196). -/
def execMasterDriveLoss (g : Fin 2) (s : State) : Host.Outcome State Fault Refusal :=
  .next (modGrp g.val (fun x => { x with drive := false, master := false }) s)

/-! ### Field group bands (R214, R463, R464) -/

/-- Threshold code of a band entered (R473). -/
def bandEvent (b : Nat) : Nat := match b with | 1 => 0x20 | 2 => 0x21 | 3 => 0x22 | _ => 0x23

/-- Does a cut latch now (R464)? In `STARTING` only from step 11. -/
def cutLatches (s : State) : Bool := !(s.md.mstate == .starting && s.md.startStep < 11)

/-- A test in progress on a group, or one of its outputs, is abandoned and not counted; retests with it (R214). -/
def abandonTests (g : Nat) (s : State) : State :=
  let mine := s.out.test.any fun r => match r.sel with
    | .start h | .ack h | .master h => h == g
    | .dark n | .light n => grpOut n == g
    | .ident _ _ => false
  let s1 := if mine then
      let s1 := releaseTest s
      if s.out.test.map (·.sel) == some (.master g) then modGrp g (fun x => { x with master := x.drive }) s1
      else modGrp g (fun x => { x with master := x.master && x.drive }) s1
    else s
  { s1 with out := { s1.out with grps := vmod s1.out.grps g fun x => { x with mtRetest := false }
                                 outs := vmapi (fun n o => if grpOut n = g then { o with retestDark := false, retestLight := false } else o) s1.out.outs } }

/-- `VF_BAND_CHANGE` of group g at a measured voltage (10 mV): the group enters a band after its qualification time (R463); from
cut it returns only to 0b00. Below 0b01 its tests are abandoned; a cut opens its switches and its master (R214). -/
def bandChange (g new vf : Nat) (s : State) : State :=
  let x := vget s.out.grps g
  if x.band = new ∨ (x.band = 3 ∧ new ≠ 0) then s
  else
    let s1 := latchT0 (settleTest s)
    let s2 := measureVf g vf (modGrp g (fun x => { x with band := new, clear := if new = 3 then false else x.clear || x.band == 3 }) s1)
    let s3 := supplyEvent (2 + g) (bandEvent new) vf (inputsOnBand g x.band new s2)
    let s4 := if 2 ≤ new then abandonTests g s3 else s3
    let s5 := if new = 3 then
        let s5 := outEvt 9 { s4 with out := { s4.out with outs := vmapi (fun n o => if grpOut n = g then { o with ch := false, ecoAct := false, duty := (1, 1) } else o) s4.out.outs } }
        if cutLatches s then openMaster g 2 5 s5 else modGrp g (fun x => { x with master := false, drive := false }) s5
      else if new = 2 then outEvt 10 s4
      else s4
    followSources s5

/-- `VF_BAND_CHANGE`. -/
def execVfBandChange (g : Fin 2) (band : Fin 4) (vf : BitVec 12) (s : State) : Host.Outcome State Fault Refusal :=
  .next (withInpEvents (withOutEvents (bandChange g.val band.val vf.toNat)) s)

/-- `VF_OVERVOLTAGE`: above 33.0 V for 1 ms (R463). -/
def execVfOvervoltage (g : Fin 2) (vf : BitVec 12) (s : State) : Host.Outcome State Fault Refusal :=
  .next (supplyEvent (2 + g.val) 0x24 vf.toNat (measureVf g.val vf.toNat s))

/-- Start of step 11 (R464): a group above 19.2 V for 100 ms stands in band 0b00 with no cut latched; any other stands in cut
with cause 2 latched. -/
def fixStartBands : State → State := withOutEvents fun s =>
  let f (s : State) (g : Nat) : State :=
    let x := vget s.out.grps g
    if x.clear && x.band = 0 then modGrp g (fun x => { x with latches := x.latches.erase 2 }) s
    else openMaster g 2 5 (modGrp g (fun x => { x with band := 3, clear := false }) s)
  [0, 1].foldl f s

end Sys2Proof.Machine
end

