-- ==== Sys2Proof/Machine/CrossLink.lean ====
section
/-! DEFINITION. The cross-link (10_cross_link_pairs R256 to R281): containers, phase lock, joining, `CLSTOP`, kill and takeover. -/

namespace Sys2Proof.Machine

/-! ### Periods (R27) -/

/-- TCLK ticks of a period code. -/
def periodTicks (code : Nat) : Nat :=
  match code with | 0 => 4000 | 1 => 8000 | 2 => 16000 | 3 => 32000 | 4 => 128000 | _ => 256000

/-- Ticks from t0 to the commit point. -/
def commitTicks (code : Nat) : Nat := periodTicks code * 85 / 100

/-- Period code in `QUIET`: `CYC_CFG.QTCYC`. -/
def quietCode (s : State) : Nat := 4 + s.cyc.qtcyc % 2

/-- Period code in `QUIET` after the next boundary: that of a commit that takes force there. -/
def quietNext (s : State) : Nat := 4 + (s.cyc.qtcycNext.getD s.cyc.qtcyc) % 2

/-- Period code outside `QUIET`: `run`, unless the join has taken a Quiet code from the acting master (R28, R260). -/
def followed (s : State) (run : Nat) : Nat := match s.xl.took with | some c => if 4 ≤ c then c else run | none => run

/-- Period code of the cycle that starts at the next t0, as known now (R28, R42, R263). -/
def nextPeriod (s : State) : Nat :=
  let run := followed s (s.cyc.tcycNext.getD s.cyc.tcyc)
  match s.md.mstate with
  | .quiet => if s.md.quietOut.isSome then run else quietNext s
  | .run => if s.md.quietIn == some (s.cyc.num + 1) then quietNext s else run
  | _ => run

/-- Takes part in the carrier's cycle: joined, or acting cycle master (R22, R267). -/
def onCarrier (s : State) : Bool := s.xl.joined || s.xl.acting

/-! ### Containers (R261 to R264) -/

/-- CRC of a container: slot number, then words 0 to 32 as sent (R262). -/
def xlCrc (slot : Nat) (ws : List Word) : Word :=
  crc32c (BitVec.ofNat 8 slot :: (ws.take 33).flatMap fun w => beBytes 4 w.toNat)

/-- A container of a slot: header, 32 words, CRC. -/
def xlContainer (slot xcnt : Nat) (body : List Word) : List Word :=
  let h : Word := BitVec.ofNat 32 (slot / 2 + (if slot % 2 = 1 then 8 else 0) + 16 + 65536 * (xcnt % 65536))
  let ws := h :: (body.take 32 ++ List.replicate (32 - body.length) 0)
  ws ++ [xlCrc slot ws]

/-- Do the words of a copy pass R264 on slot `slot`; the count is not judged before the join, which learns it (R260). -/
def xlAccepts (slot xcnt : Nat) (judge : Bool) (ws : List Word) : Bool :=
  let h := (lget ws 0 0).toNat
  ws.length == 34 && lget ws 33 0 == xlCrc slot ws && bits h 2 0 == slot / 2 && bits h 3 3 == slot % 2 && bits h 7 4 == 1 &&
  (!judge || bits h 31 16 == xcnt % 65536)

/-- Committed local outputs by output index: word 6. -/
def word6 (s : State) : Nat :=
  ((List.range 20).map fun n => at1 ((Mem.read 0 s.cyc.committed (0x4000 + n)).getLsbD 0) n).sum

/-- Committed transmit cells. -/
def xlTxCells (s : State) : List Word := (List.range 32).map fun i => Mem.read 0 s.cyc.committed (0x4020 + i)

/-- Every output point owned by a logical safety lane (R22). -/
def ownedPoints (s : State) : List Nat := (allOwned s).filter isOutPoint

/-- Has an output point been committed with bit 0 = 0 for at least 16 consecutive cycles (R22, R255, R439)? -/
def offFor16 (s : State) (c : Nat) : Bool :=
  !(Mem.read 0 s.cyc.committed c).getLsbD 0 &&
  (match s.cyc.lastOne.find? (·.1 == c) with | some p => p.2 + 16 ≤ s.cyc.num | none => 16 ≤ s.md.committedCycles)

/-- Does every motion monitor in use report standstill? -/
def allStand (s : State) : Bool := vall s.mm.mons fun m => !m.used || m.stand

/-- Ticks of the rotation period. -/
def rotTicks (s : State) : Nat := hourTicks s.lane.rotPeriodH.toNat

/-- Is a hand-over scheduled for the next boundary (R22): a request, a rotation that is due, or falls due in this cycle's P4, or
relieves a suspect lane, with a spare for it, or a `PROG_HANDOVER`? -/
def moveScheduled (s : State) : Bool :=
  (vany s.lane.lls fun l => l.hoReq) || (s.sup.acts.any fun a => match a.kind with | .handover _ => true | _ => false) ||
  ((vany s.lane.lanes fun l => l.role == .spare) &&
   (s.lane.rotDue || (s.lane.rotPeriodH != 0 && s.lane.rotSince + rotTicks s ≤ now s + 64) ||
    vany s.lane.lanes fun l => l.role == .safety && l.suspect))

/-- The conditions of R22 but the request: Quiet ready. -/
def quietReady (s : State) : Bool :=
  s.md.mstate == .run && (ownedPoints s).all (offFor16 s) && allStand s && !s.nv.inForce.fore && !moveScheduled s

/-- Does the module pull `CLSTOP` (R268)? -/
def pullsStop (s : State) : Bool :=
  (s.xl.stopDrv.getLsbD 0 && s.md.mstate == .fault) || (s.xl.stopDrv.getLsbD 1 && s.md.mstate == .safeHold) ||
  (s.xl.stopDrv.getLsbD 2 && s.xl.stopCmd)

/-- File bytes that the transfer channel sends: 1 graph image, 2 configuration, 3 calibration, with its length (R263, R281). -/
def xferFile (s : State) (obj : Nat) : Mem 8 × Nat :=
  let img := vget s.nv.img s.nv.actImg
  let act (v : Vector NvCopy 2) : Mem 8 := (if (vget v 1).commit > (vget v 0).commit then vget v 1 else vget v 0).file
  match obj with
  | 1 => (img, imgLe img 0x08 4)
  | 2 => (act s.nv.cfg, imgLe (act s.nv.cfg) 0x08 4)
  | _ => (act s.nv.cal, imgLe (act s.nv.cal) 0x08 4)

/-- Words 17 to 32: the transfer channel. -/
def xferWords (s : State) : List Word :=
  if s.xl.xferObj = 0 then List.replicate 16 0
  else
    let (m, len) := xferFile s s.xl.xferObj
    let b := (List.range 60).map fun i => if s.xl.xferOfs + i < len then Mem.read 0 m (s.xl.xferOfs + i) else 0
    BitVec.ofNat 32 (s.xl.xferObj + 256 * s.xl.xferOfs) :: (List.range 15).map fun i => BitVec.ofNat 32 (leAt b (4 * i) 4)

/-- The transfer channel goes on by 60 bytes, and from an object to the next. -/
def xferNext (s : State) : State :=
  if s.xl.xferObj = 0 then s
  else
    let o := s.xl.xferOfs + 60
    if o < (xferFile s s.xl.xferObj).2 then { s with xl := { s.xl with xferOfs := o } }
    else { s with xl := { s.xl with xferObj := if s.xl.xferObj < 3 then s.xl.xferObj + 1 else 0, xferOfs := 0 } }

/-- Words 1 to 32 of the service container (R263). -/
def svcWords (s : State) : List Word :=
  let w (n : Nat) : Word := BitVec.ofNat 32 n
  let rm := (vget s.ring.rings 0).master || (vget s.ring.rings 1).master
  let w1 := s.md.mstate.code + at1 s.nv.inForce.fore 3 + 16 * s.md.cause.toNat + 4096 * nextPeriod s + at1 (pairMode s) 15 +
    65536 * roleOf s + at1 rm 17 + at1 (quietReady s) 18 + at1 s.xl.quietReq 19 + at1 s.xl.quietExit 20 + at1 (pullsStop s) 21 +
    at1 s.xl.killOut 22 + at1 s.md.qualPartner 23
  let w64 (n : Nat) : List Word := [w n, w (n / 2 ^ 32)]
  let pu := if pairMode s then pairUid s else 0
  let an := match s.xl.announce with | some (n, f) => n + 32 * (f % 2 ^ 27) | none => 0x1F
  let im := s.image.getD {}
  [w w1] ++ w64 s.cyc.lastT0 ++ w64 s.xl.stamp ++ [w (word6 s), w an] ++ w64 (moduleUid s) ++ w64 pu ++
  [w (carrierId s), im.id, im.ver, s.nv.inForce.chk, w (if pairMode s then s.xl.toMask.toNat else 0xFFFF)] ++ xferWords s

/-- The next paired dark test (R272): among the paired outputs under dark test and committed 1, the one due first, from the
second frame on. -/
def nextAnnounce (s : State) : Option (Nat × Nat) :=
  if !pairMode s || !plansTests s then s.xl.announce
  else
    let f := (toGrid s (now s)) / 128000
    match s.xl.announce with
    | some (n, g) => if f ≤ g then some (n, g) else none
    | none =>
      let due := (List.range 20).filter fun n => let o := vget s.out.outs n; o.used && o.paired && o.dtEn && o.cmd && o.latched.isEmpty
      (due.foldl (fun (acc : Option Nat) n => match acc with
        | none => some n
        | some m => if (vget s.out.outs n).nextTest < (vget s.out.outs m).nextTest then some n else acc) none).map
          fun n => (n, max (vget s.out.outs n).nextTest (f + 2))

/-- May the module send on `CLA` and `CLB` (R258, R266)? -/
def xlSends (s : State) : Bool :=
  (s.xl.acting || (s.xl.joined && s.xl.locked)) &&
  (match s.md.mstate with | .starting | .run | .quiet | .safeHold => true | _ => false)

/-- `XL_SLOT` (R261): at its slot start the module sends its data or service container on both lanes, and receives its own
(R265). -/
def xlSlot (svc : Bool) (s : State) : State :=
  let slot := 2 * s.xl.mid + b2n svc
  let s1 := advanceTo (s.cyc.commitAt + 64 + 250 * slot) s
  if !xlSends s1 then s1
  else
    let live := s1.md.mstate == .run || s1.md.mstate == .quiet
    let s2 := if svc then { s1 with xl := { s1.xl with announce := nextAnnounce s1 } } else s1
    let ws := xlContainer slot s2.xl.pcnt (if svc then svcWords s2 else if live then xlTxCells s2 else [])
    let own : List XlCopy := [{ slot := slot, clb := false, words := ws }, { slot := slot, clb := true, words := ws }]
    let s3 := { s2 with xl := { s2.xl with copies := s2.xl.copies ++ own } }
    if svc then xferNext { s3 with xl := { s3.xl with txSvc := ws } } else { s3 with xl := { s3.xl with txData := ws } }

/-- `XL_SLOT`. -/
def execXlSlot (svc : Bool) (s : State) : Host.Outcome State Fault Refusal := .next (xlSlot svc s)

/-- A copy arrives in a slot on a lane (R264): it counts in `XL_LANE` when it fails; two accepted copies that differ are both
unused. -/
def xlReceive (slot : Nat) (clb : Bool) (ws : List Word) (s : State) : State :=
  let judged := onCarrier s
  if !xlAccepts slot s.xl.pcnt judged ws then
    let bad := ws.length != 34 || lget ws 33 0 != xlCrc slot ws
    let s1 := if bad then xlEvt 0 s else s
    { s1 with xl := { s1.xl with claErr := if clb then s1.xl.claErr else satUp s1.xl.claErr
                                 clbErr := if clb then satUp s1.xl.clbErr else s1.xl.clbErr } }
  else
    let other := s.xl.copies.find? fun c => c.slot == slot && c.clb != clb
    let s1 := { s with xl := { s.xl with copies := s.xl.copies ++ [{ slot := slot, clb := clb, words := ws }] } }
    match other with
    | some c =>
      if c.words == ws || slot ∈ s.xl.clash then s1
      else postEv 0x0902 (slot / 2) (leBytes 1 (slot % 2)) (xlEvt 1 { s1 with xl := { s1.xl with clash := slot :: s1.xl.clash } })
    | none => s1

/-- `XL_CONTAINER_RECEIVE`. -/
def execXlContainerReceive (slot : Fin 16) (clb : Bool) (ws : List Word) (s : State) : Host.Outcome State Fault Refusal :=
  .next (xlReceive slot.val clb ws s)

/-! ### The end of a cross-link period -/

/-- The usable container of a slot in this period. -/
def usable (s : State) (slot : Nat) : Option (List Word) :=
  if slot ∈ s.xl.clash then none else (s.xl.copies.find? (·.slot == slot)).map (·.words)

/-- Service words 1 to 32 of a module in the last period. -/
def svcOf (s : State) (m : Nat) : Option (List Word) := (s.xl.svc.find? (·.1 == m)).map (·.2)

/-- Word n of a service container. -/
def svcW (ws : List Word) (n : Nat) : Nat := (lget ws (n - 1) 0).toNat

/-- Two words as a 64-bit number. -/
def svcW2 (ws : List Word) (n : Nat) : Nat := svcW ws n + 2 ^ 32 * svcW ws (n + 1)

/-- Programs and locks G7 of a module that is being taken into a pair with the partner's pair UID and carrier group ID (R281). -/
def adoptG7 (uid carrier : Nat) (s : State) : State :=
  let v := uid + 2 ^ 64 * carrier
  let w := v + (grpCheck 7 v).toNat * 2 ^ (grpLen 7 - 17) + 2 ^ (grpLen 7 - 1)
  let l := ((List.range (grpLen 7)).filter w.testBit).map (grpLo 7 + ·)
  afterProg (Prog.setBits l { f := s.fuse }) {} 7 s

/-- May G7 be programmed for a pair: life-cycle OEM, blank and not locked, the presence window open, the supply and the temperature
of R362; no session is needed (16 after R415, R281). -/
def adoptMay (s : State) : Bool :=
  let x := vget s.fuse.grps 7
  lcAllows s 7 && x.st == 0 && !x.locked && s.sess.winOpen && now s < s.sess.winEnd && (takenStop s).isNone

/-- Is G7 programmed and locked: what the transfer waits for? -/
def adopted (s : State) : Bool := let x := vget s.fuse.grps 7; (x.st == 1 || x.st == 2) && x.locked

/-- Does an image received pass R93? The period and the forerunner mode are those of the configuration that follows it, and are
judged at the restart. -/
def xferImageOk (s : State) (m : Mem 8) : Bool :=
  match acceptImage m (slotHash s) s.cyc.tcyc s.nv.inForce.fore none with
  | .ok _ => true | .bad r _ => r = 0x0D ∨ r = 0x0E | .budget _ _ _ => true

/-- Bytes of the transfer channel received from the partner (R281): the first one programs G7, under its conditions; an object is
stored when the next begins, an image only where it is accepted; after the last the module restarts. Only a module in `SAFE_HOLD` with
cause 0x11 is taken in, and only with G7 locked. -/
def xferReceive (ws : List Word) (s : State) : State :=
  let h := svcW ws 17
  let obj := h % 256
  if s.md.mstate != .safeHold || !(0x11#8 ∈ s.md.recorded) then s else
  let s1 := if obj != 0 && adoptMay s then adoptG7 (svcW2 ws 10) (svcW ws 12) s else s
  if !adopted s1 then s1 else
  let store (s : State) : State :=
    match s.xl.rxObj with
    | 1 => if !xferImageOk s s.xl.rxBytes then s else { s with nv := { s.nv with img := vset s.nv.img (1 - s.nv.actImg) s.xl.rxBytes, actImg := 1 - s.nv.actImg } }
    | 2 => { s with nv := { s.nv with cfg := vmod s.nv.cfg 0 fun c => { c with file := s.xl.rxBytes, commit := (vget s.nv.cfg 1).commit + 1 } } }
    | 3 => { s with nv := { s.nv with cal := vmod s.nv.cal 0 fun c => { c with file := s.xl.rxBytes, commit := (vget s.nv.cal 1).commit + 1 } },
                    md := { s.md with shutReq := some .restart } }
    | _ => s
  if obj = s1.xl.rxObj ∧ obj = 0 then s1
  else
    let s2 := if obj = s1.xl.rxObj then s1
      else let t := store s1; { t with xl := { t.xl with rxObj := obj, rxBytes := [] } }
    if obj = 0 then s2
    else
      let b := (List.range 15).flatMap fun i => leBytes 4 (svcW ws (18 + i))
      { s2 with xl := { s2.xl with rxBytes := Mem.writeBytes 0 s2.xl.rxBytes (h / 256) b } }

/-- Does the configured `RUN` TCYC differ from the acting master's (R260)? While the master announces a Quiet period its `RUN` TCYC
cannot be seen, and no difference is found (notes/assumptions/88.md). -/
def tcycDiffers (s : State) : Bool :=
  !onCarrier s && match svcOf s s.xl.actMaster with | some ws => let c := bits (svcW ws 1) 14 12; c < 4 && c != s.cyc.tcyc | none => false

/-- Do words 13 to 15 of the partner differ from the own image and configuration (R269)? -/
def pairDiffers (s : State) : Bool :=
  let im := s.image.getD {}
  pairMode s && match svcOf s (partnerMid s) with
    | some ws => lget ws 12 0 != im.id || lget ws 13 0 != im.ver || lget ws 14 0 != s.nv.inForce.chk
    | none => false

/-- Does a difference that gives cause 0x12 stand: with the acting master while not joined, with the partner when joined second
(R25, R260, R269)? -/
def carrierDiffers (s : State) : Bool := tcycDiffers s || (onCarrier s && s.xl.second && pairDiffers s)

/-- A module that joined second and differs from its partner finds cause 0x12, once (R269). -/
def pairCheck (s : State) : State :=
  if onCarrier s && s.xl.second && pairDiffers s && !(0x12#8 ∈ s.md.holdPend || 0x12#8 ∈ s.md.recorded) then findCause 0x12 s else s

/-- The period code that the join takes from the acting master's last container, and follows after the join while it stays a Quiet
code (R260). -/
def periodTaken (s : State) : Option Nat :=
  if s.xl.acting || (s.xl.joined && !(s.xl.took.any (4 ≤ ·))) then none
  else match svcOf s s.xl.actMaster with
    | some ws => let c := bits (svcW ws 1) 14 12; if s.xl.joined && c < 4 then none else some c
    | none => if s.xl.joined then none else s.xl.took

/-- The period that the last commit point opened is over: its containers become the service picture and the data that the next
freezes use; the partner's absence or state is answered (R264, R265, R271, R274, R280). -/
def xlClose (s : State) : State :=
  let mids := List.range 8
  let svc := mids.filterMap fun m => (usable s (2 * m + 1)).map fun ws => (m, ws.drop 1)
  let dat := mids.filterMap fun m => (usable s (2 * m)).map fun ws => (m, bits (lget ws 0 0).toNat 31 16, (ws.drop 1).take 32)
  let was := s.xl.present
  let present : Byte := BitVec.ofNat 8 ((svc.map fun p => 2 ^ p.1).sum)
  let lost := mids.any fun m => was.getLsbD m && ((usable s (2 * m + 1)).isNone || (usable s (2 * m)).isNone)
  let master := svc.find? (·.1 == s.xl.actMaster)
  let mcnt := (usable s (2 * s.xl.actMaster + 1)).map fun ws => bits (lget ws 0 0).toNat 31 16
  let s1 := { s with xl := { s.xl with svc := svc, present := present, known := if onCarrier s then s.xl.known ||| present else 0, data := (dat ++ s.xl.data).take 24, copies := [], clash := [],
                                       observed := if master.isSome && !s.xl.joined && !s.xl.acting then s.xl.observed + 1 else if s.xl.joined then s.xl.observed else 0,
                                       xcnt := if s.xl.joined || s.xl.acting then s.xl.xcnt else (match mcnt with | some c => c + 1 | none => s.xl.xcnt) } }
  let s1 := pairCheck { s1 with xl := { s1.xl with took := periodTaken s1 } }
  let s2 := if lost then xlEvt 2 s1 else s1
  let p := svcOf s2 (partnerMid s2)
  if !pairMode s2 then (match p with | some ws => if onCarrier s2 then xferReceive ws s2 else s2 | none => s2)
  else
    let pst := p.map fun ws => svcW ws 1 % 8
    let gone := match pst with | none => true | some c => c == 6 || c == 0
    let ill := match pst with | none => true | some c => c == 4 || c == 5 || c == 6
    let s3 := { s2 with xl := { s2.xl with killGone := if s2.xl.killOut then (if gone then s2.xl.killGone + 1 else 0) else 0,
                                           partner6 := match p with | some ws => BitVec.ofNat 20 (svcW ws 6) | none => s2.xl.partner6,
                                           ofs := match p with | some ws => (svcW2 ws 4 : Int) - s2.xl.stampC | none => s2.xl.ofs,
                                           announce := match p with
                                             | some ws => if plansTests s2 then s2.xl.announce
                                                else if svcW ws 7 % 32 = 0x1F then none else some (svcW ws 7 % 32, svcW ws 7 / 32)
                                             | none => s2.xl.announce } }
    if ill && onCarrier s3 && !s3.md.qualPartner then takeTos (List.range 16) s3 else s3

/-- A commit point opens the next period (R261): the own committed local outputs and the last `CLSYNC` stamp are kept with it. -/
def xlOpen (s : State) : State :=
  { s with xl := { s.xl with own6 := ((s.xl.xcnt % 65536, word6 s) :: s.xl.own6).take 4, stampC := s.xl.stamp, pcnt := s.xl.xcnt } }

/-! ### At t0 -/

/-- Receive cells frozen at the t0 that begins cycle `xcnt`: containers of `xcnt` − 2 (R265). -/
def xlCells (s : State) : List (Nat × Word) × Byte :=
  let want := (s.xl.xcnt + 65534) % 65536
  let one (m : Nat) : Option (List Word) :=
    if onCarrier s then (s.xl.data.find? fun d => d.1 == m && d.2.1 == want).map (·.2.2) else none
  let cells := (List.range 8).flatMap fun m => match one m with
    | some ws => (List.range 32).map fun i => (0x2880 + 32 * m + i, lget ws i 0)
    | none => (List.range 32).map fun i => (0x2880 + 32 * m + i, 0x70#32)
  (cells, BitVec.ofNat 8 (((List.range 8).map fun m => at1 (one m).isSome m).sum))

/-- Pair compare at t0 (R273): the own committed values of cycle c − 2 against the partner's word 6 of that cycle. -/
def pairCompare (s : State) : State :=
  if !pairMode s || !onCarrier s || s.md.qualPartner then s
  else
    match s.xl.own6.find? fun p => p.1 == (s.xl.xcnt + 65534) % 65536, svcOf s (partnerMid s) with
    | some (_, own), some _ =>
      let bad (n : Nat) : Bool := (vget s.out.outs n).paired && !own.testBit n && s.xl.partner6.getLsbD n
      let run := (List.range 20).filterMap fun n =>
        if bad n then some (n, ((s.xl.disRun.find? (·.1 == n)).map (·.2)).getD 0 + 1) else none
      let s1 := { s with xl := { s.xl with disRun := run } }
      if run.any fun r => s.xl.disCyc ≤ r.2 then assertKill 0 s1 else s1
    | _, _ => { s with xl := { s.xl with disRun := [] } }

/-- A qualifying partner compares its paired outputs, remote outputs and transmit cells with the partner's (R281): a difference
that lasts longer than `DIS_CYC` cycles restarts the count. At the end it shares the load in its configured roles. -/
def qualCompare (s : State) : State :=
  if !s.md.qualPartner || !onCarrier s then s
  else
    let c := (s.xl.xcnt + 65534) % 65536
    let own6 := ((s.xl.own6.find? (·.1 == c)).map (·.2)).getD 0
    let d (m : Nat) : Option (List Word) := (s.xl.data.find? fun d => d.1 == m && d.2.1 == c).map (·.2.2)
    let diff := (List.range 20).any (fun n => (vget s.out.outs n).paired && own6.testBit n != s.xl.partner6.getLsbD n) ||
      d s.xl.mid != d (partnerMid s) || s.xl.ringDiff
    let run := if diff then s.xl.qualRun + 1 else 0
    let cnt := if s.xl.disCyc < run then 0 else s.xl.qualCnt + 1
    let done := !diff && (match s.image with | some im => im.qualMin ≤ cnt | none => false)
    let s1 := { s with xl := { s.xl with qualRun := run, qualCnt := cnt, ringDiff := false }, md := { s.md with qualPartner := !done } }
    if done then takeRoles s1 else s1

/-- What the cross-link does at a t0 (R258 to R260, R268): the count, missing `CLSYNC` pulses, the acting master's own edge, the
level of `CLSTOP`; `stop` says that another module pulls it. -/
def xlAtT0 (stop : Bool) (s : State) : State :=
  let x := s.xl
  let un := if x.acting || x.locked then 0 else x.unlockRun + 1
  let rejoin := x.joined && 16 ≤ un
  let level := stop || pullsStop s
  let s1 := { s with xl := { x with xcnt := x.xcnt + 1, stamp := if x.acting then now s else x.stamp,
                                    absent := if x.acting || x.pulse then 0 else x.absent + 1, pulse := false,
                                    lockRun := if x.locked then x.lockRun + 1 else 0, unlockRun := un,
                                    joined := x.joined && !rejoin, second := x.second && !rejoin, observed := if rejoin then 0 else x.observed,
                                    stopIn := stop, stopLvl := !level, stopRun := if stop && !pullsStop s then x.stopRun + 1 else 0 } }
  qualCompare (pairCompare s1)

/-! ### Commands -/

/-- The acting cycle master changes (R259). -/
def newMaster (m : Nat) (s : State) : State :=
  if s.xl.actMaster = m ∧ (s.xl.acting || s.xl.sawSync) then s
  else postEv 0x0901 m (leBytes 1 s.xl.actMaster) (xlEvt 4 { s with xl := { s.xl with actMaster := m } })

/-- `CLSYNC_EDGE`: module `m` drives a pulse whose rising edge a follower stamps at own tick `at_`; the next t0 moves by the
error, at most 32 ticks (R258). -/
def clsyncEdge (m at_ : Nat) (s : State) : State :=
  if s.xl.acting then s
  else
    let e : Int := if tickDist at_ s.cyc.nextT0 < tickDist at_ s.cyc.lastT0 then (at_ : Int) - s.cyc.nextT0 else (at_ : Int) - s.cyc.lastT0
    let lock := e.natAbs ≤ 32
    let s1 := newMaster m s
    let s2 := if s.xl.locked && !lock then xlEvt 3 s1 else s1
    { s2 with xl := { s2.xl with stamp := at_, pulse := true, absent := 0, sawSync := true, locked := lock && s2.cyc.running,
                                 err := BitVec.ofNat 16 (ofSigned 16 e) },
              cyc := { s2.cyc with nextT0 := ((s2.cyc.nextT0 : Int) + max (-32) (min 32 e)).toNat } }

/-- `CLSYNC_EDGE`. -/
def execClsyncEdge (m : Fin 8) (at_ : Nat) (s : State) : Host.Outcome State Fault Refusal := .next (clsyncEdge m.val at_ s)

/-- This module becomes the acting cycle master (R259, R260). -/
def becomeMaster (s : State) : State :=
  let s1 := newMaster s.xl.mid s
  { s1 with xl := { s1.xl with acting := true, joined := true, locked := true, absent := 0 } }

/-- A kill line found low at the join (R274). -/
def joinKill (s : State) : State := if pairMode s && s.xl.killIn then enterFault 0x27 (holdMasters s) else s

/-- `CLSYNC_TIMEOUT`: a follower at address m that has missed 4 + 4m pulses in a row, with `CLSYNC` idle for one full cycle,
becomes the acting cycle master (R259); before its join a low kill line stops it (R274). -/
def clsyncTimeout (s : State) : State :=
  if s.xl.acting || !(s.xl.joined || (s.xl.sawSync && !s.xl.joinFailed)) || s.xl.absent < 4 + 4 * s.xl.mid || s.xl.pulse then s
  else if s.xl.joined then becomeMaster s
  else joinKill (becomeMaster s)

/-- `CLSYNC_TIMEOUT`. -/
def execClsyncTimeout (s : State) : Host.Outcome State Fault Refusal := .next (clsyncTimeout s)

/-- Cause that a join finds (R260), from the service containers of the last period. -/
def joinCause (s : State) : Option Byte :=
  let m := svcOf s s.xl.actMaster
  let p := svcOf s (partnerMid s)
  let own := svcOf s s.xl.mid
  if own.isSome then some 0x15
  else if carrierId s != 0 && (match m with | some ws => svcW ws 12 != carrierId s | none => false) then some 0x15
  else if pairMode s && (match p with | some ws => svcW2 ws 10 != pairUid s || bits (svcW ws 1) 16 16 == roleOf s | none => false) then some 0x15
  else if tcycDiffers s then some 0x12
  else none

/-- `XL_JOIN` (R260): after 16 observed containers and 16 locked cycles the module sends in its slots; a failed join gives its
cause. -/
def xlJoin (s : State) : State :=
  if s.xl.acting || s.xl.joined || s.xl.observed < 16 then s
  else
    match joinCause s with
    | some c =>
      if s.xl.joinFailed then s
      else
        let s1 := { s with xl := { s.xl with joinFailed := true }, md := { s.md with idConflict := s.md.idConflict || c == 0x15 } }
        findCause c (postEv 0x0905 0 [c] (xlEvt 9 s1))
    | none =>
      if !s.xl.locked || s.xl.lockRun < 16 then s
      else joinKill (pairCheck { s with xl := { s.xl with joined := true, joinFailed := false, unlockRun := 0,
                                                               second := (svcOf s (partnerMid s)).isSome } })

/-- `XL_JOIN`. -/
def execXlJoin (s : State) : Host.Outcome State Fault Refusal := .next (xlJoin s)

/-- `JOIN_TIMEOUT` (R260): no pulse within 10 s + m × 0.5 s makes the module the acting cycle master. -/
def joinTimeout (s : State) : State :=
  if s.xl.acting || s.xl.joined || s.xl.sawSync || !s.cyc.running then s
  else joinKill (becomeMaster (advanceTo (s.xl.joinFrom + msTicks 10000 + s.xl.mid * msTicks 500) s))

/-- `JOIN_TIMEOUT`. -/
def execJoinTimeout (s : State) : Host.Outcome State Fault Refusal := .next (joinTimeout s)

/-- `CLSTOP_DETECT` (R268): low at two consecutive t0 while the module does not pull it itself. -/
def clstopDetect (s : State) : State :=
  if s.xl.stopRcv && 2 ≤ s.xl.stopRun then
    (if 0x14#8 ∈ s.md.holdPend || 0x14#8 ∈ s.md.recorded then s else findCause 0x14 (xlEvt 5 s))
  else s

/-- `CLSTOP_DETECT`. -/
def execClstopDetect (s : State) : Host.Outcome State Fault Refusal := .next (clstopDetect s)

/-- `KILL_RECEIVE` (R274): ignored outside pair mode; the masters open, latched until restart, and the module goes to `FAULT`. -/
def killReceive (s : State) : State :=
  let s1 := { s with xl := { s.xl with killIn := true } }
  if !pairMode s1 then s1
  else enterFault 0x27 (holdMasters (postEv 0x0904 0 (leBytes 1 1 ++ leBytes 1 0) s1))

/-- `KILL_RECEIVE`. -/
def execKillReceive (s : State) : Host.Outcome State Fault Refusal := .next (killReceive s)

/-- `KILL_RELEASE` (R274): the module releases its line after 16 cycles of the partner's absence, `FAULT` or `OFF`; `incoming`: the
partner has released the line that this module receives (notes/assumptions/105.md). -/
def execKillRelease (incoming : Bool) (s : State) : Host.Outcome State Fault Refusal :=
  .next (if incoming then { s with xl := { s.xl with killIn := false } }
    else if s.xl.killOut && 16 ≤ s.xl.killGone then { s with xl := { s.xl with killOut := false, killGone := 0 } } else s)

/-- `TO_TAKEOVER` of test output k (R271): its terminal read LOW for 20 µs outside the owner's dark windows. -/
def execToTakeover (k : Fin 16) (s : State) : Host.Outcome State Fault Refusal :=
  .next (if pairMode s then takeTos [k.val] s else s)

end Sys2Proof.Machine
end

