-- ==== Sys2Proof/Machine/Ring.lean ====
section
/-! DEFINITION. The Freven rings (09_freven_ring R219 to R255, 10_cross_link_pairs R276 to R278): ring periods, safety containers,
management, bring-up. -/

namespace Sys2Proof.Machine

/-! ### The plan (R225 to R227) -/

/-- Ring k. -/
def ringOf (s : State) (k : Nat) : Ring := vget s.ring.rings k
/-- Node g. -/
def nodeOf (s : State) (g : Nat) : Node := vget s.ring.nodes g
/-- Changes ring k. -/
def modRing (k : Nat) (f : Ring → Ring) (s : State) : State := { s with ring := { s.ring with rings := vmod s.ring.rings k f } }
/-- Changes node g. -/
def modNode (g : Nat) (f : Node → Node) (s : State) : State := { s with ring := { s.ring with nodes := vmod s.ring.nodes g f } }
/-- Changes port p. -/
def modPort (p : Nat) (f : Port → Port) (s : State) : State := { s with ring := { s.ring with ports := vmod s.ring.ports p f } }

/-- Is a slot in the node table? -/
def Node.conf (n : Node) : Bool := n.conn != 0

/-- Configured nodes of ring k: `N_CFG`. -/
def nCfg (s : State) (k : Nat) : Nat := ((List.range 256).filter fun i => (nodeOf s (256 * k + i)).conf).length

/-- Slots of the configured nodes of ring k, in ascending order. -/
def cfgSlots (s : State) (k : Nat) : List Nat := (List.range 256).filter fun i => (nodeOf s (256 * k + i)).conf

/-- Ticks of a ring period code. -/
def rpTicks (rp : Nat) : Nat := 4000 * 2 ^ (rp % 4)

/-- Spacing of schedule frames in ns. -/
def schedGap (plan100 : Bool) : Nat := if plan100 then 50000 else 5000
/-- Slot spacing Δ in ns. -/
def slotGap (plan100 : Bool) : Nat := if plan100 then 16000 else 1600
/-- Schedule frames F. -/
def schedFrames (n : Nat) : Nat := (n + 63) / 64
/-- O_IN in ns. -/
def oIn (n : Nat) (plan100 : Bool) : Nat := schedFrames n * schedGap plan100 + (if plan100 then 50000 else 15000)
/-- O_MG in ns. -/
def oMg (n : Nat) (plan100 : Bool) : Nat := oIn n plan100 + n * slotGap plan100 + 10000

/-- An instant of own TBASE as ring time: its own in the ring master, the followed one in the standby and after a takeover (R277). -/
def ringTime (s : State) (k t : Nat) : Nat := ((t : Int) + (ringOf s k).ofs).toNat

/-- The next S_p of ring k (R226), in own TBASE. -/
def nextSp (s : State) (k : Nat) : Nat :=
  let r := ringOf s k
  let t := rpTicks r.rp
  let ph := if s.cyc.rlock.getLsbD k then (s.cyc.lastT0 + commitTicks s.cyc.tcyc + 64) % t else (-r.ofs % (t : Int)).toNat
  let from_ := max (now s) (r.sp + 1)
  from_ + (ph + t - from_ % t) % t

/-! ### Addresses and frames (R223, R232) -/

/-- An address that begins 02-46-52-56, or 03-46-52-56 as multicast. -/
def ringAddr (first a b : Nat) : List Byte := [BitVec.ofNat 8 first, 0x46#8, 0x52#8, 0x56#8, BitVec.ofNat 8 a, BitVec.ofNat 8 b]
/-- Ring multicast: schedule and discovery frames. -/
def mcastMac (k : Nat) : List Byte := ringAddr 3 0 k
/-- Link-local: peer delay frames. -/
def localMac : List Byte := ringAddr 3 0 0xFF
/-- Module ring address. -/
def moduleMac (mid k : Nat) : List Byte := ringAddr 2 (0x10 + mid) k
/-- A configured node. -/
def nodeMac (k slot : Nat) : List Byte := ringAddr 2 (0x20 + k) slot
/-- An unconfigured node. -/
def freshMac (uid : Nat) : List Byte := [2#8, 0x46#8] ++ beBytes 4 (uid % 2 ^ 32)
/-- The address with which nodes are configured: the module's, in pair mode the pair ring address (R249, R276). -/
def servedMac (s : State) (k : Nat) : List Byte := if pairMode s then ringAddr 2 (0x18 + s.xl.mid / 2) k else moduleMac s.xl.mid k

/-- An Ethernet II frame of the ring, without its FCS (R223). -/
def etherFrame (dst src body : List Byte) : List Byte := dst ++ src ++ [0x88#8, 0xB6#8] ++ body

/-- A frame of this module out of both ports of ring k: `FLAGS` tells the west port's copy (R232). -/
def bothPorts (s : State) (k : Nat) (dst : List Byte) (body : Nat → List Byte) : List (Nat × List Byte) :=
  [(2 * k, etherFrame dst (moduleMac s.xl.mid k) (body k)), (2 * k + 1, etherFrame dst (moduleMac s.xl.mid k) (body (k + 2)))]

/-- Destination, source and the bytes after the EtherType of a received frame. -/
def frameDst (fr : List Byte) : List Byte := fr.take 6
def frameSrc (fr : List Byte) : List Byte := slice fr 6 6
def frameBody (fr : List Byte) : List Byte := fr.drop 14

/-- Is a unicast frame for this module: to its ring address, or the pair's (R223, R276)? -/
def forModule (s : State) (k : Nat) (fr : List Byte) : Bool := frameDst fr == moduleMac s.xl.mid k || frameDst fr == servedMac s k

/-! ### The safety container (R237) -/

/-- Connection ID. -/
def cidOf (s : State) (k slot : Nat) (uid : Nat) : List Byte :=
  let m := if pairMode s then pairUid s else moduleUid s
  let c := (sha256 (beBytes 8 m ++ beBytes 8 uid ++ [BitVec.ofNat 8 k, BitVec.ofNat 8 slot])).take 8
  if c.all (· == 0#8) then beBytes 8 1 else c

/-- CRC of a container: direction 0x4F output, 0x49 input. -/
def contCrc (cid : List Byte) (dir k slot : Nat) (c : List Byte) : Word :=
  crc32c (cid ++ [BitVec.ofNat 8 dir, BitVec.ofNat 8 k, BitVec.ofNat 8 slot] ++ c)

/-- Output container of a slot (R234). -/
def outContainer (s : State) (k slot : Nat) : List Byte :=
  let n := nodeOf s (256 * k + slot)
  let b := beBytes 2 n.oseq ++ [n.outBits, 0#8]
  b ++ beBytes 4 (contCrc (cidOf s k slot n.uid) 0x4F k slot b).toNat

/-- Frame header (R232). -/
def frameHead (type flags hop len rpn : Nat) : List Byte :=
  [1#8, BitVec.ofNat 8 type, BitVec.ofNat 8 flags, 0#8] ++ beBytes 2 hop ++ beBytes 2 len ++ beBytes 4 rpn

/-- The slots of schedule frame f: 64 configured nodes each, from the first one's slot to the last one's, 64 at most (R227, R233;
notes/assumptions/100.md). Answers `FIRST` and `NCONT`. -/
def schedSlots (s : State) (k f : Nat) : Nat × Nat :=
  let l := ((cfgSlots s k).drop (64 * f)).take 64
  let a := lget l 0 0
  (a, min 64 (l.getLastD 0 + 1 - a))

/-- Schedule frame f of ring k, with the port in `FLAGS` (R233). -/
def schedFrame (s : State) (k f flags : Nat) : List Byte :=
  let r := ringOf s k
  let (first, cnt) := schedSlots s k f
  let t := ringTime s k r.sp + f * schedGap r.plan100 * 2 / 125
  frameHead 1 flags 0 (0x1C + 8 * cnt) r.rpn ++ beBytes 8 t ++ beBytes 4 0 ++
  [BitVec.ofNat 8 (16 * f + schedFrames (nCfg s k)), BitVec.ofNat 8 cnt] ++ beBytes 2 first ++
  (List.range cnt).flatMap fun c => outContainer s k (first + c)

/-- The schedule frames of a period, each from both ports. -/
def schedTx (s : State) (k : Nat) : List (Nat × List Byte) :=
  (List.range (schedFrames (nCfg s k))).flatMap fun f => bothPorts s k (mcastMac k) (schedFrame s k f)

/-- `DISCOVER` from both ports (R247, R248). -/
def discTx (s : State) (k : Nat) : List (Nat × List Byte) :=
  bothPorts s k (mcastMac k) fun flags => frameHead 7 flags 0 12 (ringOf s k).rpn

/-! ### A ring period (R227, R238, R239, R241) -/

/-- Bits of a node's committed output points, for an S_p: those of the last commit point that lies at least 4 µs before it. -/
def nodeOutBits (s : State) (sp g : Nat) : Byte :=
  let m := if s.cyc.commitAt + 64 ≤ sp then s.cyc.committed else s.cyc.prev
  BitVec.ofNat 8 (((List.range 8).map fun j => at1 ((Mem.read 0 m (0x3000 + 8 * g + j)).getLsbD 0) j).sum)

/-- State of ring k judged from the period that ends (R241). -/
def classify (s : State) (k : Nat) : Nat :=
  let r := ringOf s k
  let nodes := ((List.range 256).map fun i => nodeOf s (256 * k + i)).filter Node.conf
  if nodes.isEmpty then 5
  else if !(vget s.ring.ports (2 * k)).link && !(vget s.ring.ports (2 * k + 1)).link then 0
  else if r.bring then 1
  else if r.schedE && r.schedW then 2
  else if nodes.all fun n => n.conn != 5 || n.accepted then 3
  else 4

/-- Break position (R242): the lowest east position whose container did not arrive at the east port. -/
def breakPos (s : State) (k : Nat) : Nat :=
  (List.range 256).foldl (fun b i =>
    let n := nodeOf s (256 * k + i)
    if n.conf && !n.seenE && n.posE < b then n.posE else b) 0x1FF

/-- A connection expires (R239). -/
def expire (g : Nat) (s : State) : State :=
  let n := nodeOf s g
  let s1 := modNode g (fun n => { n with conn := 6, run := 0, wdCnt := satUp n.wdCnt, cref := none }) s
  postEv 0x0804 g (leBytes 1 n.w) (ringEvt 3 s1)

/-- Ages at S_p (R239). -/
def ageNodes (k : Nat) (s : State) : State :=
  (List.range 256).foldl (fun s i =>
    let g := 256 * k + i
    let n := nodeOf s g
    if n.conn == 4 || n.conn == 5 then
      let s1 := modNode g (fun n => { n with age := n.age + 1 }) s
      if n.w ≤ n.age + 1 then expire g s1 else s1
    else s) s

/-- What each slot keeps from the period that ends, and the sequence and bits of the next output container (R237, R238). -/
def turnNode (s : State) (k g : Nat) (n : Node) : Node :=
  if g / 256 != k || !n.conf then n
  else
    { n with lastE := n.seenE, lastW := n.seenW, seenE := false, seenW := false
             conflict := if n.accepted && !n.differ then false else n.conflict, differ := false, accepted := false
             oseq := if (ringOf s k).master then (n.oseq + 1) % 65536 else n.oseq
             outBits := nodeOutBits s (ringOf s k).sp g }

/-! ### Management requests (R236, R249 to R255) -/

/-- The contents of `CONFIG` for a slot (R249), without the parameter block. -/
def configBytes (s : State) (k slot : Nat) : List Byte :=
  let n := nodeOf s (256 * k + slot)
  let r := ringOf s k
  let c := nCfg s k
  Config.nodeConfig [k, slot, beAt (servedMac s k) 0 6, r.rp, b2n r.plan100, oIn c r.plan100, slotGap r.plan100, oMg c r.plan100, n.w]
    (cidOf s k slot n.uid) n.filters

/-- Configuration check word that the module computes for a node: UID, two letters, the contents in the order sent (R251). -/
def nodeCheck (s : State) (k slot : Nat) : Word :=
  let n := nodeOf s (256 * k + slot)
  crc32c (beBytes 8 n.uid ++ [0x43#8, 0x46#8] ++ configBytes s k slot ++ n.params)

/-- Parameters of a management request (R236): `CONFIG` and the 96-byte segments of the block (R249), a firmware block's offset and 64 bytes
of code (R254). -/
def mgmtParams (s : State) (k : Nat) (m : Mgmt) : List Byte :=
  let x := s.ring.nfw
  match m.op with
  | 1 => configBytes s k m.slot
  | 2 => slice (nodeOf s (256 * k + m.slot)).params (96 * m.seg) 96
  | 4 => beBytes 4 (64 * m.seg) ++ Mem.readBytes 0 s.nv.nodeFw (x.start + 48 + 64 * m.seg) (min 64 (x.total - 64 * m.seg))
  | _ => []

/-- A management request from both ports: to the node's slot address once it has it, else to its own (R223). -/
def mgmtTx (s : State) (k : Nat) (m : Mgmt) : List (Nat × List Byte) :=
  let n := nodeOf s (256 * k + m.slot)
  let p := mgmtParams s k m
  bothPorts s k (if n.addr then nodeMac k m.slot else freshMac n.uid) fun flags =>
    frameHead 3 flags 0 (14 + p.length) (ringOf s k).rpn ++ [BitVec.ofNat 8 m.op, BitVec.ofNat 8 m.tag] ++ p

/-- A request leaves in this period. -/
def sendReq (k : Nat) (m : Mgmt) (s : State) : State :=
  let upd (x : Mgmt) : Mgmt := if x.tag == m.tag then { x with sent := true, at_ := (ringOf s k).rpn } else x
  modRing k (fun r => { r with mgmt := r.mgmt.map upd, tx := r.tx ++ mgmtTx s k m }) s

/-- A new request of ring k waits to be sent. -/
def newReq (k slot op seg : Nat) (s : State) : State :=
  let t := ((ringOf s k).tag + 1) % 256
  modRing k (fun r => { r with mgmt := r.mgmt ++ [{ slot := slot, op := op, seg := seg, tag := t }], tag := t }) s

/-- A request is over. -/
def dropReq (k tag : Nat) (s : State) : State := modRing k (fun r => { r with mgmt := r.mgmt.filter (·.tag != tag) }) s

/-- The next request that ring k has to send, put among those in progress: a node's first `CONFIG`, else, in service, a node's restart (R255),
else a firmware block, or `FW_VERIFY` after the last one (R254). -/
def nextReq (k : Nat) (s : State) : State :=
  let r := ringOf s k
  let config := r.mgmt.any (·.op ≤ 3)
  match r.todo with
  | i :: rest =>
    if config && !r.bringing then s
    else newReq k i 1 0 (modRing k (fun r => { r with todo := rest }) (modNode (256 * k + i) (fun n => { n with conn := 3 }) s))
  | [] =>
    if r.bringing then s
    else
      match s.sup.waitAct.find? fun w => w.1 / 256 == k && !(r.mgmt.any fun m => m.op == 6 && m.slot == w.1 % 256) with
      | some w => newReq k (w.1 % 256) 6 0 s
      | none =>
        let x := s.ring.nfw
        let put (y : NfwXfer) : State := { s with ring := { s.ring with nfw := y } }
        if x.phase != 1 || x.node / 256 != k then s
        else match x.missed with
          | b :: rest => newReq k (x.node % 256) 4 b (put { x with missed := rest })
          | [] =>
            if !x.resend && x.ofs < x.total then newReq k (x.node % 256) 4 (x.ofs / 64) (put { x with ofs := x.ofs + 64 })
            else newReq k (x.node % 256) 5 0 (put { x with phase := 2 })

/-- Up to `n` requests leave in this period, each to a node of its own (R247, R250): those that wait, then new ones. -/
def sendMgmt : Nat → Nat → State → State
  | 0, _, s => s
  | n + 1, k, s =>
    let s1 := if (ringOf s k).mgmt.any (!·.sent) then s else nextReq k s
    match (ringOf s1 k).mgmt.find? (!·.sent) with
    | some m => sendMgmt n k (sendReq k m s1)
    | none => s1

/-- A discovery begins: `DISCOVER` leaves in the next four ring periods (R247). -/
def startDisc (k : Nat) (s : State) : State :=
  modRing k (fun r => { r with disc := some ((r.rpn + 1) % 2 ^ 32), answers := [], nFound := 0 }) s

/-- Does `DISCOVER` leave in this period? -/
def discNow (r : Ring) : Bool := match r.disc with | some p => (r.rpn + 2 ^ 32 - p) % 2 ^ 32 < 4 | none => false

/-- A discovery is over once its four periods are (R247); it completes the commands that asked for it (R350). -/
def endDiscovery (k : Nat) (s : State) : State :=
  let r := ringOf s k
  match r.disc with
  | none => s
  | some p =>
    if discNow r || 2 ^ 31 ≤ (r.rpn + 2 ^ 32 - p) % 2 ^ 32 then s
    else
      let known := fun (u : Nat) => (List.range 256).any fun i => let n := nodeOf s (256 * k + i); n.conf && n.uid == u
      let new := (r.answers.filter fun u => !known u).length
      let w := s.sup.waitDisc.filter (·.1 == k)
      let s1 := modRing k (fun r => { r with disc := none }) { s with sup := { s.sup with waitDisc := s.sup.waitDisc.filter (·.1 != k) } }
      w.foldl (fun s p => complete p.2 0x0800 .ok (leBytes 2 new) s) s1

/-- A bring-up is over once its discovery and every configuration are: schedule frames start (R247, step 4). -/
def endBringup (k : Nat) (s : State) : State :=
  let r := ringOf s k
  if r.bringing && r.disc.isNone && r.todo.isEmpty && r.mgmt.isEmpty then
    modRing k (fun r => { r with bring := false, bringing := false, sched := true }) s
  else s

/-- Events of a change of ring state (R241). -/
def ringStateEvents (k old new brk : Nat) (s : State) : State :=
  let s1 := if old = 2 ∧ new ≠ 2 then ringEvt 0 s else if new = 2 ∧ old ≠ 2 then ringEvt 1 s else s
  let s2 := if (old = 2) != (new = 2) then postEv 0x0801 k (leBytes 1 old ++ leBytes 1 new ++ leBytes 2 brk) s1 else s1
  if new = 4 ∧ old ≠ 4 then postEv 0x0802 k (leBytes 2 brk) (ringEvt 2 s2) else s2

/-- Does the ring engine send at S_p: not after a kill (R274), in `OFF`, or once its last frames of a shut-down have left (R486)? -/
def ringLive (s : State) : Bool :=
  !(pairMode s && s.xl.killIn) && s.md.mstate != .off && s.pwr.phyLock

/-- `RING_PERIOD_START`: the next S_p of ring k. -/
def ringPeriod (k : Nat) (s : State) : State :=
  let s1 := advanceTo (nextSp s k) s
  let old := (ringOf s1 k).state
  let new := classify s1 k
  let brk := if new = 3 then breakPos s1 k else 0x1FF
  let s2 := ringStateEvents k old new brk (ageNodes k s1)
  let lpi := s.md.mstate == .quiet
  let p0 := vget s2.ring.ports (2 * k)
  let p1 := vget s2.ring.ports (2 * k + 1)
  let lp (p : Port) : Port := { p with lpi := lpi && p.link && p.eee }
  -- the standby returns when the configured ring master is heard again (R277)
  let conf := b2n s2.xl.rmRole == roleOf s2
  let s3 := if pairMode s2 && !conf && !s2.xl.killOut && (ringOf s2 k).master && (ringOf s2 k).heard then setRingMaster k false s2 else s2
  let s4 := modRing k (fun r => { r with state := new, brk := brk, sp := now s3, rpn := (r.rpn + 1) % 2 ^ 32, schedE := false, schedW := false,
                                         heard := false, syncHop := 0, lpi := (lp p0).lpi || (lp p1).lpi, tx := [] }) s3
  let s5 := modPort (2 * k) lp (modPort (2 * k + 1) lp s4)
  let s6 := { s5 with ring := { s5.ring with nodes := vmapi (turnNode s5 k) s5.ring.nodes } }
  let s7 := endBringup k (endDiscovery k s6)
  let r := ringOf s7 k
  if !r.master || !ringLive s7 then s7
  else
    let tx := (if r.sched then schedTx s7 k else []) ++ (if discNow r then discTx s7 k else [])
    let s8 := modRing k (fun r => { r with tx := tx, sched := r.sched && s7.md.mstate != .shuttingDown }) s7
    if r.bringing && r.disc.isSome then s8 else sendMgmt (if r.bringing then 16 else 1) k s8

/-- `RING_PERIOD_START`. -/
def execRingPeriodStart (k : Fin 2) (s : State) : Host.Outcome State Fault Refusal := .next (ringPeriod k.val s)

/-- Several ring periods of ring k in which nothing arrives. -/
def ringPeriods : Nat → Nat → State → State
  | 0, _, s => s
  | n + 1, k, s => ringPeriods n k (ringPeriod k s)

/-- `CONNECTION_EXPIRE` of node g: the ring periods pass in which nothing arrives until its age reaches W (R239). -/
def execConnectionExpire (g : Fin 512) (s : State) : Host.Outcome State Fault Refusal :=
  let n := nodeOf s g.val
  .next (if n.conn == 4 || n.conn == 5 then ringPeriods (n.w - n.age) (g.val / 256) s else s)

/-! ### Input containers (R231, R235, R238, R244, R246) -/

/-- Does the pending adoption of slot g end because its old node is heard again (R252)? -/
def abandonAdopt (g : Nat) (s : State) : State :=
  let (gone, stay) := s.sup.acts.partition fun a => match a.kind with | .adopt h _ => h == g | _ => false
  if gone.isEmpty then s else allWrong (gone.filterMap (·.q)) { s with sup := { s.sup with acts := stay } }

/-! ### Remote sources of the motion monitors (R147, R240) -/

/-- Node and value of a remote value cell. -/
def valueOf (cell : Nat) : Nat × Nat := ((cell - 0x2480) / 2, (cell - 0x2480) % 2)

/-- A node's time in µs, of 24 bits, as own TBASE: the last such instant of ring time up to tick `t`, `ofs` ahead of own TBASE (R240,
R277). -/
def nodeTime (ofs : Int) (t e : Nat) : Nat :=
  let u0 := ((t : Int) + ofs).toNat / 16
  ((16 * (u0 - (u0 + 2 ^ 24 - e % 2 ^ 24) % 2 ^ 24) : Int) - ofs).toNat

/-- Value m (24 bits) of an input container, and its sample instant as taken at tick `t`. -/
def containerValue (ofs : Int) (t : Nat) (c : List Byte) (m : Nat) : Nat × Nat :=
  (beAt c (0x60 + 4 * m) 4 / 256, nodeTime ofs t (beAt c 8 4))

/-- A remote source takes a sample if it is a new one: unwrapped, and refused beyond `JMAX` (R147). -/
def Src.remote (jmax : Nat) (v : Option (Nat × Nat)) (x : Src) : Src :=
  if x.kind != 4 && x.kind != 5 then x
  else
    match v, x.last with
    | none, _ => x
    | some (n, t), none => { x with last := some (n, t), cnt := if x.kind == 4 then toSigned 24 n else x.cnt
                                    edges := x.edges ++ [(125 * t, if x.kind == 4 then toSigned 24 n else x.cnt, 0)] }
    | some (n, t), some (o, u) =>
      if t = u then x
      else
        let d := toSigned 24 ((n + 2 ^ 24 - o) % 2 ^ 24)
        if x.kind == 5 then { x with last := some (n, t) }
        else if jmax < d.natAbs then { x with last := some (n, t), jump := true }
        else { x with last := some (n, t), cnt := x.cnt + d, edges := x.edges ++ [(125 * t, x.cnt + d, d)] }

/-- A change to both sources of every monitor in use, those of a shadow among them, given each monitor. -/
def onSources (f : Mon → Src → Src) (s : State) : State :=
  let g (m : Mon) : Mon := if m.used then { m with a := f m m.a, b := f m m.b } else m
  { s with mm := { s.mm with mons := s.mm.mons.map g, shadowMon := s.mm.shadowMon.map fun p => (p.1, g p.2) } }

/-- The values of a container whose data are used are samples of the sources that read them (R147). -/
def feedSources (g : Nat) (c : List Byte) (s : State) : State :=
  onSources (fun m x => if 4 ≤ x.kind && (valueOf x.sel).1 == g then x.remote m.jmax (some (containerValue (ringOf s (g / 256)).ofs (now s) c (valueOf x.sel).2)) else x) s

/-- An accepted container: what the node reports. -/
def nodeReport (g : Nat) (c : List Byte) (s : State) : State :=
  let fl := leAt c 5 1
  let ok := fl.testBit 0
  let of := fl.testBit 1
  let n := nodeOf s g
  let s1 := modNode g (fun n => { n with nstate := BitVec.ofNat 3 (leAt c 4 1), syncOk := ok, outFault := of, fwStaged := fl.testBit 2,
                                         syncErr := BitVec.ofNat 16 (beAt c 6 2), lag := BitVec.ofNat 16 (n.oseq + 65536 - beAt c 2 2),
                                         fresh := (List.range 2).filterMap fun m => if (beAt c (0x60 + 4 * m) 4).testBit 3 || m ∈ n.fresh then some m else none }) s
  let s2 := if n.syncOk && !ok then ringEvt 10 s1 else s1
  if of && !n.outFault then postEv 0x0806 g [] (ringEvt 11 s2) else s2

/-- A container of slot g that arrived at a port (R238). -/
def inputContainer (k slot : Nat) (east : Bool) (hop : Nat) (c : List Byte) (s : State) : State :=
  let g := 256 * k + slot
  let n := nodeOf s g
  let s0 := modNode g (fun n => if east then { n with seenE := true, posE := hop } else { n with seenW := true }) s
  let body := c.take 104
  if beAt c 104 4 != (contCrc (cidOf s k slot n.uid) 0x49 k slot body).toNat then
    ringEvt 4 (modNode g (fun n => { n with crcCnt := satUp n.crcCnt }) s0)
  else
    let seq := beAt c 0 2
    if n.conn == 6 then modNode g (fun n => { n with ref := some seq, run := 0, conn := 4, age := 0, last := body }) s0
    else
      let d := (seq + 65536 - n.ref.getD 0) % 65536
      if d = 0 then
        if body == n.last then s0
        else
          postEv 0x0805 g (leBytes 2 seq) (ringEvt 6 (modNode g (fun n => { n with conflict := true, differ := true }) s0))
      else if n.w < d then ringEvt 5 (modNode g (fun n => { n with seqCnt := satUp n.seqCnt }) s0)
      else
        let run := if n.conn == 4 then (if d = 1 then n.run + 1 else 0) else n.run
        let good := n.conn == 5 || 3 ≤ run
        let first := n.conn == 4 && 3 ≤ run
        let s1 := modNode g (fun n => { n with ref := some seq, last := body, run := run, conn := if good then 5 else 4, age := 0, accepted := true,
                                               lost := satAdd n.lost (d - 1), used := if good then body else n.used,
                                               cref := if first then some ((List.range 16).map fun i => leAt body (0x18 + 4 * i) 1) else n.cref }) s0
        abandonAdopt g (nodeReport g body (if good then feedSources g body s1 else s1))

/-- A frame is dropped and counted (R219). -/
def dropFrame (p : Nat) (s : State) : State := modPort p (fun x => { x with drop := satUp x.drop }) s

/-- A frame of the ring (R219, R223) whose header (R232) has `VER` 1, the type asked for, the ring and the length. -/
def headOk (k type : Nat) (fr : List Byte) : Bool :=
  let b := frameBody fr
  slice fr 12 2 == [0x88#8, 0xB6#8] && leAt b 0 1 == 1 && leAt b 1 1 == type && (leAt b 2 1) % 2 == k && beAt b 6 2 == b.length

/-- `INPUT_CONTAINER_RECEIVE`: an input frame at port p, from the configured node that its source address names (R223, R235). A port below
the plan speed drops it (R220). -/
def inputReceive (p : Nat) (fr : List Byte) (s : State) : State :=
  let k := p / 2
  let r := ringOf s k
  let b := frameBody fr
  let slot := leAt fr 11 1
  let n := nodeOf s (256 * k + slot)
  if !headOk k 2 fr || b.length != 120 then dropFrame p s
  else if frameSrc fr != nodeMac k slot || !forModule s k fr then s
  else if !r.plan100 && (vget s.ring.ports p).speed == 1 then s
  else if n.conn < 4 then s
  else inputContainer k slot (p % 2 == 0) (beAt b 4 2) (b.drop 12) s

/-- `INPUT_CONTAINER_RECEIVE`. -/
def execInputContainerReceive (p : Fin 4) (fr : List Byte) (s : State) : Host.Outcome State Fault Refusal :=
  .next (inputReceive p.val fr s)

/-- `RING_FRAME_DROP`: a frame with a bad FCS (`fcs`), or a PAUSE, tagged, foreign or malformed frame (R219). -/
def execRingFrameDrop (p : Fin 4) (fcs : Bool) (s : State) : Host.Outcome State Fault Refusal :=
  .next (if fcs then modPort p.val (fun x => { x with fcsErr := satUp x.fcsErr }) s else dropFrame p.val s)

/-- `PDELAY_REQ_RECEIVE`: the port answers with `PDELAY_RESP`, link-local, that carries its turnaround in ns (R229). The place of the turnaround
is DESIGN CHOICE (notes/assumptions/103.md). -/
def execPdelayReqReceive (p : Fin 4) (turn : Nat) (s : State) : Host.Outcome State Fault Refusal :=
  let k := p.val / 2
  let fr := etherFrame localMac (moduleMac s.xl.mid k) (frameHead 6 (k + 2 * (p.val % 2)) 0 16 (ringOf s k).rpn ++ beBytes 4 turn)
  .next (if (vget s.ring.ports p.val).link then
      modRing k (fun r => { r with tx := r.tx ++ [(p.val, fr)] }) (modPort p.val (fun x => { x with pdelay := some turn }) s)
    else s)

/-! ### From containers to cells (R222, R231, R240, R244, R246, R248) -/

/-- Code that the module forces on a node's inputs and values, if any. -/
def forcedCode (n : Node) : Option Nat :=
  if n.conn != 5 then some 7
  else if n.conflict || !n.syncOk then some 7
  else if n.nstate == 0 || n.nstate == 1 || n.nstate == 5 || n.nstate == 6 then some 7
  else if n.outFault then some 9
  else none

/-- Stamp of an edge time (node µs, 24 bits) for a freeze at `t0` (R240). -/
def nodeStamp (ofs : Int) (t0 e : Nat) : Nat := nodeTime ofs t0 e % 2 ^ 24

/-- Input cell i of a node (R240): a connection in `GOOD` gives value, edges and stamp, and only quality and code are forced; the points of
any other read as absent. -/
def nodeInput (ofs : Int) (t0 : Nat) (n : Node) (i : Nat) : Word :=
  let c := n.used
  let v := (beAt c 12 2).testBit i
  let q := (beAt c 14 2).testBit i
  let code := bits (leAt c (0x10 + i / 2) 1) (4 * (i % 2) + 3) (4 * (i % 2))
  if n.ident.ins ≤ i && n.known then 0
  else if n.conn != 5 then 0x70#32
  else
    let w := beAt c (0x18 + 4 * i) 4
    let k := (w / 2 ^ 24 + 256 - lget (n.cref.getD []) i 0) % 256
    let f := forcedCode n
    BitVec.ofNat 32 (at1 v 0 + at1 (q && f.isNone) 1 + at1 (2 ≤ k) 2 + at1 (1 ≤ k) 3 + 16 * f.getD code +
      (if 1 ≤ k then 256 * nodeStamp ofs t0 (w % 2 ^ 24) else 0))

/-- Value cell m of a node. -/
def nodeValue (n : Node) (m : Nat) : Word :=
  if n.ident.vals ≤ m && n.known then 0
  else
    let w := beAt n.used (0x60 + 4 * m) 4
    let w1 := w - at1 (w.testBit 3) 3 + at1 (decide (m ∈ n.fresh)) 3
    match forcedCode n with
    | some f => BitVec.ofNat 32 (w1 / 256 * 256 + at1 (w1.testBit 3) 3 + 16 * f)
    | none => BitVec.ofNat 32 w1

/-- Cells of every configured node at a freeze; edge counts and `FRESH` start anew. -/
def ringCells (t0 : Nat) (s : State) : List (Nat × Word) :=
  (List.range 512).flatMap fun g =>
    let n := nodeOf s g
    if !n.conf then []
    else ((List.range 16).map fun i => (16 * g + i, nodeInput (ringOf s (g / 256)).ofs t0 n i)) ++ ((List.range 2).map fun m => (0x2480 + 2 * g + m, nodeValue n m))

/-- After the freeze: c_ref takes the counts used, `FRESH` restarts. -/
def ringAfterFreeze (s : State) : State :=
  let f (n : Node) : Node :=
    if n.conn == 5 then { n with cref := some ((List.range 16).map fun i => leAt n.used (0x18 + 4 * i) 1), fresh := [] } else { n with fresh := [] }
  { s with ring := { s.ring with nodes := s.ring.nodes.map fun n => if n.conf then f n else n } }

/-! ### Bring-up, discovery and management (R247 to R251) -/

/-- Slot of the node table with a UID on ring k. -/
def slotOfUid (s : State) (k uid : Nat) : Option Nat := (List.range 256).find? fun i => let n := nodeOf s (256 * k + i); n.conf && n.uid == uid

/-- A slot becomes `NODE_MISMATCH`. -/
def mismatch (g : Nat) (s : State) : State := ringEvt 7 (modNode g (fun n => { n with conn := 2 }) s)

/-- A node reports itself, from an unconfigured node's address or its slot's (R224, R245, R247, R248, R255). -/
def identReceived (k : Nat) (fresh : Bool) (x : Ident) (s : State) : State :=
  if x.uid = 0 ∨ x.uid = 2 ^ 64 - 1 then s
  else
    let r := ringOf s k
    let old := r.found.find? (·.uid == x.uid)
    let y := if x.pos = 0x1FF then { x with pos := (old.map (·.pos)).getD 0x1FF } else x
    let ans := if x.uid ∈ r.answers then r.answers else r.answers ++ [x.uid]
    let s0 := modRing k (fun r => { r with found := (r.found.filter fun z => z.uid != x.uid) ++ [y], answers := ans, nFound := ans.length }) s
    match slotOfUid s0 k x.uid with
    | none => ringEvt 8 s0
    | some i =>
      let g := 256 * k + i
      let n := nodeOf s0 g
      let s1 := if n.posE != 0x1FF && y.pos != 0x1FF && n.posE != y.pos then postEv 0x0807 g (leBytes 2 n.posE ++ leBytes 2 y.pos) s0 else s0
      let s2 := modNode g (fun n => { n with ident := y, known := true, posE := if y.pos = 0x1FF then n.posE else y.pos, fwVer := y.fwVer, addr := !fresh }) s1
      let s3 := match n.fwWant with
        | some v =>
          let s3 := modNode g (fun n => { n with fwWant := none }) s2
          if v = y.fwVer then s3 else postEv 0x080A g (leBytes 4 y.fwVer) (ringEvt 13 s3)
        | none => s2
      if n.ntype != y.ntype || 100000 < y.tNin || 250000 < y.tNout then mismatch g s3
      else if n.conn == 4 || n.conn == 5 || n.conn == 3 then s3
      else modNode g (fun n => { n with tries := 0 }) (modRing k (fun r => { r with todo := (r.todo.filter (· != i)) ++ [i] }) s3)

/-- `RING_BRINGUP` of ring k (R247): a bring-up that was asked for starts. Every configured slot is absent until its node answers; the
discovery, the configurations and the schedule frames follow in the next ring periods (`RING_PERIOD_START`, `MGMT_RESP_RECEIVE`,
`MGMT_TIMEOUT`). A standby leaves all this to the ring master, and its connections start in `EXPIRED` at once (R277). -/
def ringBringup (k : Nat) (s : State) : State :=
  let r := ringOf s k
  let link := (vget s.ring.ports (2 * k)).link || (vget s.ring.ports (2 * k + 1)).link
  if !r.bring || r.bringing || !link then s
  else
    let f (n : Node) : Node := { n with conn := if r.master then 1 else 6, ref := none, run := 0, age := 0, cref := none }
    let s1 := { s with ring := { s.ring with nodes := vmapi (fun g n => if g / 256 == k && n.conf then f n else n) s.ring.nodes } }
    if r.master then startDisc k (modRing k (fun r => { r with found := [], todo := [], mgmt := [], bringing := true, sched := false }) s1)
    else modRing k (fun r => { r with bring := false, sched := true }) s1

/-- `RING_BRINGUP`. -/
def execRingBringup (k : Fin 2) (s : State) : Host.Outcome State Fault Refusal := .next (ringBringup k.val s)

/-- `PORT_LINK_CHANGE` of port p (R220, R247): speed code 0 no link, 1 100BASE-TX, 2 1000BASE-T. -/
def portLink (p speed : Nat) (eee : Bool) (s : State) : State :=
  let k := p / 2
  let down := !(vget s.ring.ports (2 * k)).link && !(vget s.ring.ports (2 * k + 1)).link
  -- the ports of a ring without configured nodes are powered down (R221)
  let speed := if nCfg s k = 0 then 0 else speed
  let s1 := modPort p (fun x => { x with link := speed != 0, speed := BitVec.ofNat 2 speed, eee := eee && speed != 0, lpi := x.lpi && speed != 0 }) s
  let s2 := if speed = 1 && !(ringOf s k).plan100 && 0 < nCfg s k then postEv 0x0803 p (leBytes 1 speed) (ringEvt 14 s1) else s1
  if down && speed != 0 && 0 < nCfg s k && (s.md.mstate != .starting || 9 ≤ s.md.startStep) then
    modRing k (fun r => { r with bring := true, bringing := false, disc := none, sched := false }) s2
  else s2

/-- `PORT_LINK_CHANGE`. -/
def execPortLinkChange (p : Fin 4) (speed : Fin 3) (eee : Bool) (s : State) : Host.Outcome State Fault Refusal :=
  .next (portLink p.val speed.val eee s)

/-- `DISCOVERY_PERIODIC` (R248): 1,024 ring periods after the last one, the management segment of a ring in service sends a `DISCOVER` from
both ports, to which unconfigured nodes reply. -/
def discoveryPeriodic (k : Nat) (s : State) : State :=
  let r := ringOf s k
  if !r.sched || !r.master || !ringLive s || (r.rpn + 2 ^ 32 - r.discAt) % 2 ^ 32 < 1024 then s
  else
    modRing k (fun r => { r with found := r.found.filter fun x => (slotOfUid s k x.uid).isSome, answers := [], nFound := 0, discAt := r.rpn,
                                 tx := r.tx ++ discTx s k }) s

/-- `DISCOVERY_PERIODIC`. -/
def execDiscoveryPeriodic (k : Fin 2) (s : State) : Host.Outcome State Fault Refusal := .next (discoveryPeriodic k.val s)

/-- The node's configuration goes on after an answer (R249, R251). -/
def configNext (k : Nat) (m : Mgmt) (check : Word) (s : State) : State :=
  let g := 256 * k + m.slot
  let n := nodeOf s g
  let segs := (n.params.length + 95) / 96
  let right := check == nodeCheck s k m.slot
  let again (s : State) : State :=
    if n.tries < 2 then newReq k m.slot 1 0 (modNode g (fun n => { n with tries := n.tries + 1 }) s) else mismatch g s
  let commit (s : State) : State := if right then newReq k m.slot 3 0 s else again s
  match m.op with
  | 1 => if segs = 0 then commit s else newReq k m.slot 2 0 s
  | 2 => if m.seg + 1 < segs then newReq k m.slot 2 (m.seg + 1) s else commit s
  | _ => if right then modNode g (fun n => { n with conn := 6, ref := none, run := 0, age := 0, cref := none, addr := true }) s else again s

/-- End of a firmware transfer (R254). -/
def nfwEnd (ok : Bool) (s : State) : State :=
  let x := s.ring.nfw
  let s1 := modRing (x.node / 256) (fun r => { r with mgmt := r.mgmt.filter fun m => !(m.op == 4 || m.op == 5) })
    { s with ring := { s.ring with nfw := { x with phase := if ok then 3 else 4 } } }
  postEv 0x0809 x.node (leBytes 1 (b2n !ok) ++ leBytes 4 x.ver)
    (ringEvt (if ok then 12 else 13) (modNode x.node (fun n => { n with verified := ok, staged := if ok then x.ver else n.staged }) s1))

/-- The blocks that a node lists as missed: offsets of 4 bytes. -/
def missedBlocks : Nat → List Byte → List Nat
  | 0, _ => []
  | n + 1, l => if l.isEmpty then [] else beAt l 0 4 / 64 :: missedBlocks n (l.drop 4)

/-- `FW_VERIFY` answered (R254): the node's digest of the code and its signature result; the blocks that it missed are sent again. -/
def nfwVerified (data : List Byte) (s : State) : State :=
  let x := s.ring.nfw
  match missedBlocks 17 (data.drop 33) with
  | [] => nfwEnd (data.take 32 == Mem.readBytes 0 s.nv.nodeFw (x.start + 16) 32 && leAt data 32 1 == 1) s
  | l => { s with ring := { s.ring with nfw := { x with phase := 1, missed := l, resend := true } } }

/-- The commands that wait for a node's restart complete. -/
def actDone (g : Nat) (st : Status) (data : State → List Byte) (s : State) : State :=
  let w := s.sup.waitAct.filter (·.1 == g)
  w.foldl (fun s p => complete p.2 0x0805 st (data s) s) { s with sup := { s.sup with waitAct := s.sup.waitAct.filter (·.1 != g) } }

/-- `IDENT` data (R247), in the order in which the rule names them, and the cable position: UID (8), type (2), firmware version (4), input, output
and value counts (1 each), t_NIN and t_NOUT in ns (4 each), check word (4). DESIGN CHOICE (notes/assumptions/103.md): the widths. -/
def identOf (d : List Byte) (pos : Nat) : Ident :=
  { uid := beAt d 0 8, ntype := beAt d 8 2, fwVer := beAt d 10 4, ins := beAt d 14 1, outs := beAt d 15 1, vals := beAt d 16 1
    tNin := beAt d 17 4, tNout := beAt d 21 4, check := BitVec.ofNat 32 (beAt d 25 4), pos := pos }

/-- The slot that a source address names: a configured node's, or an unconfigured one's UID in the node table (R223). -/
def slotOfMac (s : State) (k : Nat) (a : List Byte) : Option Nat :=
  if a == nodeMac k (leAt a 5 1) then some (leAt a 5 1)
  else (List.range 256).find? fun i => let n := nodeOf s (256 * k + i); n.conf && freshMac n.uid == a

/-- An answer to a request in progress (R250). -/
def mgmtAnswer (k : Nat) (m : Mgmt) (status : Nat) (data : List Byte) (s : State) : State :=
  let g := 256 * k + m.slot
  let s1 := dropReq k m.tag s
  if m.op ≤ 3 then configNext k m (BitVec.ofNat 32 (beAt data 0 4)) s1
  else if m.op ≤ 5 then (if status ≠ 0 then nfwEnd false s1 else if m.op = 5 then nfwVerified data s1 else s1)
  else if status = 0 then actDone g .ok (fun _ => []) (modNode g (fun n => { n with fwWant := some n.staged, nstate := 6 }) s1)
  else actDone g .wrongState wrongState s1

/-- `MGMT_RESP_RECEIVE` at port p (R236): opcode, tag, status, 0, data; opcode 0 is `IDENT`, any other answers the request with its tag. -/
def mgmtResp (p : Nat) (fr : List Byte) (s : State) : State :=
  let k := p / 2
  let b := frameBody fr
  let data := b.drop 16
  if !headOk k 4 fr || b.length < 16 then dropFrame p s
  else if !(ringOf s k).master || !forModule s k fr then s
  else if leAt b 12 1 = 0 then
    let x := identOf data (if p % 2 = 0 then beAt b 4 2 else 0x1FF)
    identReceived k (frameSrc fr == freshMac x.uid) x s
  else
    match slotOfMac s k (frameSrc fr) with
    | none => s
    | some i =>
      match (ringOf s k).mgmt.find? fun m => m.sent && m.slot == i && m.tag == leAt b 13 1 && m.op == leAt b 12 1 with
      | none => s
      | some m => mgmtAnswer k m (leAt b 14 1) data s

/-- `MGMT_RESP_RECEIVE`. -/
def execMgmtRespReceive (p : Fin 4) (fr : List Byte) (s : State) : Host.Outcome State Fault Refusal := .next (mgmtResp p.val fr s)

/-- A request has been given up (R250): the slot is absent, the transfer fails, or the command completes with `NO_NODE`. -/
def giveUp (k : Nat) (m : Mgmt) (s : State) : State :=
  let g := 256 * k + m.slot
  let s1 := dropReq k m.tag s
  if m.op ≤ 3 then modNode g (fun n => { n with conn := 1 }) s1
  else if m.op ≤ 5 then nfwEnd false s1
  else actDone g .noNode (fun _ => leBytes 2 g) s1

/-- `MGMT_TIMEOUT` (R250): four ring periods after it left, the oldest request is without an answer; it is repeated twice, then given up. -/
def mgmtTimeout (k : Nat) (s : State) : State :=
  match (ringOf s k).mgmt.find? (·.sent) with
  | none => s
  | some m =>
    let s1 := ringPeriods (4 - ((ringOf s k).rpn + 2 ^ 32 - m.at_) % 2 ^ 32) k s
    let again (x : Mgmt) : Mgmt := if x.tag == m.tag then { x with repeats := x.repeats + 1, sent := false } else x
    if m.repeats < 2 then modRing k (fun r => { r with mgmt := r.mgmt.map again }) s1 else giveUp k m s1

/-- `MGMT_TIMEOUT`. -/
def execMgmtTimeout (k : Fin 2) (s : State) : Host.Outcome State Fault Refusal := .next (mgmtTimeout k.val s)

/-! ### Ring master and standby (R276 to R278) -/

/-- The standby compares a container of the ring master with its own committed outputs (R278). -/
def standbyCompare (k slot : Nat) (c : List Byte) (s : State) : State :=
  let g := 256 * k + slot
  let n := nodeOf s g
  let seq := beAt c 0 2
  if !n.conf || n.oseq == seq then s
  else
    let own := nodeOutBits s (now s) g
    let theirs := BitVec.ofNat 8 (leAt c 2 1)
    let bad := theirs &&& ~~~own != 0
    let run := if bad then n.disRun + 1 else 0
    let s1 := modNode g (fun n => { n with oseq := seq, disRun := run }) { s with xl := { s.xl with ringDiff := s.xl.ringDiff || theirs != own } }
    if bad && s.xl.disCyc ≤ run then setRingMaster k true (assertKill 2 s1) else s1

/-- The standby follows the ring master's period number and T_SYNC as a node does, from the copy with the lower `HOP` (R230, R277). -/
def followMaster (k : Nat) (b : List Byte) (s : State) : State :=
  let r := ringOf s k
  let hop := beAt b 4 2
  let t : Int := (beAt b 0x0C 8 : Int) + beAt b 0x14 4 * 2 / 125 - instant s
  modRing k (fun r => { r with rpn := beAt b 8 4, ofs := if !r.heard || hop < r.syncHop then t else r.ofs
                               syncHop := if !r.heard then hop else min hop r.syncHop }) { s with ring := { s.ring with rings := vset s.ring.rings k r } }

/-- `SCHEDULE_FRAME_RECEIVE` at port p: a frame of this module that went round the ring (R241), or one of the pair's ring
master, which the standby follows (R277). -/
def schedReceive (p : Nat) (fr : List Byte) (s : State) : State :=
  let k := p / 2
  let b := frameBody fr
  if !headOk k 1 fr then dropFrame p s
  else if frameSrc fr == moduleMac s.xl.mid k then
    let west := (leAt b 2 1).testBit 1
    if west && p % 2 == 0 then modRing k (fun r => { r with schedW := true }) s
    else if !west && p % 2 == 1 then modRing k (fun r => { r with schedE := true }) s
    else s
  else if !pairMode s || frameSrc fr != moduleMac (partnerMid s) k then s
  else
    let first := beAt b 0x1A 2
    let master := (ringOf s k).master
    let s1 := modRing k (fun r => { r with heard := true }) (if master then s else followMaster k b s)
    if master then s1
    else (List.range (leAt b 0x19 1)).foldl (fun s c => standbyCompare k ((first + c) % 256) (slice b (0x1C + 8 * c) 8) s) s1

/-- `SCHEDULE_FRAME_RECEIVE`. -/
def execScheduleFrameReceive (p : Fin 4) (fr : List Byte) (s : State) : Host.Outcome State Fault Refusal :=
  .next (schedReceive p.val fr s)

/-- `RING_MASTER_TAKEOVER` of ring k (R277): the standby heard no schedule frame in one period and becomes acting ring master at
the next S_p. -/
def ringTakeover (k : Nat) (s : State) : State :=
  if !pairMode s || (ringOf s k).master || (ringOf s k).heard || s.md.qualPartner then s
  else ringPeriod k (modRing k (fun r => { r with sched := true }) (setRingMaster k true s))

/-- `RING_MASTER_TAKEOVER`. -/
def execRingMasterTakeover (k : Fin 2) (s : State) : Host.Outcome State Fault Refusal := .next (ringTakeover k.val s)

/-- Does a module in pair mode forward a frame to its other port (R243, R276): not a link-local one, one of its own, one to itself, or one with
`HOP` of 300 or more? -/
def forwards (s : State) (p : Nat) (fr : List Byte) : Bool :=
  let k := p / 2
  pairMode s && slice fr 12 2 == [0x88#8, 0xB6#8] && leAt (frameBody fr) 0 1 == 1 && frameDst fr != localMac &&
  frameSrc fr != moduleMac s.xl.mid k && frameDst fr != moduleMac s.xl.mid k && beAt (frameBody fr) 4 2 < 300

/-- `RING_FRAME_FORWARD` (R276): the frame goes out of the other port with `HOP` + 1. -/
def execRingFrameForward (p : Fin 4) (fr : List Byte) (s : State) : Host.Outcome State Fault Refusal :=
  .next (if forwards s p.val fr then
      modRing (p.val / 2) (fun r => { r with tx := r.tx ++
        [(p.val + 1 - 2 * (p.val % 2), fr.take 18 ++ beBytes 2 (beAt (frameBody fr) 4 2 + 1) ++ fr.drop 20)] }) s
    else s)

end Sys2Proof.Machine
end

