-- ==== Sys2Proof/Machine/Motion.lean ====
section
/-! DEFINITION. The motion monitors (06_motion_monitors R143 to R169): sources and edges, the sample, divergence and standstill, the
drum map, result cells, units. Times are in units of 0.5 ns: 125 per TCLK tick, 8 per LCLK period. -/

namespace Sys2Proof.Machine

/-- Changes monitor n. -/
def modMon (n : Nat) (f : Mon → Mon) (s : State) : State := { s with mm := { s.mm with mons := vmod s.mm.mons n f } }
/-- Changes unit u. -/
def modUnit (u : Nat) (f : MUnit → MUnit) (s : State) : State := { s with mm := { s.mm with units := vmod s.mm.units u f } }
/-- Sets bit `i` of `MM_EVT`. -/
def mmEvt (i : Nat) (s : State) : State := { s with mm := { s.mm with evt := s.mm.evt ||| BitVec.twoPow 32 i } }

/-- Units of 0.5 ns in a second. -/
def perSecond : Int := 2000000000

/-! ### Edges (R144 to R147, R167, R169) -/

/-- A counted edge of a source: its step, its stamp. -/
def Src.edge (step : Int) (tick fine : Nat) (coarse : Bool) (x : Src) : Src :=
  let t := edgeT tick fine
  { x with cnt := x.cnt + step, edges := x.edges ++ [(t, x.cnt + step, step)], coarse := if coarse then x.coarse ++ [t] else x.coarse }

/-- The last edge or remote sample taken: its time and step, and for an edge source its stamp (R150, R158). -/
def Src.note (e : Option (Nat × Int × Int)) (x : Src) : Src :=
  match e with
  | none => x
  | some (t, _, d) =>
    { x with seen := true, lastT := t, lastStep := if d = 0 then x.lastStep else d
             lastTick := if x.kind < 4 then t / 125 else x.lastTick, lastFine := if x.kind < 4 then t % 125 / 8 else x.lastFine }

/-- The speed window is emptied (R161, R168). -/
def Src.emptyWindow (x : Src) : Src := { x.note x.edges.getLast? with edges := [] }

/-- What a level change of counting input k is to a source that it feeds: `a`, `b` the levels of CIsel and CIsel+1 before it,
`near` an edge of the pair's other input within 16 ns, `skip` no change of level (a transition was missed). -/
def Src.ciEdge (k : Nat) (level a b near skip : Bool) (tick fine : Nat) (coarse : Bool) (x : Src) : Src :=
  let isA := k == x.sel
  let isB := k == x.sel + 1
  match x.kind with
  | 1 =>
    if !isA && !isB then x
    else if skip then { x with quadErr := true }
    else
      let y := if near then { x with quadErr := true } else x
      let up := if isA then level != b else level == a
      y.edge (if up then 1 else -1) tick fine coarse
  | 2 => if isA && !skip then x.edge (if b then 1 else -1) tick fine coarse else x
  | 3 => if isA && !skip then x.edge 1 tick fine coarse else x
  | _ => x

/-- An edge of counting input k to `level`, in the tick that the TCLK edge `tick` opened, `fine` LCLK periods after it (R167,
R181): its counter, the timer array on the edge that ends the tick, the monitor sources. While TCLK is stopped it is stamped
from the SCLK count (R169). -/
def ciEdge (k : Nat) (level : Bool) (tick fine : Nat) (s : State) : State :=
  let running := s.time.tclkRun
  let s0 := inputsTo tick s
  let stamp := if running then min tick (now s0) else now s0
  let c := vget s0.inp.cis k
  let other := vget s0.inp.cis (if k % 2 = 0 then k + 1 else k - 1)
  let near := match other.last with | some l => tickDist l (edgeT tick fine) < 32 | none => false
  let skip := level == c.lvl
  let lv (j : Nat) : Bool := (vget s0.inp.cis j).lvl
  let f : Nat := if s0.nv.inForce.fore then fine else 0
  let s1 := onSources (fun _ x => x.ciEdge k level (lv x.sel) (lv (x.sel + 1)) near skip stamp f (!running)) s0
  let s2 := if skip then s1 else ciCount k level tick fine s1
  if !running then s2
  else if tick < now s0 then { s2 with tmr := tmrEdge { ci := [(k, level)] } s2.tmr }
  else tclkEdge { dt := 1, ci := [(k, level)] } s2

/-- `CI_EDGE`. -/
def execCiEdge (k : Fin 8) (level : Bool) (tick : Nat) (fine : Fin 16) (s : State) : Host.Outcome State Fault Refusal :=
  .next (withInpEvents (ciEdge k.val level tick fine.val) s)

/-! ### Remote sources (R147, R240) -/

/-- Quality and code that a remote value cell shows now. -/
def valueView (s : State) (cell : Nat) : Bool × Nat :=
  let (g, m) := valueOf cell
  let n := nodeOf s g
  if !n.conf then (false, 7)
  else let w := nodeValue n m; (w.getLsbD 1, dcode w)

/-- The value and the sample instant of a remote source's last container. -/
def valueSample (s : State) (cell ts : Nat) : Option (Nat × Nat) :=
  let (g, m) := valueOf cell
  let n := nodeOf s g
  if n.used.isEmpty then none else some (containerValue (ringOf s (g / 256)).ofs ts n.used m)

/-- Is a source good, and the code of its cell (R146, R147, R159)? Answers cell quality, code. -/
def srcView (s : State) (x : Src) : Bool × Nat :=
  match x.kind with
  | 0 => (false, 0)
  | 3 => ciView s x.sel
  | 4 | 5 => valueView s x.sel
  | _ =>
    let (q, c) := ciView s x.sel
    let (r, d) := ciView s (x.sel + 1)
    (q && r, if q then d else c)

/-! ### Speed (R150) -/

/-- Does a kind give a position, a speed? -/
def givesPos (kind : Nat) : Bool := kind == 1 || kind == 2 || kind == 4

/-- The decaying bound of R150 on the previous speed, from the last edge before the sample. -/
def Src.decay (ts : Nat) (x : Src) : Src :=
  let tau := ts - x.lastT
  if tau = 0 || (x.vNum.natAbs : Int) * tau ≤ perSecond * x.vDen then { x with vNum := x.lastStep.sign * x.vNum.natAbs }
  else { x with vNum := x.lastStep.sign * perSecond, vDen := tau }

/-- The sample of a source: position, edges of the window, the speed in counts per second as a fraction, and whether it is a
decaying bound. Edges stamped at or after the sample stay for the next (R148). A window whose edges all carry one stamp gives
no stated speed: a free value. -/
def Src.sample (ts wv : Nat) (free : Int) (x : Src) : Src × Bool × Nat :=
  let inTime (e : Nat × Int × Int) : Bool := 4 ≤ x.kind || e.1 < ts
  let late := x.edges.filter fun e => !inTime e
  let past := x.edges.filter inTime
  let win := past.filter fun e => ts < e.1 + wv
  let n := win.length
  let cnt := x.cnt - (late.map fun e => e.2.2).foldl (· + ·) 0
  let acc := x.rem + (cnt - x.taken) * x.num
  let y := { x.note past.getLast? with taken := cnt, pos := x.pos + acc / x.den, rem := acc % x.den, edges := win ++ late }
  match win.head?, win.getLast? with
  | some f, some l =>
    if 2 ≤ n then
      let dc := l.2.1 - f.2.1
      let dt := l.1 - f.1
      let tau := ts - l.1
      if dt = 0 then ({ y with vNum := free, vDen := 1 }, false, n)
      else if dt < tau * (n - 1) && (dt : Int) * perSecond < dc.natAbs * perSecond * tau then
        ({ y with vNum := dc.sign * perSecond, vDen := tau }, false, n)
      else ({ y with vNum := dc * perSecond, vDen := dt }, false, n)
    else (y.decay ts, true, n)
  | _, _ => if !y.seen then ({ y with vNum := 0, vDen := 1 }, true, n) else (y.decay ts, true, n)

/-- Does the sample use a stamp of 2 µs resolution: an edge of its window, or for a decaying bound the last edge (R169)? -/
def Src.usesCoarse (ts : Nat) (low : Bool) (x : Src) : Bool :=
  x.coarse.any fun t => (x.edges.any fun e => e.1 == t && e.1 < ts) || (low && x.lastT == t)

/-- Coarse stamps that a later sample may still use. -/
def Src.dropCoarse (x : Src) : Src :=
  { x with coarse := x.coarse.filter fun t => x.lastT == t || x.edges.any fun e => e.1 == t }

/-- Speed of a source in 1/16 PU per second. -/
def Src.vel (x : Src) : Int :=
  match x.kind with
  | 0 => 0
  | 5 => sat32 (truncDiv (16 * toSigned 24 ((x.last.map (·.1)).getD 0) * x.num) x.den)
  | _ => sat32 (truncDiv (16 * x.vNum * x.num) (x.vDen * x.den))

/-- Position of source B brought to t_s (R154): a remote one moves on by its speed. -/
def Src.posAt (ts : Nat) (x : Src) : Int :=
  x.pos + x.ofs +
  (if x.kind == 4 then truncDiv (x.vNum * x.num * ((ts : Int) - x.lastT)) (x.vDen * x.den * perSecond) else 0)

/-! ### The drum map (R156, R157) -/

/-- Layers with the turns before each: (Θ_k, turns, length per turn). -/
def layersFrom : Nat → List (Nat × Nat) → List (Nat × Nat × Nat)
  | _, [] => []
  | th, (t, l) :: r => (th, t, l) :: layersFrom (th + t) r

/-- Line, layer and the length per turn of the layer at a position; none outside the map, with the line at the nearer end. -/
def DrumMap.at (m : DrumMap) (pos : Int) : Int × Option (Nat × Nat) :=
  let th := pos - m.ref
  let ls := layersFrom 0 m.layers
  let den : Int := (m.puTurn : Int) * 65536
  let before (k : Nat) : Int := ((ls.take k).map fun x => (x.2.1 : Int) * x.2.2).foldl (· + ·) 0
  let line (num : Int) : Int := sat32 (m.lRef + num / den)
  if th < 0 then (sat32 m.lRef, none)
  else
    match ls.findIdx? fun x => th < (x.1 : Int) + x.2.1 with
    | some k => let x := lget ls k (0, 0, 0); (line (before k + (th - x.1) * x.2.2), some (k, x.2.2))
    | none => (line (before ls.length), none)

/-! ### One sample (R148 to R160) -/

/-- A Boolean result: value, quality, code. -/
def mmBool (v q : Bool) (code : Nat) : Word := bpoint v q (if v then 0 else code)

/-- State of a divergence timer: since when the difference has persisted. -/
def sinceWhen (bad : Bool) (ts : Nat) (o : Option Nat) : Option Nat := if bad then (match o with | some t => some t | none => some ts) else none

/-- Has a condition lasted for `ms`? -/
def lasted (ms ts : Nat) (o : Option Nat) : Bool := match o with | some t => t + msTicks ms ≤ ts | none => false

/-- A word of a signed result. -/
def sw (x : Int) : Word := BitVec.ofInt 32 x

/-- The result words of a logical monitor that is not in use (R158). -/
def unusedWords : List Word := List.replicate 24 0 ++ [0x1F01#32]

/-- Sample of a logical monitor in use at tick `ts` (R148 to R160); `bad`: its unit found a second mismatch (R160). -/
def sampleMon (s : State) (n ts : Nat) (bad : Bool) (m : Mon) : Mon :=
  let t2 := 125 * ts
  let wv := 500000 * m.wv
  let (qa, ca) := srcView s m.a
  let (qb, cb) := srcView s m.b
  let fr := (Config.freeWord (s.free + 2 * n)).toInt
  let (a, lowA, nA) := (m.a.remote m.jmax (if 4 ≤ m.a.kind then valueSample s m.a.sel ts else none)).sample t2 wv fr
  let (b, lowB, _) := (m.b.remote m.jmax (if 4 ≤ m.b.kind then valueSample s m.b.sel ts else none)).sample t2 wv fr
  let two := m.b.kind != 0
  let va := a.vel
  let vb := if !two then 0 else if m.b.kind == 3 then (if va < 0 then -(b.vel.natAbs : Int) else b.vel.natAbs) else b.vel
  let vel := if two && 0 ≤ va * vb && va.natAbs < vb.natAbs then vb else va
  let pa := toSigned 48 (ofSigned 48 (a.pos + a.ofs))
  let bothPos := two && givesPos m.a.kind && givesPos m.b.kind
  let diff := if bothPos then a.pos + a.ofs - b.posAt t2 else 0
  let okA := qa && !a.quadErr && !a.jump
  let okB := two && qb && !b.quadErr && !b.jump
  let posBad := bothPos && (m.dpos : Int) < diff.natAbs
  let velBad := two && ((m.dv : Int) + ((max va.natAbs vb.natAbs * m.dvrel) / 65536 : Nat)) < (va - vb).natAbs
  let posSince := sinceWhen posBad ts m.posSince
  let velSince := sinceWhen velBad ts m.velSince
  let latchPos := m.latchPos || lasted m.tdiv ts posSince
  let latchVel := m.latchVel || lasted m.tdiv ts velSince
  let diverged := posBad || velBad || latchPos || latchVel
  let refillUntil := if m.refillPend then ts + 4000 * m.wv else m.refillUntil
  let causes := (if m.unit.isNone then [2] else []) ++ (if ts < refillUntil then [3] else []) ++ (if qa then [] else [4]) ++
    (if two && !qb then [5] else []) ++ (if a.quadErr then [6] else []) ++ (if b.quadErr then [7] else []) ++
    (if a.jump || b.jump then [8] else []) ++ (if latchPos then [9] else []) ++ (if latchVel then [10] else []) ++
    (if bad then [11] else []) ++ (if m.paramBad then [12] else [])
  let valid := causes.isEmpty
  let mapped := m.map.map fun d => d.at pa
  let outside := match mapped with | some (_, none) => true | _ => false
  let cause := lowest (causes ++ if outside then [13] else [])
  let code := if cause = 4 then ca else if cause = 5 then cb else if !okA then ca else if two && !okB then cb
    else if latchPos || latchVel then 0xD else 0
  let still := valid && vel.natAbs ≤ m.vst && (!two || vb.natAbs ≤ m.vst)
  let standSince := sinceWhen still ts m.standSince
  let stand := lasted m.tst ts standSince
  let slow := va.natAbs ≤ m.vst && vb.natAbs ≤ m.vst
  let slowSince := sinceWhen slow ts m.slowSince
  let hist := (vel :: m.hist).take (m.wa + 1)
  let us := periodTicks s.cyc.period / 16
  let acc := if hist.length < m.wa + 1 then 0 else sat32 (truncDiv ((vel - lget hist m.wa 0) * 1000000) (16 * m.wa * us))
  let free0 := Config.freeWord (s.free + 2 * n)
  let free1 := Config.freeWord (s.free + 2 * n + 1)
  let line := match mapped with | some (l, _) => sw l | none => free0
  let lineV := match m.map, mapped with
    | some d, some (_, some (_, lpt)) => sw (sat32 (truncDiv (vel * lpt) ((d.puTurn : Int) * 65536)))
    | some _, _ => 0
    | none, _ => free1
  let layer := match mapped with | some (_, some (k, _)) => k | _ => 0x1F
  let lowrate := (m.a.kind != 5 && lowA) || (two && m.b.kind != 5 && lowB)
  let coarse := a.usesCoarse t2 lowA || b.usesCoarse t2 lowB
  let led (x : Src) : Word := BitVec.ofNat 32 (x.lastFine + 16 * (x.lastTick % 2 ^ 24))
  let stat := cause % 16 + at1 two 4 + at1 lowrate 5 + at1 coarse 6 + at1 s.nv.inForce.fore 7 + 256 * (m.unit.getD 0x1F)
  let words := [mmBool valid valid code, mmBool (valid && stand) valid (if valid then 0 else code), mmBool okA true ca, mmBool okB true (if two then cb else 0),
    mmBool (two && !diverged) true (if diverged then 0xD else 0),
    mmBool (valid && mapped.isSome && !outside) valid (if outside then 0xD else if valid then 0 else code), 0, 0] ++
    [BitVec.ofInt 32 pa, sw (pa / 2 ^ 32), sw (sat32 pa), sw vel, sw acc, sw va, sw vb, sw (sat32 diff)] ++
    [line, lineV, BitVec.ofNat 32 layer, 0, BitVec.ofNat 32 ts, led a, led b, BitVec.ofNat 32 nA, BitVec.ofNat 32 stat]
  { m with a := { a.dropCoarse with ok := okA }, b := { b.dropCoarse with ok := okB }
           handReq := bad, refillPend := false, refillUntil := refillUntil, posSince := posSince, velSince := velSince
           latchPos := latchPos, latchVel := latchVel, standSince := standSince, stand := valid && stand, slowSince := slowSince
           slow := lasted m.tst ts slowSince, hist := hist, lowrate := lowrate, coarse := coarse, cause := cause, code := code
           outside := outside, res := words }

/-! ### The unit's two computations (R160, R162) -/

/-- Result words as a unit's computation on true data leaves them, first or repeated. -/
def unitDirect (l : List UnitFault) (u : Nat) (again : Bool) (ws : List Word) : List Word :=
  l.foldl (fun ws f => if f.unit.val == u then ws.modify f.word (· ^^^ if again then f.again else f.first) else ws) ws

/-- The computation on complemented data with dual operations gives the complement of every result word (R60). -/
def unitDual (ws : List Word) : List Word := ws.map (~~~·)

/-- Do the two computations of a sample agree in every result word? -/
def unitAgrees (l : List UnitFault) (u : Nat) (again : Bool) (ws : List Word) : Bool :=
  unitDirect l u again ws == (unitDual ws).map (~~~·)

/-- Sample of a monitor on its unit (R160): after a mismatch the computation is repeated, and a second one spoils the sample. Answers the
monitor, and whether a mismatch occurred. -/
def unitSample (l : List UnitFault) (s : State) (n ts : Nat) (m : Mon) : Mon × Bool :=
  let g := sampleMon s n ts false m
  match m.unit with
  | none => (g, false)
  | some u =>
    if unitAgrees l u false g.res then (g, false)
    else (if unitAgrees l u true g.res then g else sampleMon s n ts true m, true)

/-- Events of a monitor's sample against the one before (R396). -/
def monEvents (n : Nat) (o m : Mon) (s : State) : State :=
  let src (c : Nat) : Bool := 4 ≤ c && c ≤ 8
  let newBad (x y : Src) : Bool := y.kind != 0 && !y.ok && (x.ok || o.cause == 1)
  let own : Nat := if newBad o.a m.a then (if m.a.quadErr then 6 else if m.a.jump then 8 else 4)
    else if m.b.quadErr then 7 else if m.b.jump then 8 else 5
  let s1 := if newBad o.a m.a || newBad o.b m.b then
      postEv 0x0501 n (leBytes 1 (if src m.cause then m.cause else own) ++ leBytes 1 m.code) (mmEvt 0 s)
    else s
  let pd := lget m.res 15 0
  let s2 := if m.latchPos && !o.latchPos then postEv 0x0502 n (leBytes 1 9 ++ leBytes 4 pd.toNat) (mmEvt 1 s1) else s1
  let s3 := if m.latchVel && !o.latchVel then postEv 0x0502 n (leBytes 1 10 ++ leBytes 4 pd.toNat) (mmEvt 1 s2) else s2
  let s4 := if m.handReq then (match m.unit with | some u => postEv 0x0503 u (leBytes 1 n) s3 | none => s3) else s3
  let s5 := if m.outside && !o.outside then postEv 0x0507 n (leBytes 4 (lget m.res 10 0).toNat) (mmEvt 7 s4) else s4
  if m.coarse then postEv 0x0508 n [] (mmEvt 8 s5) else s5

/-- The shadow's sample (R162): it computes from the same sources on what it was seeded with, and its results are compared bit for bit with
those of the active unit, whose number the status word carries. -/
def shadowSample (l : List UnitFault) (s0 s : State) (ts : Nat) : State :=
  match s.mm.shadowMon with
  | none => s
  | some (n, sm) =>
    let m := vget s.mm.mons n
    match m.shadow with
    | none => s
    | some v =>
      let y := sampleMon s0 n ts false { sm with unit := m.unit }
      let eq := unitAgrees l v false y.res && !m.handReq && y.res == m.res
      { s with mm := { s.mm with shadowMon := some (n, y)
                                 mons := vmod s.mm.mons n fun m => { m with shadowEq := if eq then m.shadowEq + 1 else 0, shadowN := m.shadowN + 1 } } }

/-- `MM_SAMPLE` at t0 − 8 µs (R148); `l` are the faults of the units in this sample (R160, R162). In `QUIET` a monitor that leaves
standstill ends the mode at the next boundary (R23). -/
def mmSample (l : List UnitFault) (s : State) : State :=
  let s0 := if s.cyc.running then advanceTo (s.cyc.nextT0 - 128) s else s
  let ts := if s.cyc.running then s.cyc.nextT0 - 128 else now s0
  let one (n : Nat) (m : Mon) : Mon := if !m.used then { m with res := unusedWords, cause := 1 } else (unitSample l s0 n ts m).1
  let mis := (List.range 16).any fun n => let m := vget s0.mm.mons n; m.used && (unitSample l s0 n ts m).2
  let s1 := shadowSample l s0 { s0 with mm := { s0.mm with mons := vmapi one s0.mm.mons }, free := s0.free + 32 } ts
  let s2 := (List.range 16).foldl (fun s n => if (vget s0.mm.mons n).used then monEvents n (vget s0.mm.mons n) (vget s1.mm.mons n) s else s)
    (if mis then mmEvt 2 s1 else s1)
  let woke := (List.range 16).any fun n => let m := vget s2.mm.mons n; m.used && (vget s0.mm.mons n).stand && !m.stand
  if s2.md.mstate == .quiet && woke then { s2 with md := { s2.md with quietExit := true } } else s2

/-- `MM_SAMPLE`. -/
def execMmSample (faults : List UnitFault) (s : State) : Host.Outcome State Fault Refusal := .next (mmSample faults s)

/-- Result cells frozen at t0 (R158). -/
def monCells (s : State) : List (Nat × Word) :=
  (List.range 16).flatMap fun n =>
    let m := vget s.mm.mons n
    let w := if m.used then m.res else unusedWords
    (List.range 25).map fun i => (0x2080 + 64 * n + i, lget w i 0)

/-! ### Units (R143, R160 to R163) -/

/-- The lowest-numbered spare unit. -/
def spareUnit (s : State) : Option Nat := vfind s.mm.units fun u => u.role == .spare

/-- A monitor is put on a unit, or left unplaced. -/
def carryMon (n : Nat) (u : Option Nat) (s : State) : State :=
  let s1 := modMon n (fun m => { m with unit := u }) s
  match u with
  | some u => modUnit u (fun x => { x with role := .active, hosts := some n }) s1
  | none => s1

/-- A monitor as a new unit takes it (R152, R161): the speed windows and the history of speeds start empty. -/
def Mon.emptied (m : Mon) : Mon := { m with hist := [], a := m.a.emptyWindow, b := m.b.emptyWindow }

/-- The shadow of monitor n is given up. -/
def dropShadow (n : Nat) (s : State) : State :=
  let s1 := modMon n (fun m => { m with shadow := none, shadowEq := 0, shadowN := 0 }) s
  { s1 with mm := { s1.mm with shadowMon := none } }

/-- Places every monitor in use without a unit, in ascending order, on the lowest spare unit (R143); its window starts empty. -/
def placeMons (refill : Bool) (s : State) : State :=
  (List.range 16).foldl (fun s n =>
    let m := vget s.mm.mons n
    if m.used && m.unit.isNone then
      match spareUnit s with
      | some u => modMon n (fun m => { m.emptied with refillPend := refill || m.refillPend }) (carryMon n (some u) s)
      | none => s
    else s) s

/-- A unit leaves its monitor and runs its BIST; after a second fault-driven relief within 720 h it is retired after it (R163). -/
def relieveUnit (u : Nat) (fault : Bool) (s : State) : State :=
  modUnit u (fun x => { x with role := .bist, hosts := none, bistRes := 3,
                               faults := if fault then x.faults ++ [now s] else x.faults, testEnd := now s + msTicks 5 }) s

/-- P4 of a cycle (R161, R162): hand-overs asked for by the sample, shadows that have matched 16 samples or never will, and
monitors that still wait for a unit. -/
def mmP4 (s : State) : State :=
  let hand (s : State) (n : Nat) : State :=
    let m := vget s.mm.mons n
    match m.unit with
    | some u =>
      if !m.handReq then s
      else
        let s1 := relieveUnit u true s
        -- a shadow of the monitor goes to its BIST as well
        let s2 := match m.shadow with | some v => dropShadow n (relieveUnit v false s1) | none => s1
        let nu := spareUnit s2
        let s3 := modMon n (fun m => { m.emptied with handReq := false, refillPend := true }) (carryMon n nu s2)
        postEv 0x0504 n (leBytes 1 u ++ leBytes 1 (nu.getD 0x1F)) (mmEvt 3 s3)
    | none => s
  let rot (s : State) (n : Nat) : State :=
    let m := vget s.mm.mons n
    match m.unit, m.shadow with
    | some u, some v =>
      if 16 ≤ m.shadowEq then
        let s1 := dropShadow n (carryMon n (some v) (relieveUnit u false s))
        let s2 := { s1 with mm := { s1.mm with due := false } }
        postEv 0x0505 n (leBytes 1 u ++ leBytes 1 v) (mmEvt 4 s2)
      else if 4000 * m.wv / periodTicks s.cyc.period + 64 ≤ m.shadowN then dropShadow n (relieveUnit v false s)
      else s
    | _, _ => s
  placeMons true ((List.range 16).foldl rot ((List.range 16).foldl hand s))

/-- The active unit whose last passed BIST is oldest: the next to be relieved (R162). -/
def nextUnit (s : State) : Option Nat :=
  (List.range 18).foldl (fun (acc : Option Nat) u =>
    let x := vget s.mm.units u
    if x.role != .active then acc
    else match acc with
      | none => some u
      | some v => if (x.lastBist.getD 0) < ((vget s.mm.units v).lastBist.getD 0) then some u else acc) none

/-- A due rotation starts its shadow on a spare unit (R162). -/
def startShadow (s : State) : State :=
  if !s.mm.due || (vany s.mm.mons fun m => m.shadow.isSome) then s
  else
    match nextUnit s, spareUnit s with
    | some u, some v =>
      match (vget s.mm.units u).hosts with
      | some n =>
        let s1 := modUnit v (fun x => { x with role := .shadow, hosts := some n })
          (modMon n (fun m => { m with shadow := some v, shadowEq := 0, shadowN := 0 }) s)
        { s1 with mm := { s1.mm with shadowMon := some (n, (vget s.mm.mons n).emptied) } }
      | none => s
    | _, _ => s

/-- `MM_ROTATION_DUE`: the rotation period has elapsed. -/
def execMmRotationDue (s : State) : Host.Outcome State Fault Refusal :=
  let s0 := advanceTo (s.mm.rotSince + hourTicks s.mm.periodH.toNat) s
  .next (if s.mm.periodH = 0 then s else startShadow { s0 with mm := { s0.mm with due := true, rotSince := now s0 } })

/-- Fault-driven reliefs of a unit within 720 h. -/
def unitFaults (s : State) (u : Nat) : Nat := ((vget s.mm.units u).faults.filter fun t => now s < t + hourTicks 720).length

/-- `MM_UNIT_BIST_DONE` of unit u (R163): it becomes `SPARE`, or is retired after a fail or its second fault within 720 h. -/
def unitBistDone (u : Nat) (pass : Bool) (s : State) : State :=
  let x := vget s.mm.units u
  if x.role != .bist then s
  else
    let out := !pass || 2 ≤ unitFaults s u
    let s1 := modUnit u (fun x => { x with role := if out then .retired else .spare, bistRes := if pass then 1 else 2,
                                           lastBist := if pass then some (now s) else x.lastBist }) s
    let s2 := if pass then s1 else mmEvt 5 s1
    let s3 := if out then postEv 0x0506 u (leBytes 1 (unitFaults s u)) (mmEvt 6 { s2 with keep := { s2.keep with retUnits := vset s2.keep.retUnits u true } }) else s2
    startShadow s3

/-- The end of a unit's BIST at shut-down (R487): a failure retires the unit. -/
def unitShutTested (u : Nat) (pass : Bool) (s : State) : State :=
  if (vget s.mm.units u).role == .retired || !s.md.shutBist then s
  else
    let s1 := { s with md := { s.md with shutUnits := vset s.md.shutUnits u (if pass then .pass else .fail) } }
    let s2 := modUnit u (fun x => { x with bistRes := if pass then 1 else 2, role := if pass then x.role else .retired }) s1
    if pass then s2
    else postEv 0x0506 u (leBytes 1 (unitFaults s2 u)) (mmEvt 5 (mmEvt 6 { s2 with keep := { s2.keep with retUnits := vset s2.keep.retUnits u true } }))

/-- `MM_UNIT_BIST_DONE`. -/
def execMmUnitBistDone (u : Fin 18) (pass : Bool) (s : State) : Host.Outcome State Fault Refusal :=
  .next (if s.md.mstate == .shuttingDown then unitShutTested u.val pass s else unitBistDone u.val pass s)

/-- The realignment of R155, with every error of both sources cleared. -/
def realign (n : Nat) (s : State) : State :=
  let ts := 125 * now s
  let f (m : Mon) : Mon :=
    let d := if givesPos m.a.kind && givesPos m.b.kind then m.a.pos + m.a.ofs - m.b.posAt ts else 0
    { m with latchPos := false, latchVel := false, posSince := none, velSince := none
             a := { m.a with quadErr := false, jump := false }, b := { m.b with quadErr := false, jump := false, ofs := m.b.ofs + d } }
  let s1 := modMon n f s
  { s1 with mm := { s1.mm with shadowMon := s1.mm.shadowMon.map fun p => if p.1 == n then (p.1, f p.2) else p } }

end Sys2Proof.Machine
end

