-- ==== Sys2Proof/Machine/Lanes.lean ====
section
/-! DEFINITION. The evaluation lanes (03_evaluation_lanes R53 to R85): placing, runs, mismatches, hand-over, rotation, BIST,
observer duty (17_configuration_updates R437, R438) and Prism mode; the commit decision of one logical lane (R36 to R41). -/

namespace Sys2Proof.Machine

/-! ### Lanes and logical lanes -/

/-- Lane k. -/
def laneOf (s : State) (k : Nat) : Lane := vget s.lane.lanes k
/-- Logical lane i; 4 is LLO. -/
def llOf (s : State) (i : Nat) : LLane := vget s.lane.lls i
/-- A change to lane k. -/
def modLane (k : Nat) (f : Lane → Lane) (s : State) : State := { s with lane := { s.lane with lanes := vmod s.lane.lanes k f } }
/-- A change to logical lane i. -/
def modLl (i : Nat) (f : LLane → LLane) (s : State) : State := { s with lane := { s.lane with lls := vmod s.lane.lls i f } }

/-- Lanes in `SPARE`, in ascending order. -/
def spares (s : State) : List Nat := (List.range 5).filter fun k => (laneOf s k).role == .spare
/-- The lane in a role that at most one lane holds. -/
def laneIn (s : State) (r : LaneRole) : Option Nat := vfind s.lane.lanes fun l => l.role == r

/-- Fault-driven hand-overs from lane k in the last 720 h (`FAULT_CNT`). -/
def laneFaults (s : State) (k : Nat) : Nat := ((laneOf s k).faults.filter fun t => now s < t + hourTicks 720).length

/-- Logical lane i goes to lane k: pointers only (R54, R74). -/
def assign (i k : Nat) (s : State) : State :=
  modLane k (fun l => { l with role := if i = 4 then .observer else .safety, hosts := some i })
    (modLl i (fun x => { x with lane := some k }) s)

/-- Logical lane i is hosted by no lane. -/
def unplace (i : Nat) (s : State) : State := modLl i (fun x => { x with lane := none }) s

/-- Lane k runs its BIST, 35 ms max (R78). -/
def laneToBist (k : Nat) (s : State) : State :=
  modLane k (fun l => { l with role := .bist, hosts := none, bistRes := 3, cmpFault := false, testEnd := now s + msTicks 35 }) s

/-- Lane k becomes `SPARE`. -/
def laneToSpare (k : Nat) (s : State) : State := modLane k (fun l => { l with role := .spare, hosts := none }) s

/-- Clears the free region. -/
def clearFree (s : State) : State := { s with lane := { s.lane with regions := vset s.lane.regions s.lane.free {} } }

/-- Observer duty ends with a reason (R341): staging and region are discarded, the lane goes to `SPARE`. -/
def endObserver (reason : Nat) (s : State) : State :=
  match (llOf s 4).lane with
  | none => s
  | some k =>
    let q := s.lane.qual
    let s1 := clearFree (laneToSpare k (modLl 4 (fun _ => { region := s.lane.free, gid := 4 }) s))
    let s2 := { s1 with lane := { s1.lane with qual := { q with state := if reason = 4 then 4 else 3, endReason := reason, lastOk := false } } }
    postEv 0x040B q.graph (leBytes 1 reason ++ leBytes 2 q.firstDiff) s2

/-- Prism mode ends (R85): the lane goes to BIST, the region is free, the host status cells wait for the next boundary. -/
def endPrism (s : State) : State :=
  match laneIn s .prism with
  | none => s
  | some k =>
    let s1 := clearFree (laneToBist k s)
    { s1 with lane := { s1.lane with prismOut := (s.image.getD {}).own.filter fun e => e.owner == 4 || e.owner == 5 } }

/-- The defaults of the host status cells of Prism graphs that have ended (R85). -/
def prismDefaults (s : State) : State :=
  s.lane.prismOut.foldl (fun s e => commitCell e.cell e.dflt s) { s with lane := { s.lane with prismOut := [] } }

/-- Logical safety lanes that wait for a lane (R54); one with a state-image fault waits for its reseed (R72). -/
def waiting (s : State) : List Nat := (List.range 4).filter fun i => (llOf s i).lane.isNone && !(llOf s i).stateFault

/-- One waiting logical lane is placed (R54, R74): on the lowest spare, else on the observer's lane; a Prism lane must pass its BIST
first. Its first cycle on the new lane is the one that begins (R72). -/
def placeOne (i : Nat) (s : State) : State :=
  let put (k : Nat) (s : State) : State := assign i k (modLl i (fun x => { x with hoMis := x.hoMis.map fun p => (p.1, s.cyc.num) }) s)
  match spares s, (llOf s 4).lane with
  | k :: _, _ => put k s
  | [], some k => put k (endObserver 2 s)
  | [], none => endPrism s

/-- Every waiting logical lane in priority order; one whose graph is absent is placed like any other (R54, R88). -/
def placeWaiting (s : State) : State := (waiting s).foldl (fun s i => placeOne i s) s

/-- A lane is `RETIRED` (R75); with every lane retired no logical lane can be placed (cause 0x16). -/
def retireLane (k : Nat) (s : State) : State :=
  let s1 := modLane k (fun l => { l with role := .retired, hosts := none }) s
  let s2 := postEv 0x0404 k (leBytes 1 (min 255 (laneFaults s k))) (laneEvt 9 { s1 with keep := { s1.keep with retLanes := vset s1.keep.retLanes k true } })
  if vall s2.lane.lanes fun l => l.role == .retired then findCause 0x16 s2 else s2

/-! ### State regions -/

/-- Region of logical lane i. -/
def regionOf (s : State) (i : Nat) : Region := vget s.lane.regions (llOf s i).region

/-- Overrides of a graph in force put into a region (R434). -/
def withOverrides (g swz : Nat) (s : State) (r : Region) : Region :=
  (s.nv.overs.filter (·.graph == g)).foldl (fun r o => r.override swz o.cell o.value) r

/-- Seeds the region of logical lane i from the initial values of the active image and the overrides in force (R57, R434). -/
def seedLl (i : Nat) (s : State) : State :=
  let g := match s.image with | some im => im.graph i | none => {}
  let r := if g.present then withOverrides i g.swz s (Region.seed g.pars g.swz) else {}
  modLl i (fun x => { x with gid := i, swz := g.swz, graph := g })
    { s with lane := { s.lane with regions := vset s.lane.regions (llOf s i).region r } }

/-! ### Runs (R31, R35, R39) -/

/-- What a logical lane's run reads (R34, R56). -/
def llEnv (s : State) (i : Nat) : PassEnv :=
  let im := if i = 4 then s.lane.qual.img else s.image
  { input := s.cyc.input, committed := s.cyc.committed, region := regionOf s i, swz := (llOf s i).swz
    owner := if i = 4 then s.lane.qual.graph else i, own := (im.getD {}).own, t0 := s.cyc.lastT0 }

/-- The run of a logical lane, whole, with what its reads find. -/
def llRun (s : State) (l : List Hit) (i : Nat) : Run := runGraph (llEnv s i) l (llOf s i).gid (llOf s i).graph.blocks

/-- A cycle slip of a logical lane (R39): each logical lane records it, the cycle counts once. The observer's slip is only a cycle
without an agreed result (R82). -/
def slipLl (i : Nat) (s : State) : State :=
  let s0 := modLl i (fun x => { x with st := .slipped, run := {} }) s
  if i = 4 then s0
  else
    let n := if s.cyc.slipped then s.cyc.slipCnt else satUp s.cyc.slipCnt
    postEv 0x0303 i (leBytes 4 s.cyc.num) { cycEvt 3 s0 with cyc := { (cycEvt 3 s0).cyc with slipCnt := n, slipped := true } }

/-- Every placed logical lane starts its first run, or slips where the clock does not allow it (R31, R39); one with a
comparator fault has no agreed result (R69). -/
def startRuns (slip : Bool) (s : State) : State :=
  (List.range 5).foldl (fun s i =>
    let x := llOf s i
    match x.lane with
    | none => modLl i (fun x => { x with st := .idle, run := {}, mis1 := none, mis2 := none }) s
    | some k =>
      let s1 := modLl i (fun x => { x with st := if (laneOf s k).cmpFault then .failed 1 else .first, run := {}, mis1 := none, mis2 := none }) s
      if slip then slipLl i s1 else s1) { s with cyc := { s.cyc with slipped := false } }

/-- The matching cause bit of a mismatch field (R70). -/
def misCause (field : Nat) : List Nat := match field with | 5 => [2] | 6 => [3] | 7 => [1] | _ => []

/-- A rerun is counted against the lane; the third within 10,000 cycles makes it suspect (R70, R71). -/
def chargeRerun (k : Nat) (s : State) : State :=
  let l := laneOf s k
  let rs := s.cyc.num :: l.reruns.filter fun n => s.cyc.num < n + 10000
  let s1 := modLane k (fun l => { l with reruns := rs }) s
  if rs.length < 3 || l.suspect then s1
  else postEv 0x0409 k (leBytes 1 (min 255 rs.length)) (laneEvt 13 (modLane k (fun l => { l with suspect := true }) s1))

/-- A mismatch in the run of logical lane i (R35, R36, R70): a first run is followed by a rerun, a rerun by none. -/
def llMismatch (i : Nat) (m : Mis) (s : State) : State :=
  let x := llOf s i
  match x.lane with
  | none => s
  | some k =>
    let rerun := x.st == .rerun
    if x.st != .first && !rerun then s
    else
      let s1 := { s with lane := { s.lane with misPl := k, misLl := i, misRerun := rerun, misField := m.field % 8, misBlock := m.block % 16384, misNode := m.node % 64 } }
      let s2 := (misCause m.field).foldl (fun s b => laneEvt b s) (laneEvt 0 s1)
      if rerun then modLl i (fun x => { x with st := .failed 0, mis2 := some m, run := {} }) s2
      else
        let s3 := modLl i (fun x => { x with st := .rerun, mis1 := some m, run := {} }) (cycEvt 0 s2)
        let s4 := { s3 with cyc := { s3.cyc with rerunCnt := satUp s3.cyc.rerunCnt } }
        chargeRerun k (postEv 0x0301 i (leBytes 2 m.block ++ leBytes 1 m.node ++ leBytes 1 m.field) s4)

/-- `LANE_MISMATCH`: the comparator finds a mismatch in the run of logical lane i (LLO: 4). -/
def execLaneMismatch (i : Fin 5) (m : Mis) (s : State) : Host.Outcome State Fault Refusal := .next (llMismatch i.val m s)

/-- A finding of a run reported by its store (R62, R65, R456): counts, `MEM_LAST` and the event; a bad delay entry sets
`LANE_EVT.DELAY_FAULT`. A word that escapes the code is seen by nobody but the comparison. -/
def reportHit (h : Hit) (s : State) : State :=
  let s1 := if 0x38 ≤ h.inst && (h.kind == .uncorrectable || h.kind == .address) then laneEvt 3 s else s
  match h.kind with
  | .corrected p => memReport h.inst (.corrected 0 p) h.addr s1
  | .uncorrectable => memReport h.inst .bad h.addr s1
  | .address => memReport h.inst .address h.addr s1
  | .escaped _ | .tag => s1

/-- The run in progress of logical lane i ends, its reads having found `l`: agreed, or the mismatch that the run itself shows (R31, R36);
the first run's length goes into `CYC_RUNMAXi`. -/
def runComplete (i : Nat) (l : List Hit) (s : State) : State :=
  let x := llOf s i
  match x.lane with
  | none => s
  | some k =>
    if x.st != .first && x.st != .rerun then s
    else
      let r := llRun s l i
      let len := 2 * x.graph.slots
      let s0 := modLane k (fun y => { y with delay := r.delay }) ((l.filter fun h => h.met r.mis).foldl (fun s h => reportHit h s) s)
      let s1 := if x.st == .first && i < 4 && r.mis.isNone then modLl i (fun x => { x with runMax := BitVec.ofNat 20 (max x.runMax.toNat len) }) s0 else s0
      match r.mis with
      | some m => llMismatch i m s1
      | none => modLl i (fun x => { x with st := .agreed, run := r }) s1

/-- `RUN_COMPLETE`; `found` is what the reads of the run find that is not clean. -/
def execRunComplete (i : Fin 5) (found : List Hit) (s : State) : Host.Outcome State Fault Refusal := .next (runComplete i.val found s)

/-- A comparator fault of lane k (R69): its logical lane has no agreed result in this cycle, a spare goes to BIST. -/
def cmpFault (k kind bit : Nat) (s : State) : State :=
  let s1 := postEv 0x0405 k (leBytes 1 kind ++ leBytes 1 bit) (laneEvt (4 + kind) s)
  let s2 := modLane k (fun l => { l with cmpFault := true }) s1
  let l := laneOf s k
  if l.role == .spare then laneToBist k s2
  else match l.hosts with
    | some i =>
      let st := (llOf s i).st
      if s.cyc.open_ && (st == .first || st == .rerun || st == .agreed) then modLl i (fun x => { x with st := .failed 1, run := {} }) s2 else s2
    | none => s2

/-- `CHECKER_ERROR` on lane k outside a compare, at the bit position that the comparator shows. -/
def execCheckerError (k : Fin 5) (bit : Fin 89) (s : State) : Host.Outcome State Fault Refusal := .next (cmpFault k.val 1 bit.val s)

/-- The sentinel compare of a lane wake (R67): every lane in `SPARE`, `SAFETY`, `OBSERVER` or `PRISM` presents bit position
(cycle number) mod 89; `missed` are the lanes whose comparator does not flag it. -/
def sentinel (missed : List (Fin 5)) (s : State) : State :=
  let bit := (s.cyc.num + 1) % 89
  (List.range 5).foldl (fun s k =>
    let r := (laneOf s k).role
    if r == .spare || r == .safety || r == .observer || r == .prism then
      let bad := missed.any fun j => j.val == k
      let s1 := { s with lane := { s.lane with sentOk := if bad then s.lane.sentOk &&& ~~~(BitVec.twoPow 5 k) else s.lane.sentOk ||| BitVec.twoPow 5 k } }
      if bad then cmpFault k 0 bit s1 else s1
    else s) s

/-- The comparator faults of a cycle have been judged at its commit point; one found after it counts in the next cycle (R69). -/
def clearCmpFaults (s : State) : State := { s with lane := { s.lane with lanes := s.lane.lanes.map fun l => { l with cmpFault := false } } }

/-! ### Observer duty (R81, R82, R437, R438) -/

/-- Output value of the observer for a cell, or the committed one where it has written none. -/
def observed (s : State) (c : Nat) : Word := (findW (llOf s 4).run.outs c).getD (Mem.read 0 s.cyc.committed c)

/-- The qualification of one cycle, after the commit (R82, R437, R438); `active` says that the active logical lane committed an
agreed result. -/
def qualCount (active : Bool) (s : State) : State :=
  let q := s.lane.qual
  match (llOf s 4).lane with
  | none => s
  | some _ =>
    let agreed := (llOf s 4).st == .agreed
    let put (q : QualBlk) (s : State) : State := { s with lane := { s.lane with qual := q } }
    if !agreed then
      postEv 0x040A q.graph (leBytes 4 s.cyc.num) (put { q with noAgree := q.noAgree + 1, lastOk := false } s)
    else if s.md.mstate != .run || !active then put { q with lastOk := false } s
    else
      let im := q.img.getD {}
      let kindOf (c : Nat) : Option Nat := (im.dif.find? fun d => d.cell == c && d.gid == q.graph).map (·.kind)
      let diff := ((im.own.filter fun e => e.owner == q.graph).map (·.cell)).filter fun c => kindOf c != some 2 && observed s c != Mem.read 0 s.cyc.committed c
      match diff.find? fun c => (kindOf c).isNone with
      | some c => endObserver 4 (put { q with firstDiff := c, counted := q.counted + 1 } s)
      | none =>
        let seen := q.seen ++ diff.filter fun c => kindOf c == some 1 && !(c ∈ q.seen)
        let q1 := { q with counted := q.counted + 1, seen := seen, lastOk := true }
        let all1 := im.dif.all fun d => d.gid != q.graph || d.kind != 1 || d.cell ∈ seen
        if q.state == 1 && q.requested ≤ q1.counted && all1 then
          postEv 0x040B q.graph (leBytes 1 0 ++ leBytes 2 0xFFFF) (put { q1 with state := 2 } s)
        else put q1 s

/-! ### Prism mode (R83 to R85) -/

/-- What a Prism graph runs on: graph 4 on the direct images, graph 5 on the mirror images of the free region, and the cells as they
stood committed before this commit point (R56). -/
def prismEnv (s : State) (g : Nat) : PassEnv :=
  { input := s.cyc.input, committed := s.cyc.prev, region := vget s.lane.regions s.lane.free, owner := g
    own := (s.image.getD {}).own, t0 := s.cyc.lastT0 }

/-- Suppressed writes of a Prism graph in this cycle (R84). -/
def prismBlock (g : Nat) (p : PassSt) (s : State) : State :=
  if p.blocked = 0 then s
  else postEv 0x0408 g (leBytes 2 (p.first.getD 0) ++ leBytes 2 (min 65535 p.blocked)) (laneEvt 12 s)

/-- Both Prism graphs of a cycle: plain storage, host status cells, suppressed writes. -/
def prismCycle (s : State) : State :=
  match laneIn s .prism, s.image with
  | some _, some im =>
    let a := runPrism (prismEnv s 4) false (im.graph 4).nodes
    let b := runPrism (prismEnv s 5) true (im.graph 5).nodes
    let r := (vget s.lane.regions s.lane.free).flip (newest a.priv) (newest b.priv)
    let s1 := { s with lane := { s.lane with regions := vset s.lane.regions s.lane.free r } }
    let s2 := (newest a.outs ++ newest b.outs).foldl (fun s p => commitCell p.1 p.2 s) s1
    prismBlock 5 b (prismBlock 4 a s2)
  | _, _ => s

/-! ### The commit decision (R36 to R40, R73, R479, R539) -/

/-- The state flip of logical lane i. -/
def flipLl (i : Nat) (s : State) : State :=
  let x := llOf s i
  { s with lane := { s.lane with regions := vmod s.lane.regions x.region fun r => r.flip x.run.nextD x.run.nextM } }

/-- Commits the direct values of an agreed run: in `QUIET` output points stay 0 (R23), in `SAFE_HOLD` output points and
cross-link transmit cells (R539). -/
def commitRun (i : Nat) (s : State) : State :=
  let zero (c : Nat) : Bool := match s.md.mstate with
    | .quiet => isOutPoint c
    | .safeHold => isOutPoint c || isXlOut c
    | _ => false
  let s1 := (llOf s i).run.outs.foldl (fun s p => commitCell p.1 (if zero p.1 then 0 else p.2) s) s
  commitZero ((ownedBy i s1).filter zero) s1

/-- Is this cycle's mismatch the one that caused the last hand-over, in the first cycle on the new lane (R72)? -/
def sameMis (s : State) (x : LLane) : Bool :=
  match x.hoMis with
  | some (m, c) => c == s.cyc.num && x.mis1 == some m && x.mis2 == some m
  | none => false

/-- Sets bit i of `LL_SAFE`. -/
def markSafe (i : Nat) (s : State) : State := { s with cyc := { s.cyc with llSafe := s.cyc.llSafe ||| BitVec.twoPow 4 i } }

/-- Cells that are held commit their last committed values again. -/
def commitSame (l : List Nat) (s : State) : State := l.foldl (fun s c => commitCell c (Mem.read 0 s.cyc.committed c) s) s

/-- A logical lane without an agreed result (R36, R40): its outputs are held under allowance 1 or committed 0, and hand-over is
requested; `free` lanes in `SPARE` are left for it. -/
def commitFailed (i k reason free : Nat) (s : State) : State :=
  let x := llOf s i
  let hold := s.cyc.ha.getLsbD i && 0 < free && !x.heldLast && s.md.mstate == .run && !sameMis s x
  let s1 := cycEvt 1 (modLl i (fun x => { x with hoReq := true, heldLast := hold || x.heldLast, run := {} }) s)
  let s2 := { s1 with cyc := { s1.cyc with failCnt := satUp s1.cyc.failCnt } }
  let s3 := postEv 0x0302 i (leBytes 1 k ++ leBytes 1 (b2n hold) ++ leBytes 1 reason) s2
  if hold then commitSame (ownedBy i s3) (cycEvt 4 { s3 with cyc := { s3.cyc with llHeld := s3.cyc.llHeld ||| BitVec.twoPow 4 i } })
  else markSafe i (commitZero (ownedBy i s3) s3)

/-- An agreed result at the commit point: flip and commit, or nothing but zeros in `STARTING` (R479); a write that the lane
does not own commits 0 from now on, without a hand-over (R73). -/
def commitAgreed (i : Nat) (s : State) : State :=
  let x := llOf s i
  if s.md.mstate == .starting then commitZero (ownedBy i s) (modLl i (fun x => { x with heldLast := false }) s)
  else
    let s1 := modLl i (fun x => { x with heldLast := false }) (flipLl i s)
    match x.run.viol with
    | some c =>
      let s2 := if x.ownViol then s1 else postEv 0x0407 i (leBytes 2 c) (laneEvt 11 s1)
      commitZero (ownedBy i s2) (modLl i (fun x => { x with ownViol := true }) s2)
    | none => if x.ownViol then commitZero (ownedBy i s1) s1 else commitRun i s1

/-- The decision for logical safety lane i; `free` spares are left. Answers how many remain. -/
def commitLl (i free : Nat) (s : State) : Nat × State :=
  let x := llOf s i
  match x.lane, x.st with
  | none, _ => (free, commitZero (ownedBy i s) s)
  | some _, .agreed => (free, commitAgreed i s)
  | some k, .failed r => (if sameMis s x then free else free - 1, commitFailed i k r free s)
  | some _, .slipped => (free, markSafe i (commitZero (ownedBy i s) s))
  | some _, _ => (free, commitZero (ownedBy i s) s)

/-- The observer's images flip after an agreed run; its outputs stay in its staging (R81). -/
def commitObserver (s : State) : State := if (llOf s 4).lane.isSome && (llOf s 4).st == .agreed then flipLl 4 s else s

/-- All logical safety lanes in order, then the observer. -/
def commitLls (s : State) : State :=
  clearCmpFaults (commitObserver ((List.range 4).foldl (fun (p : Nat × State) i => commitLl i p.1 p.2)
    ((spares s).length, { s with cyc := { s.cyc with llSafe := 0, llHeld := 0 } })).2)

/-! ### P4: hand-over and rotation (R71, R72, R74, R76, R77) -/

/-- The decision on one hand-over request (R72, R74). -/
def handOver (i : Nat) (s : State) : State :=
  let x := llOf s i
  match x.lane with
  | none => s
  | some old =>
    let s0 := modLl i (fun x => { x with hoReq := false }) s
    if sameMis s x then
      let m := x.mis2.getD {}
      let s1 := laneToSpare old (unplace i (modLl i (fun x => { x with stateFault := true, hoMis := none }) s0))
      postEv 0x0406 i (leBytes 2 m.block ++ leBytes 1 m.node ++ leBytes 1 m.field) (laneEvt 10 s1)
    else
      let s1 := unplace i (modLl i (fun x => { x with hoMis := x.mis2.map fun m => (m, s.cyc.num + 1) }) s0)
      let s2 := match spares s1 with
        | k :: _ => assign i k s1
        | [] => match (llOf s1 4).lane with
          | some k => assign i k (endObserver 2 s1)
          | none => if (laneIn s1 .prism).isSome then endPrism s1 else s1
      let s3 := laneToBist old s2
      let s4 := modLane old (fun l => { l with faults := now s :: l.faults.filter fun t => now s < t + hourTicks 720 }) s3
      let s5 := { s4 with lane := { s4.lane with moved := true } }
      postEv 0x0401 i (leBytes 1 old ++ leBytes 1 ((llOf s5 i).lane.getD 7)) (laneEvt 6 s5)

/-- The lane that the next rotation relieves (R76): a suspect lane first, else the lane in `SAFETY` whose last passed BIST is
oldest. -/
def nextRelieved (s : State) : Option Nat :=
  let c := (List.range 5).filter fun k => (laneOf s k).role == .safety
  match c.find? fun k => (laneOf s k).suspect with
  | some k => some k
  | none => c.foldl (fun acc k => match acc with
      | none => some k
      | some j =>
        let key (k : Nat) : Nat := match (laneOf s k).lastBist with | some t => t + 1 | none => 0
        if key k < key j then some k else some j) none

/-- The rotation becomes due once its period has passed (R76). -/
def rotCheck (s : State) : State :=
  if s.lane.rotPeriodH != 0 && s.lane.rotSince + rotTicks s ≤ now s then { s with lane := { s.lane with rotDue := true } } else s

/-- Lane k enters `UCODE_LOAD` for a version (R80, R443). -/
def laneToLoad (k : Nat) (v : Byte) (again : Bool) (s : State) : State :=
  modLane k (fun l => { l with role := .ucodeLoad, hosts := none, bistRes := 3, cmpFault := false, testEnd := now s + msTicks 35, newUcode := some v, reload := again }) s

/-- A lane that has received its microcode runs the BIST with it (R80); the load takes until the next P4 (notes/assumptions/85.md). -/
def loadsEnd (s : State) : State :=
  (List.range 5).foldl (fun s k => if (laneOf s k).role == .ucodeLoad && (laneOf s k).newUcode.isSome then laneToBist k s else s) s

/-- A rotation: the spare takes the logical lane of `old`, which goes to BIST, or to a microcode load while a roll is in progress
(R77, R80). -/
def rotate (old i k : Nat) (s : State) : State :=
  let s1 := assign i k (unplace i s)
  let l := laneOf s1 old
  let s2 := match s.lane.roll with
    | some v => if v == l.ucodeVer then laneToBist old s1 else laneToLoad old v false s1
    | none => laneToBist old s1
  let s3 := { s2 with lane := { s2.lane with rotDue := false, rotSince := now s, moved := true } }
  postEv 0x0402 i (leBytes 1 old ++ leBytes 1 k) (laneEvt 7 s3)

/-- Rotation in P4: due or for a suspect lane, with a free spare that no logical lane waits for and no hand-over at this boundary (R41, R54,
R71, R76, R77). At the boundary of an entry to `QUIET` that has been announced it waits (R22). -/
def rotateP4 (s : State) : State :=
  match nextRelieved s, spares s with
  | some old, k :: _ =>
    let due := s.lane.rotDue || (laneOf s old).suspect
    match (laneOf s old).hosts with
    | some i =>
      if due && !s.lane.moved && (waiting s).isEmpty && s.md.quietIn != some (s.cyc.num + 1) && s.md.mstate != .starting &&
        !(laneOf s old).cmpFault && (llOf s i).st == .agreed then rotate old i k s else s
    | none => s
  | _, _ => s

/-- Lane work of P4: hand-over requests in order, then the rotation; a rotation that was to take place, for a lane that a hand-over
relieves instead, counts as done (R77). With no lane in `SPARE` it waits (R76). -/
def lanesP4 (s : State) : State :=
  let s0 := rotCheck (loadsEnd s)
  let relieved := nextRelieved s0
  let due := s0.lane.rotDue && !(spares s0).isEmpty
  let s1 := (List.range 4).foldl (fun s i => if (llOf s i).hoReq then handOver i s else s) s0
  let done := due && (match relieved with | some k => (laneOf s0 k).role == .safety && (laneOf s1 k).role == .bist | none => false)
  let s2 := if done then { s1 with lane := { s1.lane with rotDue := false, rotSince := now s } } else s1
  rotateP4 s2

/-- `LANE_ROTATION_DUE`: the period has passed since the last completed rotation (R76). -/
def execLaneRotationDue (s : State) : Host.Outcome State Fault Refusal :=
  .next (rotCheck (advanceTo (s.lane.rotSince + rotTicks s) s))

/-! ### BIST and microcode (R75, R78, R80, R443) -/

/-- `LANE_EVT.BIST_FAIL` with the step that failed. -/
def bistFailed (k step : Nat) (s : State) : State := postEv 0x0403 k (leBytes 1 step) (laneEvt 8 s)

/-- A lane has passed: suspect mark cleared; it is `SPARE`, or retired at its second fault-driven hand-over within 720 h. -/
def bistPassed (k : Nat) (s : State) : State :=
  let s1 := modLane k (fun l => { l with bistRes := 1, suspect := false, lastBist := some (now s) }) s
  if 2 ≤ laneFaults s1 k then retireLane k s1 else laneToSpare k s1

/-- The roll is over once no lane outside `RETIRED` holds another version. -/
def endRoll (s : State) : State :=
  match s.lane.roll with
  | some v => if vall s.lane.lanes (fun l => l.role == .retired || l.ucodeVer == v) then { s with lane := { s.lane with roll := none } } else s
  | none => s

/-- A lane has passed its BIST on received microcode: the version shows in `UCODE_VER` and is recorded (R80); after a reload of the
version it had, the roll stops and the target returns to it (R443, R477). -/
def loadPassed (k : Nat) (v : Byte) (s : State) : State :=
  let again := (laneOf s k).reload
  let s1 := postEv 0x040D k [v] (bistPassed k (modLane k (fun l => { l with ucodeVer := v, newUcode := none, reload := false }) s))
  if again then { s1 with lane := { s1.lane with roll := none }, keep := { s1.keep with targetUcode := v } } else endRoll s1

/-- The end of a lane's test: BIST alone, or on received microcode. A lane that fails on a new version is loaded again with the version it
has, and is retired when it fails on that too (R80, R443). -/
def laneTested (k : Nat) (pass : Bool) (step : Nat) (s : State) : State :=
  let l := laneOf s k
  let fail := bistFailed k step (modLane k (fun l => { l with bistRes := 2, newUcode := none, reload := false }) s)
  if l.role != .bist && l.role != .ucodeLoad then s
  else match l.newUcode with
    | none => if pass then bistPassed k s else retireLane k fail
    | some v =>
      if pass then loadPassed k v s
      else if l.reload then retireLane k fail
      else laneToLoad k l.ucodeVer true fail

/-- The end of a lane's test at shut-down (R487): a failure retires the lane. -/
def laneShutTested (k : Nat) (pass : Bool) (step : Nat) (s : State) : State :=
  if (laneOf s k).role == .retired || !s.md.shutBist then s
  else
    let s1 := { s with md := { s.md with shutLanes := vset s.md.shutLanes k (if pass then .pass else .fail) } }
    let s2 := modLane k (fun l => { l with bistRes := if pass then 1 else 2, lastBist := if pass then some (now s) else l.lastBist }) s1
    if pass then s2 else retireLane k (bistFailed k step s2)

/-- `LANE_BIST_DONE` of lane k; `step` is the part that failed: 0 stores, 1 datapath, 2 comparator. -/
def execLaneBistDone (k : Fin 5) (pass : Bool) (step : Fin 3) (s : State) : Host.Outcome State Fault Refusal :=
  .next (if s.md.mstate == .shuttingDown then laneShutTested k.val pass step.val s else laneTested k.val pass step.val s)

/-- `OBSERVER_TIMEOUT` (R82): 168 h of observer duty without qualification while a rotation is due. -/
def execObserverTimeout (s : State) : Host.Outcome State Fault Refusal :=
  let s1 := rotCheck (advanceTo (s.lane.qual.since + hourTicks 168) s)
  .next (if (llOf s 4).lane.isSome && s.lane.qual.state == 1 && s1.lane.rotDue then endObserver 3 s1 else s1)

/-! ### Registers -/

/-- Role code and fields of `LANE_PLk`. -/
def lanePl (s : State) (k : Nat) : Nat :=
  let l := laneOf s k
  l.role.code + 16 * l.hosts.getD 7 + at1 l.suspect 7 + 256 * l.bistRes + 65536 * l.ucodeVer.toNat + 2 ^ 24 * min 255 (laneFaults s k)

/-- The fifth lane: the lane in `SPARE`, `OBSERVER` or `PRISM`, with `AUX_MODE`. -/
def auxLane (s : State) : Option Nat × Nat :=
  match laneIn s .observer, laneIn s .prism, spares s with
  | some k, _, _ => (some k, 1)
  | none, some k, _ => (some k, 2)
  | none, none, k :: _ => (some k, 0)
  | none, none, [] => (none, 3)

/-- `LANE_MAP`. -/
def laneMap (s : State) : Nat :=
  let p (i : Nat) : Nat := (llOf s i).lane.getD 7
  let (a, m) := auxLane s
  p 0 + 16 * p 1 + 256 * p 2 + 4096 * p 3 + 65536 * a.getD 7 + 2 ^ 19 * m

/-- `LANE_REGION`. -/
def laneRegion (s : State) : Nat :=
  let r (i : Nat) : Nat := (llOf s i).region
  r 0 + 16 * r 1 + 256 * r 2 + 4096 * r 3 + 65536 * s.lane.free

/-- `LANE_ROT`. -/
def laneRot (s : State) : Nat :=
  s.lane.rotPeriodH.toNat + at1 (configured s && (spares s).isEmpty) 8 + at1 s.lane.rotDue 9 + 1024 * (nextRelieved s).getD 7

/-- `LANE_ROT_LEFT`. -/
def laneRotLeft (s : State) : Nat :=
  if s.lane.rotDue then 0 else (s.lane.rotSince + rotTicks s - now s + 15999999) / 16000000

/-- A read of `LANE_MIS` latches `LANE_MIS_LOC` (R11). -/
def readLaneMis (s : State) : Nat × State :=
  (s.lane.misPl + 8 * s.lane.misLl + at1 s.lane.misRerun 6 + 256 * s.lane.misField,
   { s with lane := { s.lane with misLocLatched := BitVec.ofNat 32 (s.lane.misBlock + 16384 * s.lane.misNode) } })

/-- `LANE_MIS_READ`. -/
def execLaneMisRead (s : State) : Host.Outcome State Fault Refusal := answerRead (readLaneMis s)

end Sys2Proof.Machine
end

