-- ==== Sys2Proof/Machine/CfgFile.lean ====
section
/-! DEFINITION. The configuration file and the calibration record (17_configuration_updates R427 to R434): their parts, the
checks, and what they set. -/

namespace Sys2Proof.Machine

/-! ### Configuration: reading (R427, R428) -/

/-- Monitor set-up element. -/
structure MonCfg where
  mon : Nat := 0
  kindA : Nat := 0
  selA : Nat := 0
  numA : Int := 0
  denA : Nat := 0
  kindB : Nat := 0
  selB : Nat := 0
  numB : Int := 0
  denB : Nat := 0
  wv : Nat := 1
  wa : Nat := 1
  tst : Nat := 0
  vst : Nat := 0
  dpos : Nat := 0
  dv : Nat := 0
  dvrel : Nat := 0
  tdiv : Nat := 0
  jmax : Nat := 0
  /-- The bytes that must be 0 are. -/
  zeros : Bool := true
deriving DecidableEq, Repr, Inhabited

/-- Node table element with the parameter block it names. -/
structure NodeCfg where
  uid : Nat := 0
  ntype : Nat := 0
  ring : Nat := 0
  slot : Nat := 0
  w : Nat := 0
  filters : List Nat := []
  ofs : Nat := 0
  len : Nat := 0
  params : List Byte := []
  zeros : Bool := true
deriving DecidableEq, Repr, Inhabited

/-- A configuration as the module uses it. -/
structure Cfg where
  flags : Nat := 0
  imageId : Word := 0
  ver : Word := 0
  chk : Word := 0
  /-- Register settings: window, offset, value. -/
  regs : List (Nat × Nat × Nat) := []
  mons : List MonCfg := []
  nodes : List NodeCfg := []
deriving DecidableEq, Repr, Inhabited

/-- Sections of a file as (ID, offset, length): the first `NSEC` entries of a directory at `dir`. -/
def secDir (m : Mem 8) (dir nsec : Nat) : List (Nat × Nat × Nat) :=
  (List.range nsec).map fun i => (imgLe m (dir + 12 * i) 2, imgLe m (dir + 12 * i + 4) 4, imgLe m (dir + 12 * i + 8) 4)

/-- Offset and length of a section; (0, 0) when it is absent. -/
def secOf (secs : List (Nat × Nat × Nat)) (id : Nat) : Nat × Nat := ((secs.find? (·.1 == id)).map (·.2)).getD (0, 0)

/-- Offsets of the elements of a section. -/
def elems (sec : Nat × Nat) (size : Nat) : List Nat := (List.range (sec.2 / size)).map fun i => sec.1 + size * i

/-- Monitor set-up element at an offset. -/
def readMon (m : Mem 8) (o : Nat) : MonCfg :=
  let le := fun a n => imgLe m (o + a) n
  { mon := le 0 1, kindA := le 1 1, selA := le 2 2, numA := toSigned 32 (le 4 4), denA := le 8 2
    kindB := le 10 1, selB := le 12 2, denB := le 14 2, numB := toSigned 32 (le 16 4)
    wv := le 20 1 + 1, wa := le 21 1, tst := le 22 2, vst := le 24 4, dpos := le 28 4, dv := le 32 4, dvrel := le 36 2
    tdiv := le 38 2, jmax := le 40 4, zeros := le 11 1 == 0 && le 44 4 == 0 }

/-- Node table element at an offset, with its parameter block from section 0x0004. -/
def readNode (m : Mem 8) (par : Nat × Nat) (o : Nat) : NodeCfg :=
  let le := fun a n => imgLe m (o + a) n
  { uid := le 0 8, ntype := le 8 2, ring := le 10 1, slot := le 11 1, w := le 12 1, len := le 14 2, ofs := le 16 4
    filters := (List.range 16).map fun i => le (20 + i) 1
    params := Mem.readBytes 0 m (par.1 + le 16 4) (le 14 2)
    zeros := le 13 1 == 0 && le 36 4 == 0 }

/-- The configuration that a file holds. -/
def readCfg (m : Mem 8) : Cfg :=
  let secs := secDir m 0x20 (imgLe m 6 2)
  { flags := imgLe m 0x0C 4, imageId := BitVec.ofNat 32 (imgLe m 0x10 4), ver := BitVec.ofNat 32 (imgLe m 0x14 4)
    chk := BitVec.ofNat 32 (imgLe m 0x18 4)
    regs := (elems (secOf secs 1) 8).map fun o => (imgLe m o 1, imgLe m (o + 2) 2, imgLe m (o + 4) 4)
    mons := (elems (secOf secs 2) 48).map (readMon m)
    nodes := (elems (secOf secs 3) 40).map (readNode m (secOf secs 4)) }

/-- The check word of a configuration file (R430): CRC-32C with `CFG_CHK` taken as 0. -/
def cfgChk (m : Mem 8) : Word :=
  let n := imgLe m 8 4
  crc32c (Mem.readBytes 0 m 0 0x18 ++ [0#8, 0#8, 0#8, 0#8] ++ Mem.readBytes 0 m 0x1C (n - 0x1C))

/-- Structure of a directory of sections: IDs in range and once, offsets multiples of 8 within the file, lengths whole elements,
unused entries 0. -/
def dirOk (m : Mem 8) (dir slots nsec ids first len : Nat) (size : Nat → Nat) : Bool :=
  let secs := secDir m dir nsec
  secs.all (fun s => 1 ≤ s.1 && s.1 ≤ ids && s.2.1 % 8 == 0 && first ≤ s.2.1 && s.2.1 + s.2.2 ≤ len && s.2.2 % size s.1 == 0) &&
  (secs.map (·.1)).Nodup && (List.range nsec).all (fun i => imgLe m (dir + 12 * i + 2) 2 == 0) &&
  (Mem.readBytes 0 m (dir + 12 * nsec) (12 * (slots - nsec))).all (· == 0)

/-- Header and directory of a configuration file (R427). -/
def cfgShape (m : Mem 8) : Bool :=
  let le := imgLe m
  le 0 4 == 0x47464355 && le 4 2 == 1 && 1 ≤ le 6 2 && le 6 2 ≤ 8 && 128 ≤ le 8 4 && le 8 4 ≤ 1044480 && le 0x0C 4 < 2 && le 0x1C 4 == 0 &&
  dirOk m 0x20 8 (le 6 2) 4 128 (le 8 4) (fun id => match id with | 1 => 8 | 2 => 48 | 3 => 40 | _ => 1) &&
  (cfgChk m).toNat == le 0x18 4 &&
  (elems (secOf (secDir m 0x20 (le 6 2)) 1) 8).all (fun o => le (o + 1) 1 == 0)

/-! ### Register settings (R429) -/

/-- Channel and register offset of an offset in window `TMR`. -/
def tmrChan (o : Nat) : Option (Nat × Nat) := if 0x100 ≤ o && o < 0x900 then some ((o - 0x100) / 64, (o - 0x100) % 64) else none

/-- Index of a register in a run of `n` registers from `base`. -/
def regIdx (base n o : Nat) : Option Nat := if base ≤ o && o < base + 4 * n && o % 4 == 0 then some ((o - base) / 4) else none

/-- The "C" fields of a register that a setting may name; none for any other register. -/
def cfgFields (w o : Nat) : Option Nat :=
  match w with
  | 1 => if o = 0 then some 0x3F1F else none
  | 2 => if o = 0x50 then some 0xFF else none
  | 3 => if o = 4 then some 0xFF else none
  | 4 => if (regIdx 0x100 32 o).isSome then some 0x3FFF else if (regIdx 0x500 16 o).isSome then some 0x7FFF else none
  | 5 => if (regIdx 0x100 20 o).isSome then some 0x0FFFFFFF else if (regIdx 0x18 2 o).isSome then some 0xFF else none
  | 6 => if (regIdx 0x18 2 o).isSome then some 0xFFF else none
  | 7 => if o = 0 then some 0x7FF8 else none
  | 8 => if o = 0 then some 0xFFFFFFFF else
      match tmrChan o with
      | some (_, 0x00) => some 0x07FFFFFF
      | some (_, 0x10) | some (_, 0x18) | some (_, 0x20) => some 0xFFFFFFFF
      | some (_, 0x14) | some (_, 0x1C) | some (_, 0x24) => some 0xFFFF
      | _ => none
  | _ => none

/-- What a register takes that no setting names: the defaults that the chapters state, else 0 (R429). -/
def cfgDefault (w o : Nat) : Nat :=
  match w with
  | 1 => if o = 0 then 2 else 0
  | 2 => if o = 0x50 then 24 else 0
  | 3 => if o = 4 then 24 else 0
  | 5 => if (regIdx 0x100 20 o).isSome then 300 * 4 + 125 * 4096 else if (regIdx 0x18 2 o).isSome then 24 else 0
  | 6 => if (regIdx 0x18 2 o).isSome then 2 else 0
  | 7 => if o = 0 then 3 * 512 else 0
  | _ => 0

/-- Value of a register under a configuration. -/
def Cfg.reg (c : Cfg) (w o : Nat) : Nat := ((c.regs.find? fun r => r.1 == w && r.2.1 == o).map (·.2.2)).getD (cfgDefault w o)

/-- Value of an input's, an output's and a test output's register. -/
def Cfg.inp (c : Cfg) (n : Nat) : Nat := c.reg 4 (0x100 + 4 * n)
/-- `TO_SCHk`. -/
def Cfg.to (c : Cfg) (k : Nat) : Nat := c.reg 4 (0x500 + 4 * k)
/-- `OUT_CFGn`. -/
def Cfg.out (c : Cfg) (n : Nat) : Nat := c.reg 5 (0x100 + 4 * n)
/-- `RING_CFGk`. -/
def Cfg.ringCfg (c : Cfg) (k : Nat) : Nat := c.reg 6 (0x18 + 4 * k)
/-- `XL_CFG`. -/
def Cfg.xl (c : Cfg) : Nat := c.reg 7 0
/-- `TMR_CFG` of a channel. -/
def Cfg.tmrCfg (c : Cfg) (n : Nat) : Nat := c.reg 8 (0x100 + 64 * n)
/-- `RUN` period code. -/
def Cfg.tcyc (c : Cfg) : Nat := bits (c.reg 1 0) 2 0
/-- `QTCYC` of a configuration. -/
def Cfg.qtcyc (c : Cfg) : Nat := bits (c.reg 1 0) 4 3

/-- Would this configuration, in force, form a pair (R269)? -/
def Cfg.pair (s : State) (c : Cfg) : Bool := bitOf c.xl 3 && pairUid s != 0

/-- Reserved encodings of the register settings, each judged where its field acts (R429). -/
def cfgRegsOk (pair : Bool) (c : Cfg) : Bool :=
  c.regs.all (fun r => match cfgFields r.1 r.2.1 with | some m => r.2.2 &&& m == r.2.2 | none => false) &&
  c.tcyc ≤ 3 && bits (c.reg 1 0) 4 3 ≤ 1 &&
  (let h (v : Nat) : Bool := 1 ≤ v && v ≤ 168
   h (c.reg 2 0x50) && h (c.reg 3 4) && h (c.reg 5 0x18) && h (c.reg 5 0x1C)) &&
  (List.range 32).all (fun n => let v := c.inp n; bits v 12 8 ≤ 0x11 && (!bitOf v 13 || (1 ≤ bits v 7 0 && bits v 7 0 ≤ 200))) &&
  (List.range 16).all (fun k => let v := c.to k; let w := bits v 9 0
    w == 0 || (200 ≤ w && w ≤ 1000 && 1 ≤ bits v 14 10 && bits v 14 10 ≤ 25)) &&
  (List.range 20).all (fun n => let v := c.out n
    let test := bitOf v 0 && (bitOf v 1 || bitOf v 25)
    (!test || (100 ≤ bits v 11 2 && bits v 11 2 ≤ 1000 && 25 ≤ bits v 24 12 && bits v 24 12 ≤ 7500)) &&
    (!bitOf v 25 || (n < 16 && !pair)) && (!bitOf v 27 || 16 ≤ n)) &&
  (List.range 2).all (fun k => bits (c.ringCfg k) 11 3 ≤ 256) &&
  2 ≤ bits c.xl 12 9 && bits c.xl 12 9 ≤ 8 &&
  c.regs.all (fun r => match r.1, tmrChan r.2.1 with
    | 8, some (n, o) =>
      bitOf (c.tmrCfg n) 26 &&
      (match o with
       | 0x00 => !cfgReserved n (BitVec.ofNat 32 r.2.2 &&& cfgMask)
       | 0x1C => r.2.2 < 2 ^ 15
       | _ => true)
    | _, _ => true)

/-! ### Monitors, nodes, rings -/

/-- Counting inputs that a source uses. -/
def srcCis (kind sel : Nat) : List Nat := match kind with | 1 | 2 => [sel, sel + 1] | 3 => [sel] | _ => []

/-- One source of a monitor (R144, R145). -/
def srcOk (kind sel : Nat) (num : Int) (den : Nat) : Bool :=
  (match kind with
   | 1 => sel % 2 == 0 && sel ≤ 6
   | 2 => sel ≤ 6
   | 3 => sel ≤ 7
   | 4 | 5 => 0x2480 ≤ sel && sel ≤ 0x287F
   | _ => false) && num != 0 && 1 ≤ den

/-- Is a source remote? -/
def srcRemote (kind : Nat) : Bool := kind == 4 || kind == 5

/-- Monitor set-up (R144, R145, R147, R150, R155). -/
def cfgMonsOk (c : Cfg) : Bool :=
  let cis := c.mons.flatMap fun m => srcCis m.kindA m.selA ++ srcCis m.kindB m.selB
  (c.mons.map (·.mon)).Nodup && cis.Nodup &&
  c.mons.all fun m =>
    let long (kind sel : Nat) : Bool := !srcRemote kind || 2 * 2 ^ bits (c.ringCfg ((sel - 0x2480) / 512)) 1 0 ≤ m.wv
    m.zeros && m.mon ≤ 15 && (m.kindA == 1 || m.kindA == 2 || m.kindA == 4) && srcOk m.kindA m.selA m.numA m.denA &&
    (m.kindB == 0 || srcOk m.kindB m.selB m.numB m.denB) && 1 ≤ m.wa && m.wa ≤ 64 && m.tst ≤ 10000 && m.vst < 2 ^ 31 && m.tdiv ≤ 1000 &&
    (!(m.kindA == 4 || m.kindB == 4) || (1 ≤ m.jmax && m.jmax < 2 ^ 23)) && long m.kindA m.selA && long m.kindB m.selB

/-- Node table (R428), with the parameter section's length. -/
def cfgNodesOk (pair : Bool) (par : Nat) (c : Cfg) : Bool :=
  (c.nodes.map fun n => 256 * n.ring + n.slot).Nodup && (c.nodes.map (·.uid)).Nodup &&
  c.nodes.all fun n =>
    n.zeros && n.uid != 0 && n.uid != 2 ^ 64 - 1 && n.ring ≤ 1 && 2 ≤ n.w && n.w ≤ 64 && (!pair || 3 ≤ n.w) && n.len ≤ 1024 &&
    n.ofs % 8 == 0 && n.ofs + n.len ≤ par && n.filters.all (· ≤ 200)

/-- Time on the wire of a schedule frame with so many containers at 1000BASE-T, in ns (R233). -/
def schedWire (cont : Nat) : Nat := 8 * (66 + 8 * cont)

/-- Load of the busiest link direction in a ring period at 1000BASE-T, in ns (R228): with or without a break, one of the two next to the module
carries every input frame of 1.264 µs, the schedule frames, one management frame of its length and one management or discovery response,
and a peer delay request and response of 84 bytes each. -/
def ringLoad (n : Nat) : Nat :=
  1264 * n + ((List.range (schedFrames n)).map fun f => schedWire (min 64 (n - 64 * f))).sum + 2 * 1264 + 2 * 672

/-- Largest delay of a frame at a forwarding node at 1000BASE-T, in ns: the residence, behind a schedule frame that has begun (R228, R243). -/
def hopDelay (n : Nat) : Nat := 250 + schedWire (min 64 n)

/-- Ring periods allowed for a plan (R225), the load of a link direction within 70% of a ring period and the delay per hop within t_HOP (R47, R228);
every time is ten times as long at 100BASE-TX. The peer delay frames' length and the frame that a hop waits for are DEDUCED
(notes/assumptions/101.md). -/
def cfgRingsOk (c : Cfg) : Bool :=
  (List.range 2).all fun k =>
    let n := (c.nodes.filter (·.ring == k)).length
    let rp := bits (c.ringCfg k) 1 0
    let slow := bitOf (c.ringCfg k) 2
    let load := if n = 0 then 0 else ringLoad n * (if slow then 10 else 1)
    hopDelay n ≤ 6000 && (n == 0 || (if slow then (n ≤ 48 && 2 ≤ rp) || (n ≤ 96 && rp == 3) else n ≤ 96 || 1 ≤ rp)) && load * 10 ≤ 7 * 250000 * 2 ^ rp &&
    (!bitOf (c.reg 1 0) (12 + k) || rp == c.tcyc)

/-- Pair rules (R268, R269): no `CLSTOP` for `FAULT` and `SAFE_HOLD`, `DIS_CYC` at least 2 plus the largest allowance of the
lanes that own paired outputs. -/
def cfgPairOk (im : Option Image) (c : Cfg) : Bool :=
  let paired := (List.range 20).filter fun n => bitOf (c.out n) 26
  let ha := (im.getD {}).own.any fun e => e.owner < 4 && bitOf (c.reg 1 0) (8 + e.owner) && paired.any fun n => e.cell == 0x4000 + n
  !bitOf c.xl 5 && !bitOf c.xl 6 && 2 + b2n ha ≤ bits c.xl 12 9

/-- Width and period of every test output, for the assignment of R184. -/
def Cfg.pulses (c : Cfg) : List (Nat × Nat) := (List.range 16).map fun k => (bits (c.to k) 9 0, bits (c.to k) 14 10)

/-! ### The check of a configuration (R29, R323, R340, R431) -/

/-- What a check answers. -/
inductive CfgRes where
  | ok (c : Cfg)
  | bad
  | budget (graph need avail : Nat)
  | mismatch (g : Nat)
deriving DecidableEq, Repr, Inhabited

/-- Bytes of a stream record (R320). -/
def Stream.size (x : Stream) : Nat := (32 + 4 * (x.ranges.map (·.2)).sum + 63) / 64 * 64

/-- Ticks of the `RUN` period in µs. -/
def tcycUs (code : Nat) : Nat := 250 * 2 ^ code

/-- Share of the budget of R323 that a stream takes at a `RUN` period, in bytes per ms, rounded up. -/
def Stream.share (tcyc : Nat) (x : Stream) : Nat := (x.size * 1000 + x.decim * tcycUs tcyc - 1) / (x.decim * tcycUs tcyc)

/-- Bytes per ms that all streams may take (R323). -/
def streamBudget (s : State) : Nat := if s.hp.qspi then 4096 else 65536

/-- Bytes per ms that the open streams take at a period; the first one that goes beyond the budget. -/
def streamsOver (s : State) (tcyc : Nat) : Option (Nat × Nat) :=
  ((List.range 32).foldl (fun (acc : Nat × Option (Nat × Nat)) i =>
    let x := vget s.hp.streams i
    if !x.open_ then acc
    else
      let sum := acc.1 + x.share tcyc
      (sum, acc.2.orElse fun _ => if streamBudget s < sum then some (i, sum) else none)) (0, none)).2

/-- A node known to answer whose declared times are too long (R245). -/
def slowNode (s : State) (c : Cfg) : Option Nat :=
  (c.nodes.find? fun n =>
    (vget s.ring.rings n.ring).found.any fun x => x.uid == n.uid && (100000 < x.tNin || 250000 < x.tNout)).map fun n => 256 * n.ring + n.slot

/-- What a configuration of the right shape is judged by (R29, R340, R431): the hardware, the image checked against first, then any other
image that its period must suit. Rules that compare with an image are judged only where there is one. -/
def judgeCfg (s : State) (m : Mem 8) (im : Option Image) (others : List Image) : CfgRes :=
  let c := readCfg m
  let pair := c.pair s
  let ims := (match im with | some i => [i] | none => []) ++ others
  let par := (secOf (secDir m 0x20 (imgLe m 6 2)) 4).2
  let fore := bitOf c.flags 0
  if !cfgRegsOk pair c || !cfgMonsOk c || !cfgNodesOk pair par c || !cfgRingsOk c || (pair && !cfgPairOk im c) then .bad
  else if (assignPulses c.pulses []).isNone then .bad
  else if fore && noForerun s then .bad
  else if im.any fun i => i.id != c.imageId || bitOf i.flags 0 != fore then .bad
  else if ims.any fun i => i.tcycTgt < c.tcyc then .bad
  else match ims.findSome? fun i => overBudget i c.tcyc with
    | some (.budget g n a) => .budget g n a
    | _ => match streamsOver s c.tcyc with
      | some (i, n) => .budget i n (streamBudget s)
      | none => match slowNode s c with
        | some g => .mismatch g
        | none => .ok c

/-- The check of a configuration file (R29, R340, R427, R431). -/
def checkCfg (s : State) (m : Mem 8) (im : Option Image) (others : List Image) : CfgRes := if cfgShape m then judgeCfg s m im others else .bad

/-! ### Staged timer registers merged into a file (R358) -/

/-- Four bytes written into a byte string. -/
def putAt (l : List Byte) (o : Nat) (b : List Byte) : List Byte := l.take o ++ b ++ l.drop (o + b.length)

/-- Length rounded up to a multiple of 8. -/
def up8 (n : Nat) : Nat := (n + 7) / 8 * 8

/-- Lays out sections one after the other from an offset, each at a multiple of 8. -/
def layoutSecs : Nat → List (Nat × List Byte) → List (Nat × Nat × List Byte)
  | _, [] => []
  | o, (id, b) :: r => (id, up8 o, b) :: layoutSecs (up8 o + b.length) r

/-- Directory entries of laid out sections. -/
def dirBytes (slots : Nat) (l : List (Nat × Nat × List Byte)) : List Byte :=
  padTo (12 * slots) (l.flatMap fun s => leBytes 2 s.1 ++ [0#8, 0#8] ++ leBytes 4 s.2.1 ++ leBytes 4 s.2.2.length)

/-- Section bytes behind a header. -/
def bodyBytes (head : Nat) (l : List (Nat × Nat × List Byte)) : List Byte :=
  l.foldl (fun acc s => padTo (s.2.1 - head) acc ++ s.2.2) []

/-- A configuration file built from its parts. -/
def buildCfg (flags : Nat) (imageId ver : Nat) (secs : List (Nat × List Byte)) : Mem 8 :=
  let l := layoutSecs 128 secs
  let body := bodyBytes 128 l
  let head (chk : Nat) : List Byte :=
    leBytes 4 0x47464355 ++ leBytes 2 1 ++ leBytes 2 secs.length ++ leBytes 4 (128 + body.length) ++ leBytes 4 flags ++ leBytes 4 imageId ++
    leBytes 4 ver ++ leBytes 4 chk ++ leBytes 4 0 ++ dirBytes 8 l
  Mem.ofBytes 0 0 (head (crc32c (head 0 ++ body)).toNat ++ body)

/-- The file with register settings of window `TMR` replaced or added: elements keep their order, a new register comes last. -/
def mergeTmr (m : Mem 8) (ch : List (Nat × Word)) : Mem 8 :=
  if ch.isEmpty then m
  else
    let secs := secDir m 0x20 (imgLe m 6 2)
    let raw := secs.map fun s => (s.1, Mem.readBytes 0 m s.2.1 s.2.2)
    let raw1 := if raw.any (·.1 == 1) then raw else (1, []) :: raw
    let elem (o : Nat) (v : Word) : List Byte := [8#8, 0#8] ++ leBytes 2 o ++ leBytes 4 v.toNat
    let put (l : List Byte) (x : Nat × Word) : List Byte :=
      match (List.range (l.length / 8)).find? fun i => leAt l (8 * i) 1 == 8 && leAt l (8 * i + 2) 2 == x.1 with
      | some i => putAt l (8 * i + 4) (leBytes 4 x.2.toNat)
      | none => l ++ elem x.1 x.2
    buildCfg (imgLe m 0x0C 4) (imgLe m 0x10 4) (imgLe m 0x14 4) (raw1.map fun s => if s.1 = 1 then (1, ch.foldl put s.2) else s)

/-! ### Calibration record (R433, R434) -/

/-- A calibration record as the module uses it. -/
structure Cal where
  /-- Gain correction in ppm, current offset in µA, voltage offset in mV of the 32 inputs. -/
  trims : List (Int × Int × Int) := []
  maps : List (Nat × DrumMap) := []
  overs : List ParamCh := []
deriving DecidableEq, Repr, Inhabited

/-- The record that a copy holds. -/
def readCal (m : Mem 8) : Cal :=
  let secs := secDir m 0x18 (imgLe m 6 2)
  let le := imgLe m
  { trims := (elems (secOf secs 1) 8).map fun o => (toSigned 32 (le o 4), toSigned 16 (le (o + 4) 2), toSigned 16 (le (o + 6) 2))
    maps := (elems (secOf secs 2) 152).map fun o =>
      (le o 1, { puTurn := le (o + 4) 4, ref := toSigned 64 (le (o + 8) 8), lRef := toSigned 32 (le (o + 16) 4)
                 layers := (List.range (le (o + 1) 1)).map fun i => (le (o + 24 + 8 * i) 4, le (o + 28 + 8 * i) 4) })
    overs := (elems (secOf secs 3) 8).map fun o => { graph := le o 1, cell := le (o + 2) 2, value := BitVec.ofNat 32 (le (o + 4) 4) } }

/-- The check word of a record: `CAL_CHK` and the commit number taken as 0. -/
def calChk (m : Mem 8) : Word :=
  crc32c (Mem.readBytes 0 m 0 0x0C ++ List.replicate 12 0#8 ++ Mem.readBytes 0 m 0x18 (imgLe m 8 4 - 0x18))

/-- Raw bytes of a drum map element that must hold zeros or sign bits. -/
def mapZeros (m : Mem 8) (o : Nat) : Bool :=
  let n := imgLe m (o + 1) 1
  imgLe m (o + 2) 2 == 0 && imgLe m (o + 20) 4 == 0 && (Mem.readBytes 0 m (o + 24 + 8 * n) (8 * (16 - n))).all (· == 0)

/-- Ranges of a drum map (R156). -/
def DrumMap.inRange (m : DrumMap) : Bool :=
  1 ≤ m.layers.length && m.layers.length ≤ 16 && 1 ≤ m.puTurn && m.puTurn ≤ 2 ^ 24 && -(2 ^ 47 : Int) ≤ m.ref && m.ref < 2 ^ 47 &&
  m.layers.all fun l => 1 ≤ l.1

/-- Form and ranges of a record (R433). -/
def calShape (m : Mem 8) : Bool :=
  let le := imgLe m
  let secs := secDir m 0x18 (le 6 2)
  let c := readCal m
  le 0 4 == 0x4C414355 && le 4 2 == 1 && 1 ≤ le 6 2 && le 6 2 ≤ 3 && 72 ≤ le 8 4 && le 8 4 ≤ 262144 && (calChk m).toNat == le 0x0C 4 &&
  dirOk m 0x18 4 (le 6 2) 3 72 (le 8 4) (fun id => match id with | 1 => 256 | 2 => 152 | _ => 8) && (secOf secs 1).2 ≤ 256 &&
  c.trims.all (fun t => t.1.natAbs ≤ 20000 && t.2.1.natAbs ≤ 100 && t.2.2.natAbs ≤ 200) &&
  (c.maps.map (·.1)).Nodup &&
  c.maps.all (fun x => x.1 ≤ 15 && x.2.inRange) &&
  (elems (secOf secs 2) 152).all (mapZeros m) &&
  c.overs.length ≤ 4096 && sortedBy (fun o => 65536 * o.graph + o.cell) c.overs &&
  (elems (secOf secs 3) 8).all fun o => le o 1 ≤ 3 && le (o + 1) 1 == 0

/-- A record built from its parts (R434): the trims, the maps where there are any, the overrides where there are any. -/
def buildCal (c : Cal) (commit : Nat) : Mem 8 :=
  let trim (t : Int × Int × Int) : List Byte := leBytes 4 (ofSigned 32 t.1) ++ leBytes 2 (ofSigned 16 t.2.1) ++ leBytes 2 (ofSigned 16 t.2.2)
  let map (x : Nat × DrumMap) : List Byte :=
    padTo 152 (leBytes 1 x.1 ++ leBytes 1 x.2.layers.length ++ [0#8, 0#8] ++ leBytes 4 x.2.puTurn ++ leBytes 8 (ofSigned 64 x.2.ref) ++
      leBytes 4 (ofSigned 32 x.2.lRef) ++ leBytes 4 0 ++ x.2.layers.flatMap fun l => leBytes 4 l.1 ++ leBytes 4 l.2)
  let overs (o : ParamCh) : List Byte := leBytes 1 o.graph ++ [0#8] ++ leBytes 2 o.cell ++ leBytes 4 o.value.toNat
  let secs := [(1, padTo 256 (c.trims.flatMap trim))] ++ (if c.maps.isEmpty then [] else [(2, c.maps.flatMap map)]) ++
    (if c.overs.isEmpty then [] else [(3, c.overs.flatMap overs)])
  let l := layoutSecs 72 secs
  let body := bodyBytes 72 l
  let head (chk cn : Nat) : List Byte :=
    leBytes 4 0x4C414355 ++ leBytes 2 1 ++ leBytes 2 secs.length ++ leBytes 4 (72 + body.length) ++ leBytes 4 chk ++ leBytes 8 cn ++ dirBytes 4 l
  Mem.ofBytes 0 0 (head (crc32c (head 0 0 ++ body)).toNat commit ++ body)

/-- Changes merged into overrides, sorted by graph and cell. -/
def mergeOver (old new : List ParamCh) : List ParamCh :=
  let key (o : ParamCh) : Nat := 65536 * o.graph + o.cell
  let rec ins (x : ParamCh) : List ParamCh → List ParamCh
    | [] => [x]
    | a :: r => if key x = key a then x :: r else if key x < key a then x :: a :: r else a :: ins x r
  new.foldl (fun l x => ins x l) old

/-- Are the overrides of a record in range for an image (R353, R434)? A calibratable parameter cell of its graph, and every node
that interprets one finds it in range. -/
def overOk (im : Image) (l : List ParamCh) : Bool :=
  (l.all fun o => (im.graph o.graph).pars.any fun p => p.cell == o.cell && p.calib) &&
  (List.range 4).all fun g =>
    let mine := l.filter (·.graph == g)
    mine.isEmpty || (im.graph g).nodes.all fun n =>
      paramOk (fun c => ((mine.find? (·.cell == c)).map (·.value)).getD ((im.graph g).initial c)) n

/-! ### Setting the blocks (R430 to R434) -/

/-- Input configuration at an instant: an input that comes into use starts its filter from no band (R176); one that goes out of use, or takes
another source, leaves the conditions of the old one behind (R193). -/
def Inp.config (v t : Nat) (x : Inp) : Inp :=
  let used := bitOf v 13
  let src := BitVec.ofNat 5 (bits v 12 8)
  let y := if src = x.src && used == x.used then x else { (x.resume t).unchecked with srcBad := false, srcOkAt := 0 }
  let z := if used && x.used then y else { y with fband := none, run := none, calOut := x.calOut && used, chBad := x.chBad && used }
  { z with filt := BitVec.ofNat 8 (bits v 7 0), src := src, used := used }

/-- Missing and foreign counts restart (R432). -/
def Inp.restart (x : Inp) : Inp := { x with seenRow := 0, missRow := 0, foreign := 0, cleanRow := 0 }

/-- Inputs without pulses of their own are not checked, so no fault of the check stands (R193); code 0x6 follows the source in force. -/
def settleInputs (s : State) : State :=
  followSources { s with inp := { s.inp with inps := s.inp.inps.map fun x =>
    if x.src.toNat < 16 && (vget s.out.tos x.src.toNat).width != 0 then x else x.unchecked } }

/-- Test output configuration with its assigned place, and the frame from which it holds. -/
def TOut.config (v : Nat) (place : Nat × Nat × Nat × Nat) (since : Nat) (t : TOut) : TOut :=
  let w := bits v 9 0
  let p := if w = 0 then 0 else bits v 14 10
  let t1 := { t with width := BitVec.ofNat 10 w, per := BitVec.ofNat 5 p, res := BitVec.ofNat 5 place.2.1, slot := BitVec.ofNat 4 place.2.2.1, nslot := BitVec.ofNat 2 place.2.2.2 }
  if t1.width = t.width ∧ t1.per = t.per then { t1 with since := if t1 = t then t.since else since } else { t1 with since := since, grace := 2, miss := 0 }

/-- Output configuration; period counts restart with a change of the test settings (R432). -/
def Out.config (v frame : Nat) (o : Out) : Out :=
  let n := { o with used := bitOf v 0, dtEn := bitOf v 1, dtW := BitVec.ofNat 10 (bits v 11 2), dtPer := BitVec.ofNat 13 (bits v 24 12)
                    ltEn := bitOf v 25, paired := bitOf v 26, eco := bitOf v 27 }
  if n = o then o else { n with nextTest := frame + bits v 24 12, nextLight := frame + bits v 24 12 }

/-- A source of a monitor; its position goes on (R432), and with a new kind or input what was measured on the old one is dropped. -/
def Src.config (kind sel : Nat) (num : Int) (den : Nat) (x : Src) : Src :=
  let y := { x with kind := kind, sel := sel, num := num, den := den }
  if kind = x.kind ∧ sel = x.sel then y
  else { y with cnt := x.taken, edges := [], seen := false, last := none, vNum := 0, vDen := 1, quadErr := false, jump := false, lastStep := 0 }

/-- A monitor as its set-up gives it: the session clears its quadrature errors (R146), and one that changes is invalid with cause 3
for `WV` (R432). -/
def Mon.config (m : Option MonCfg) (x : Mon) : Mon :=
  match m with
  | none => { map := x.map }
  | some c =>
    let x := { x with a := { x.a with quadErr := false }, b := { x.b with quadErr := false } }
    let y := { x with used := true, a := x.a.config c.kindA c.selA c.numA c.denA, b := x.b.config c.kindB c.selB c.numB c.denB
                      wv := c.wv, wa := c.wa, tst := c.tst, vst := c.vst, dpos := c.dpos, dv := c.dv, dvrel := c.dvrel, tdiv := c.tdiv
                      jmax := c.jmax }
    if y = x then x else { y with refillPend := true }

/-- A slot of a node table: a changed one is configured anew (R247, R252, R432). -/
def Node.config (c : Option NodeCfg) (n : Node) : Node × Bool :=
  match c with
  | none => (if n.conf then {} else n, false)
  | some c =>
    if n.conf && n.uid == c.uid && n.ntype == c.ntype && n.w == c.w && n.filters == c.filters && n.params == c.params then (n, false)
    else ({ uid := c.uid, ntype := c.ntype, w := c.w, filters := c.filters, params := c.params, conn := 1, addr := n.conf && n.addr && n.uid == c.uid }, true)

/-- Ring k: period, plan and node table. A changed plan makes every connection reintegrate (R432). -/
def ringConfig (k : Nat) (c : Cfg) (s : State) : State :=
  let r := ringOf s k
  let rp := bits (c.ringCfg k) 1 0
  let plan := bitOf (c.ringCfg k) 2
  let new := rp != r.rp || plan != r.plan100
  let upd (s : State) (i : Nat) : State :=
    let g := 256 * k + i
    let (n, ch) := (nodeOf s g).config (c.nodes.find? fun n => n.ring == k && n.slot == i)
    let n1 := if new && n.conn ≥ 4 then { n with conn := 6, ref := none, run := 0, age := 0, cref := none } else n
    let s1 := modNode g (fun _ => n1) s
    if ch then { s1 with ring := { s1.ring with rings := vmod s1.ring.rings k fun r => { r with mgmt := r.mgmt.filter (·.slot != i) } } } else s1
  let changed := (List.range 256).any fun i => ((nodeOf s (256 * k + i)).config (c.nodes.find? fun n => n.ring == k && n.slot == i)).2
  let s1 := (List.range 256).foldl upd (modRing k (fun r => { r with rp := rp, plan100 := plan, todo := r.todo.filter fun i => c.nodes.any fun n => n.ring == k && n.slot == i }) s)
  let link := (vget s.ring.ports (2 * k)).link || (vget s.ring.ports (2 * k + 1)).link
  let any := c.nodes.any (·.ring == k)
  -- a ring without configured nodes is `STOPPED`, its ports powered down (R221); in a running one the changed slots alone are taken through
  -- discovery and configuration (R247, R432)
  let down (p : Port) : Port := { p with link := false, speed := 0, eee := false, lpi := false }
  if !any then
    modPort (2 * k) down (modPort (2 * k + 1) down
      (modRing k (fun r => { r with sched := false, bring := false, bringing := false, disc := none, todo := [], mgmt := [] }) s1))
  else if !(ringOf s1 k).sched then (if link then modRing k (fun r => { r with bring := true, todo := [] }) s1 else s1)
  else if changed && (ringOf s1 k).master then startDisc k s1
  else s1

/-- An owned timer channel: set as by `TMR_SETUP` with arm when `EN` = 1; `CNT` is kept unless the clock, input or edge changes
(R432). A channel that is owned no longer stands unconfigured. -/
def Chan.config (c : Cfg) (n : Nat) (x : Chan) : Chan :=
  let v := BitVec.ofNat 32 (c.tmrCfg n)
  let r (o : Nat) : Nat := c.reg 8 (0x100 + 64 * n + o)
  if !v.getLsbD 26 then (if x.own then { x with cfg := 0, arm := false } else x)
  else
    let cmp := word48 (BitVec.ofNat 16 (r 0x14)) (BitVec.ofNat 32 (r 0x10))
    let pre := word48 (BitVec.ofNat 16 (r 0x1C)) (BitVec.ofNat 32 (r 0x18))
    let act := if r 0x20 = 0 ∧ r 0x24 = 0 then x.act else word48 (BitVec.ofNat 16 (r 0x24)) (BitVec.ofNat 32 (r 0x20))
    if x.cfg = v ∧ c.regs.all (fun s => s.1 != 8 || (match tmrChan s.2.1 with | some (k, o) => k != n || (match o with
        | 0x10 => lo48 x.cmp == BitVec.ofNat 32 s.2.2 | 0x14 => hi48 x.cmp == BitVec.ofNat 16 s.2.2
        | 0x18 => lo48 x.pre == BitVec.ofNat 32 s.2.2 | 0x1C => hi48 x.pre == BitVec.ofNat 16 s.2.2 | _ => true) | none => true)) then x
    else
      let keep := x.own && bits x.cfg.toNat 6 0 == bits v.toNat 6 0
      { x with cfg := v, cmp := cmp, pre := pre, act := act, actHi := act.extractLsb' 32 16, cmpHi := none, preHi := none, cnt := if keep then x.cnt else 0, arm := v.getLsbD 24 }

/-- Ring masters as configured (R277). -/
def setMasters (s : State) : State := (List.range 2).foldl (fun s k => modRing k (fun r => { r with master := ringRole s }) s) s

/-- A configuration takes force (R430, R432). A change of an input's quality that it brings is an event (R192). -/
def applyCfg (c : Cfg) : State → State := withInpEvents <| withOutEvents fun s =>
  let t := now s
  let frame := (toGrid s t + 127999) / 128000
  let places := (assignPulses c.pulses []).getD []
  let cyc := c.reg 1 0
  let xl := c.xl
  let fore := bitOf c.flags 0
  let foreCh := s.nv.inForce.loaded && fore != s.nv.inForce.fore
  let pulseCh := (List.range 16).any (fun k => let o := vget s.out.tos k
      o.width.toNat != bits (c.to k) 9 0 || (o.width != 0 && o.per.toNat != bits (c.to k) 14 10)) ||
    (List.range 32).any fun n => (vget s.inp.inps n).src.toNat != bits (c.inp n) 12 8
  let pairWas := pairMode s
  let roleWas := s.xl.toRole
  let monOf := fun (n : Nat) => c.mons.find? (·.mon == n)
  let s1 : State := { s with
    cyc := { s.cyc with tcyc := c.tcyc, qtcyc := c.qtcyc, ha := BitVec.ofNat 4 (bits cyc 11 8), rlock := BitVec.ofNat 2 (bits cyc 13 12), tcycNext := none, qtcycNext := none },
    lane := { s.lane with rotPeriodH := BitVec.ofNat 8 (c.reg 2 0x50) },
    inp := { s.inp with inps := vmapi (fun n x => let y := x.config (c.inp n) t; if pulseCh then y.restart else y) s.inp.inps },
    out := { s.out with tos := vmapi (fun k t => t.config (c.to k) (lget places k (0, 0, 0, 0)) (fromGrid s (128000 * frame))) s.out.tos
                        outs := vmapi (fun n o => o.config (c.out n) frame) s.out.outs
                        grps := vmapi (fun g x => let h := BitVec.ofNat 8 (c.reg 5 (0x18 + 4 * g)); if h = x.mtPerH then x else { x with mtPerH := h, mtLast := t }) s.out.grps },
    mm := { s.mm with periodH := BitVec.ofNat 8 (c.reg 3 4)
                      units := s.mm.units.map (fun u => match u.hosts with | some n => if (monOf n).isSome then u else { u with role := .spare, hosts := none } | none => u)
                      mons := vmapi (fun n x => let y := x.config (monOf n)
                        if foreCh then { y.emptied with refillPend := true } else y) s.mm.mons
                      -- a shadow goes on with the set-up of its monitor
                      shadowMon := s.mm.shadowMon.map fun p => let y := p.2.config (monOf p.1); (p.1, if foreCh then y.emptied else y) },
    xl := { s.xl with pairCfg := bitOf xl 3, pullup := bitOf xl 4, stopDrv := BitVec.ofNat 3 (bits xl 7 5), stopRcv := bitOf xl 8
                      disCyc := bits xl 12 9, rmRole := bitOf xl 13, toRole := bitOf xl 14 },
    tmr := { s.tmr with chans := vmapi (fun n x => x.config c n) s.tmr.chans },
    nv := { s.nv with inForce := { loaded := true, chk := c.chk, ver := c.ver, imageId := c.imageId, fore := fore } } }
  let link := BitVec.ofNat 32 (c.reg 8 0)
  let s2 := { s1 with tmr := { s1.tmr with link := putBits (ownedMask s1) link s1.tmr.link } }
  let s3 := (List.range 2).foldl (fun s k => ringConfig k c s) s2
  settleInputs (if pairMode s3 != pairWas || s3.xl.toRole != roleWas || !s.nv.inForce.loaded then setMasters (setToMask s3) else s3)

/-- A calibration record takes force (R191, R434): trims, drum maps, and every changed override into the current images. -/
def applyCal (c : Cal) (s : State) : State :=
  let trim := fun (n : Nat) (x : Inp) =>
    let t := lget c.trims n (0, 0, 0)
    if x.gain = t.1 ∧ x.iOfs = t.2.1 ∧ x.vOfs = t.2.2 then x else { x with gain := t.1, iOfs := t.2.1, vOfs := t.2.2, trim := 0 }
  let mon := fun (n : Nat) (m : Mon) =>
    let d := (c.maps.find? (·.1 == n)).map (·.2)
    { m with map := d, paramBad := match d with | some d => !d.inRange | none => false }
  let s1 := { s with inp := { s.inp with inps := vmapi trim s.inp.inps }
                     mm := { s.mm with mons := vmapi mon s.mm.mons, shadowMon := s.mm.shadowMon.map fun p => (p.1, mon p.1 p.2) } }
  let ch := c.overs.filter fun o => !(o ∈ s.nv.overs)
  let s2 := ch.foldl (fun s o =>
    let x := llOf s o.graph
    { s with lane := { s.lane with regions := vmod s.lane.regions x.region fun r => r.override x.swz o.cell o.value } }) s1
  { s2 with nv := { s2.nv with overs := c.overs } }

/-- The copy in force of a pair of copies: the one with the higher commit number, none when both are 0 (R430). -/
def activeCopy (v : Vector NvCopy 2) : Option Nat :=
  let a := (vget v 0).commit
  let b := (vget v 1).commit
  if a = 0 ∧ b = 0 then none else if b ≤ a then some 0 else some 1

/-- The copy that a commit writes. -/
def inactiveCopy (v : Vector NvCopy 2) : Nat := match activeCopy v with | some 0 => 1 | _ => 0

end Sys2Proof.Machine
end

