-- ==== Sys2Proof/Machine/HostPort.lean ====
section
/-! DEFINITION. The host port (12_host_port R300 to R323): BAR0 registers, mailbox rings, completions, events, interrupts, host
request cells, the watchdog and the streams. -/

namespace Sys2Proof.Machine

/-! ### Access (R9, R10, R301 to R303) -/

/-- Mailbox ring r. -/
def mring (s : State) (r : Nat) : MRing := vget s.hp.rings r
/-- A change to mailbox ring r. -/
def modMring (r : Nat) (f : MRing → MRing) (s : State) : State := { s with hp := { s.hp with rings := vmod s.hp.rings r f } }
/-- A change to stream i. -/
def modStream (i : Nat) (f : Stream → Stream) (s : State) : State := { s with hp := { s.hp with streams := vmod s.hp.streams i f } }

/-- Counts a write that R10 discards, or a doorbell to a stopped ring. -/
def countPbe (s : State) : State := { s with hp := { s.hp with pbe := satUp s.hp.pbe } }

/-- A field is written with a reserved encoding: it keeps its value, and an event names the register (R9). -/
def reservedWrite (window offset : Nat) (v : Word) (s : State) : State := postEv 0x0202 window (leBytes 2 offset ++ leBytes 4 v.toNat) s

/-- W1C flags of a register: written ones clear (R6, R7). -/
def w1c (old v : Word) : Word := old &&& ~~~v

/-! ### Interrupts (R304, R314) -/

/-- A vector is raised: its MSI-X message, or pending in the table while masked; in Quad-SPI mode its bit of `HP_IPEND`. -/
def raiseVec (v : Nat) (s : State) : State :=
  if s.hp.qspi then { s with hp := { s.hp with ipend := s.hp.ipend ||| BitVec.twoPow 64 v, irqs := s.hp.irqs + 1, lastVec := some v } }
  else if !s.hp.ien then s
  else if s.hp.fmask || (vget s.hp.msix v).masked then { s with hp := { s.hp with pba := s.hp.pba ||| BitVec.twoPow 64 v } }
  else { s with hp := { s.hp with irqs := s.hp.irqs + 1, lastVec := some v } }

/-- Is `HIRQ#` low (R304)? -/
def hirqLow (s : State) : Bool := s.hp.qspi && s.hp.ien && (s.hp.ipend &&& ~~~s.hp.imask) != 0

/-- Vectors whose mask has gone send their pending message. -/
def sendPending (s : State) : State :=
  (List.range 64).foldl (fun s v =>
    if s.hp.pba.getLsbD v && !s.hp.fmask && !(vget s.hp.msix v).masked && s.hp.ien then
      { s with hp := { s.hp with pba := s.hp.pba &&& ~~~(BitVec.twoPow 64 v), irqs := s.hp.irqs + 1, lastVec := some v } }
    else s) s

/-- The interrupt of ring r: the entries since the last one count from 0 again. -/
def ringIrq (r : Nat) (s : State) : State := raiseVec (mring s r).vec.toNat (modMring r (fun d => { d with sinceIrq := 0 }) s)

/-- `INTERRUPT_COALESCE_TIMEOUT` of completion ring r (R314); without DMA no message can be sent. -/
def coalesceTimeout (r : Nat) (s : State) : State :=
  let d := mring s r
  if d.sinceIrq = 0 || d.coalT = 0 || d.coalCnt = 0 || !d.en || !dmaOn s then s
  else ringIrq r (advanceTo (d.firstAt + 256 * d.coalT.toNat) s)

/-- `INTERRUPT_COALESCE_TIMEOUT`. -/
def execInterruptCoalesceTimeout (r : Fin 64) (s : State) : Host.Outcome State Fault Refusal := .next (coalesceTimeout (64 + r.val) s)

/-! ### Rings (R306, R307) -/

/-- Entries of a ring. -/
def MRing.size (d : MRing) : Nat := 2 ^ d.log2.toNat
/-- Entries in a ring. -/
def MRing.fill (d : MRing) : Nat := (d.tail - d.head).toNat
/-- Is it full? -/
def MRing.full (d : MRing) : Bool := d.size ≤ d.fill

/-- Byte range of a ring. -/
def MRing.span (d : MRing) : Nat × Nat := (d.base.toNat, d.base.toNat + 64 * d.size)

/-- Byte range of a stream's buffer. -/
def Stream.span (x : Stream) : Nat × Nat :=
  (x.buf, x.buf + (if x.pull then 8 + 4 * (x.ranges.map (·.2)).sum else x.size * x.nrec))

/-- Do two byte ranges overlap? -/
def overlap (a b : Nat × Nat) : Bool := a.1 < b.2 && b.1 < a.2

/-- In Quad-SPI mode a ring or buffer lies wholly in the window and overlaps no other (R304). -/
def windowFree (s : State) (ring : Option Nat) (x : Nat × Nat) : Bool :=
  !s.hp.qspi || (x.2 ≤ 0x10000 &&
    ((List.range 128).all fun r => ring == some r || !(mring s r).en || !overlap x (mring s r).span) &&
    ((List.range 32).all fun i => let y := vget s.hp.streams i; !y.open_ || !overlap x y.span))

/-- The enable check of R306. -/
def ringCheck (s : State) (r : Nat) : Bool :=
  let d := mring s r
  let align := if s.hp.qspi then 64 * d.size else 4096
  4 ≤ d.log2.toNat && d.log2.toNat ≤ 12 && d.base.toNat % align == 0 && (64 ≤ r || 64 ≤ d.cpl.toNat) && windowFree s (some r) d.span

/-- The ring becomes active, or `RSTAT.ERR` = 3. -/
def ringEnable (r : Nat) (s : State) : State :=
  if (mring s r).en then s
  else if ringCheck s r then
    modMring r (fun d => { d with en := true, head := 0, tail := 0, err := 0, inflight := 0, lostBefore := false, sinceIrq := 0 }) s
  else modMring r (fun d => { d with err := 3 }) s

/-- A ring stops: the completions of its commands, and those on their way to it, are not written. -/
def ringQuit (r : Nat) (f : MRing → MRing) (s : State) : State :=
  let mine (x : Requester) : Bool := match x with | .ring k => k.val == r | .sideband => false
  let s1 := modMring r (fun d => f { d with en := false }) s
  { s1 with sup := { s1.sup with taken := s1.sup.taken.map fun t => if mine t.src then { t with mute := true } else t },
            hp := { s1.hp with cpls := s1.hp.cpls.filter fun c => c.ring != r && c.src != r } }

/-- `EN` = 0 stops a ring as a host-port reset does (R306, R316). -/
def ringDisable (r : Nat) (s : State) : State := if (mring s r).en then ringQuit r (fun d => { d with head := 0, tail := 0, err := 0 }) s else s

/-- A ring error (R307): code 1 bad doorbell index, 2 DMA error. -/
def ringError (r code : Nat) (s : State) : State :=
  hostEvent 0x0003 (leBytes 1 r ++ leBytes 1 code) (hpEvt 2 (ringQuit r (fun d => { d with err := BitVec.ofNat 3 code }) s))

/-- `RING_ENABLE`: the write of `RCFG.EN` = 1 to a ring set up before. -/
def execRingEnable (r : Fin 128) (s : State) : Host.Outcome State Fault Refusal :=
  .next (if hostServed s then ringEnable r.val s else s)

/-- `RING_DISABLE`: the write of `RCFG.EN` = 0. -/
def execRingDisable (r : Fin 128) (s : State) : Host.Outcome State Fault Refusal :=
  .next (if hostServed s then ringDisable r.val s else s)

/-- A doorbell (R307). -/
def doorbell (r : Nat) (v : Half) (s : State) : State :=
  let d := mring s r
  if !d.en then countPbe s
  else if r < 64 then
    if (v - d.head).toNat ≤ d.size && (v - d.tail).toNat ≤ d.size then modMring r (fun d => { d with tail := v }) s else ringError r 1 s
  else
    if (d.tail - v).toNat ≤ (d.tail - d.head).toNat then modMring r (fun d => { d with head := v }) s else ringError r 1 s

/-- `DOORBELL`. -/
def execDoorbell (r : Fin 128) (v : Half) (s : State) : Host.Outcome State Fault Refusal :=
  .next (if hostServed s then doorbell r.val v s else s)

/-! ### Completions and events posted (R311 to R314) -/

/-- One 64-byte entry goes to ring r: entry, tail, interrupt in this order (R311). `at_` makes it interrupt at once. -/
def postTo (r : Nat) (body : List Byte) (flags : Nat) (at_ : Bool) (s : State) : State :=
  let d := mring s r
  let slot := d.tail.toNat % d.size
  let phase := 1 - d.tail.toNat / d.size % 2
  let e := padTo 63 body ++ leBytes 1 (phase + flags)
  let n := d.sinceIrq + 1
  let s1 := modMring r (fun d => { d with tail := d.tail + 1, sinceIrq := n, firstAt := if d.sinceIrq = 0 then now s else d.firstAt })
    (busWrite (d.base.toNat + 64 * slot) e s)
  if at_ || d.coalCnt.toNat ≤ n then ringIrq r s1 else s1

/-- The 63 bytes of a completion before `PFLAGS` (R311). -/
def Cpl.body (c : Cpl) : List Byte :=
  leBytes 2 c.tag.toNat ++ leBytes 2 c.status.code ++ leBytes 1 c.src ++ [0#8] ++ leBytes 2 c.rlen ++ leBytes 2 c.chead ++ [0#8, 0#8] ++
  padTo 51 c.result

/-- A list without one element. -/
def dropFirst {α : Type} [DecidableEq α] (x : α) : List α → List α
  | [] => []
  | a :: r => if a = x then r else a :: dropFirst x r

/-- Output buffers that waited for DMA are written, oldest first. -/
def flushBuffers (s : State) : State :=
  if !dmaOn s then s
  else { (s.hp.outWait.foldl (fun s p => busWrite p.1 p.2 s) s) with
           hp := { (s.hp.outWait.foldl (fun s p => busWrite p.1 p.2 s) s).hp with outWait := [] } }

/-- `COMPLETION_POST`: the oldest completion whose ring is active and has room is written; one whose write ends in a DMA error
stops its ring (R302, R307, R311, R312). -/
def completionPost (err : Bool) (s0 : State) : State :=
  let s := flushBuffers s0
  if !dmaOn s then s
  else
    match s.hp.cpls.find? fun c => (mring s c.ring).en && !(mring s c.ring).full with
    | none => s
    | some c =>
      let s0 := { s with hp := { s.hp with cpls := dropFirst c s.hp.cpls } }
      let s1 :=
        if err then ringError c.ring 2 (dmaCount s0)
        else postTo c.ring c.body (at1 c.inbuf 2) false s0
      if c.restart then { s1 with md := { s1.md with shutReq := some .restart } } else s1

/-- `COMPLETION_POST`. -/
def execCompletionPost (err : Bool) (s : State) : Host.Outcome State Fault Refusal := .next (completionPost err s)

/-- Ring of an event. -/
def HEvent.to (s : State) (e : HEvent) : Nat := e.ring.getD s.hp.evtRing.toNat

/-- `EVENT_POSTING`: the oldest event goes to its ring (R312, R313): posted only while the ring is active; one that finds it full
is dropped and counted, but a module-state event waits. -/
def eventPosting (s : State) : State :=
  if !dmaOn s then s
  else
    match s.hp.events.find? fun e => !(e.kind == 1 && (mring s (e.to s)).en && (mring s (e.to s)).full) with
    | none => s
    | some e =>
      let r := e.to s
      let d := mring s r
      let s0 := { s with hp := { s.hp with events := dropFirst e s.hp.events } }
      if !d.en then s0
      else if d.full then
        hpEvt 4 (modMring r (fun d => { d with lostBefore := true }) { s0 with hp := { s0.hp with evtLost := satUp s0.hp.evtLost } })
      else
        let b := leBytes 2 0xFFFF ++ leBytes 2 e.kind ++ [0xFF#8, 0#8] ++ leBytes 2 (8 + e.data.length) ++ leBytes 4 0 ++ leBytes 8 e.tbase ++ e.data
        modMring r (fun d => { d with lostBefore := false }) (postTo r b (2 + at1 d.lostBefore 3) (e.kind == 1) s0)

/-- `EVENT_POSTING`. -/
def execEventPosting (s : State) : Host.Outcome State Fault Refusal := .next (eventPosting s)

/-! ### Host request cells and the watchdog (R317, R318) -/

/-- `COMMIT`: the staging window into the commit buffer; ignored between an expiry of the watchdog and its next write. -/
def hrqCommit (s : State) : State :=
  if s.hp.wdogExpired then s
  else
    let sh := vany s.hp.streams fun x => x.open_ && x.pull
    { s with hp := { s.hp with commit := s.hp.stage, commitOld := if s.hp.commitAt = some (now s) then s.hp.commitOld else s.hp.commit, commitAt := some (now s)
                               hrqPending := true, hrqShadowed := if sh then satUp s.hp.hrqShadowed else s.hp.hrqShadowed } }

/-- `COMMIT`. -/
def execCommit (s : State) : Host.Outcome State Fault Refusal := .next (if hostServed s then hrqCommit s else s)

/-- A write to `HP_WDOG`: restarts the watchdog, or turns it off (R317). -/
def wdogWrite (v : Word) (s : State) : State :=
  let t : Half := v.setWidth 16
  let s1 := { s with hp := { s.hp with wdogAt := now s, wdogExpired := false } }
  if 60000 < t.toNat then reservedWrite 0 0x2C v s1 else { s1 with hp := { s1.hp with wdog := t } }

/-- `HP_WDOG_WRITE`. -/
def execHpWdogWrite (v : Word) (s : State) : Host.Outcome State Fault Refusal := .next (if hostServed s then wdogWrite v s else s)

/-- `HOST_WDOG_EXPIRE`: no write to `HP_WDOG` within the timeout. -/
def wdogExpire (s : State) : State :=
  if s.hp.wdog = 0 || s.hp.wdogExpired then s
  else
    let s1 := advanceTo (s.hp.wdogAt + msTicks s.hp.wdog.toNat) s
    let s2 := { s1 with hp := { s1.hp with wdogExpired := true, commit := Vector.replicate 256 0, commitAt := none, hrqPending := false
                                           streams := s1.hp.streams.map fun x => { x with pulled := none } } }
    hostEvent 0x0007 (leBytes 2 s.hp.wdog.toNat) (hpEvt 5 s2)

/-- `HOST_WDOG_EXPIRE`. -/
def execHostWdogExpire (s : State) : Host.Outcome State Fault Refusal := .next (wdogExpire s)

/-- Was the last `COMMIT` made on the edge of this t0 or later? It belongs to the next freeze (R318). -/
def commitLate (s : State) : Bool := match s.hp.commitAt with | some t => s.cyc.lastT0 ≤ t | none => false

/-- Host request cells at a freeze (R317, R318, R322): the commit buffer, but the cells of an open pull stream keep the last
record that was accepted. -/
def hrqCells (s : State) : List (Nat × Word) :=
  let buf := if commitLate s then s.hp.commitOld else s.hp.commit
  let pulls := s.hp.streams.toList.filter fun x => x.open_ && x.pull
  (List.range 256).map fun i =>
    let c := 0x29C0 + i
    match pulls.find? fun x => x.ranges.any fun r => r.1 ≤ c && c < r.1 + r.2 with
    | none => (c, vget buf i)
    | some x =>
      if s.hp.wdogExpired || x.zeroed then (c, 0)
      else match x.pulled, x.ranges with
        | some l, r :: _ => (c, lget l (c - r.1) 0)
        | _, _ => (c, Mem.read (inputDflt c) s.cyc.input c)

/-! ### Streams (R319 to R323) -/

/-- `SSTAT`. -/
def Stream.stat (x : Stream) : Nat := at1 x.open_ 0 + at1 x.pull 1 + at1 x.full 2 + at1 x.err 3

/-- A stream's loss event (R321, R322). -/
def lossEvent (i : Nat) (s : State) : State :=
  let x := vget s.hp.streams i
  if x.sflags.testBit 2 then streamEvent x.sevtRing 0x0004 (leBytes 1 i ++ leBytes 4 x.sprod.toNat ++ leBytes 4 x.slost.toNat) s else s

/-- A stream's event for a record, when it asks for one. -/
def recordEvent (i : Nat) (s : State) : State :=
  let x := vget s.hp.streams i
  if x.sflags.testBit 1 then streamEvent x.sevtRing 0x0004 (leBytes 1 i ++ leBytes 4 x.sprod.toNat ++ leBytes 4 x.slost.toNat) s else s

/-- Module state word of cell 0x2985 (R102). -/
def mstateWord (s : State) : Nat := s.md.mstate.code + at1 s.nv.inForce.fore 3 + 256 * s.md.cause.toNat

/-- Cells of a stream in range order. -/
def Stream.cells (x : Stream) : List Nat := x.ranges.flatMap fun r => (List.range r.2).map (r.1 + ·)

/-- A push record of the present cycle (R320). -/
def pushRecord (s : State) (x : Stream) : List Byte :=
  let val (c : Nat) : Nat := (if isInputCell c then Mem.read (inputDflt c) s.cyc.input c else Mem.read 0 s.cyc.committed c).toNat
  padTo x.size (leBytes 4 x.sprod.toNat ++ leBytes 2 (at1 x.lostBefore 0 + at1 s.cyc.slipped 1) ++ leBytes 2 x.cells.length ++
    leBytes 8 s.cyc.num ++ leBytes 8 s.cyc.lastT0 ++ leBytes 4 (mstateWord s) ++ leBytes 4 0 ++ x.cells.flatMap fun c => leBytes 4 (val c))

/-- `PUSH_RECORD_COMPLETE`: the record stands in the buffer, `SPROD` counts it; while DMA is stopped the record waits. -/
def pushComplete (i : Nat) (s : State) : State :=
  let x := vget s.hp.streams i
  match x.inFlight with
  | none => s
  | some b =>
    if !dmaOn s then s else
    let s1 := busWrite (x.buf + x.size * (x.sprod.toNat % x.nrec)) b s
    recordEvent i (modStream i (fun x => { x with inFlight := none, sprod := x.sprod + 1 }) s1)

/-- `PUSH_RECORD_COMPLETE`. -/
def execPushRecordComplete (i : Fin 32) (s : State) : Host.Outcome State Fault Refusal := .next (pushComplete i.val s)

/-- A record that a push stream owes starts at the end of P3; a full buffer or stopped DMA loses one (R316, R321). -/
def pushStart (i : Nat) (s0 : State) : State :=
  let s := pushComplete i s0
  let x := vget s.hp.streams i
  let lose (overs : Bool) (s : State) : State :=
    lossEvent i (modStream i (fun x => { x with slost := satUp x.slost, lostBefore := true, full := true, scons := if overs then x.scons + 1 else x.scons }) s)
  let start (s : State) : State :=
    modStream i (fun x => { x with inFlight := some (pushRecord s x), lostBefore := false }) s
  if !dmaOn s then lossEvent i (modStream i (fun x => { x with slost := satUp x.slost, lostBefore := true }) s)
  else if (x.sprod - x.scons).toNat = x.nrec then (if x.sflags.testBit 0 then start (lose true s) else lose false s)
  else start (modStream i (fun x => { x with full := false }) s)

/-- Every stream at the end of P3: a push record, or the read of a pull record. -/
def streamsP3 (s : State) : State :=
  (List.range 32).foldl (fun s i =>
    let x := vget s.hp.streams i
    if !x.open_ || x.err || s.cyc.num % x.decim != x.phase then s
    else if x.pull then modStream i (fun x => { x with reading := true }) s
    else pushStart i s) s

/-- `PULL_RECORD_READ`: a pull record has been read before t0 (R317, R322), and `SPROD` counts it when it is accepted; in Quad-SPI mode it stands in the ring window. -/
def pullRead (i : Nat) (ws : List Word) (s : State) : State :=
  let x := vget s.hp.streams i
  if !x.reading || !dmaOn s then s
  else
    let n := x.cells.length
    let l := if s.hp.qspi then (List.range (n + 2)).map fun k => BitVec.ofNat 32 (Mem.readLe 0 s.hp.mem (x.buf + 4 * k) 4) else ws
    let s1 := modStream i (fun x => { x with reading := false }) s
    if lget l 0 0 != lget l (n + 1) 0 then lossEvent i (modStream i (fun x => { x with slost := satUp x.slost }) s1)
    else if s.hp.wdogExpired then s1
    else recordEvent i (modStream i (fun x => { x with pulled := some ((l.drop 1).take n), sprod := x.sprod + 1 }) s1)

/-- `PULL_RECORD_READ`. -/
def execPullRecordRead (i : Fin 32) (ws : List Word) (s : State) : Host.Outcome State Fault Refusal := .next (pullRead i.val ws s)

/-- Pull reads still in progress at t0 are late (R322). -/
def pullsLate (s : State) : State :=
  (List.range 32).foldl (fun s i =>
    let x := vget s.hp.streams i
    if x.open_ && x.reading then lossEvent i (modStream i (fun x => { x with reading := false, slost := satUp x.slost }) s) else s) s

/-- Records accepted have entered the cells. -/
def pullsTaken (s : State) : State := { s with hp := { s.hp with streams := s.hp.streams.map fun x => { x with pulled := none } } }

/-- A write to `SCONS` (R321). -/
def sconsWrite (i : Nat) (v : Word) (s : State) : State :=
  let x := vget s.hp.streams i
  if x.open_ && !x.pull && (x.sprod - v).toNat ≤ x.nrec then modStream i (fun x => { x with scons := v }) s else s

/-- `SCONS_WRITE`. -/
def execSconsWrite (i : Fin 32) (v : Word) (s : State) : Host.Outcome State Fault Refusal := .next (if hostServed s then sconsWrite i.val v s else s)

/-- A stream stops on a DMA error (R321, R322). -/
def streamError (i : Nat) (s : State) : State :=
  let x := vget s.hp.streams i
  if !x.open_ || x.err then s
  else
    let s1 := modStream i (fun x => { x with err := true, inFlight := none, reading := false, pulled := none, zeroed := x.pull, slost := if x.pull then satUp x.slost else x.slost }) s
    let y := vget s1.hp.streams i
    let s2 := hpEvt 3 s1
    let d := leBytes 1 i ++ leBytes 1 y.stat
    if x.sevtRing = 0xFF then hostEvent 0x0008 d s2 else streamEvent x.sevtRing 0x0008 d s2

/-! ### DMA errors, reset, power of the port (R301, R302, R316) -/

/-- `DMA_ERROR`. -/
def dmaError (t : DmaOn) (s : State) : State :=
  let s1 := dmaCount s
  match t with
  | .ring r => if (mring s r.val).en then ringError r.val 2 s1 else s1
  | .stream i => streamError i.val s1
  | .buffer => s1

/-- `DMA_ERROR`. -/
def execDmaError (t : DmaOn) (s : State) : Host.Outcome State Fault Refusal := .next (dmaError t s)

/-- A host-port reset (R316). -/
def hostPortReset (s : State) : State :=
  let s1 := (List.range 128).foldl (fun s r => ringQuit r (fun d => { d with head := 0, tail := 0, err := 0 }) s) s
  { s1 with hp := { s1.hp with streams := s1.hp.streams.map (fun x => { x with open_ := false, inFlight := none, reading := false, pulled := none })
                               msix := Vector.replicate 64 {}, pba := 0, fmask := false, ipend := 0, imask := 0xFFFFFFFFFFFFFFFF#64
                               ien := false, evtRing := 64, wdog := 0, wdogExpired := false
                               commit := Vector.replicate 256 0, commitAt := none, hrqPending := true, evtLost := 0, cpls := [], outWait := [] } }

/-- `HOST_PORT_RESET`: `PERST#`, or a hot reset, link down or return from D3hot. -/
def execHostPortReset (perst : Bool) (s : State) : Host.Outcome State Fault Refusal :=
  let s1 := hostPortReset s
  .next { s1 with hp := { s1.hp with perst := perst || s1.hp.perst, d3hot := false, busMaster := s1.hp.busMaster && !perst } }

/-- `HRST`: ignored in PCI Express mode. -/
def execHrst (s : State) : Host.Outcome State Fault Refusal := .next (if s.hp.qspi && hostServed s then hostPortReset s else s)

/-- `D3HOT_ENTER` (R301). -/
def execD3hotEnter (s : State) : Host.Outcome State Fault Refusal := .next { s with hp := { s.hp with d3hot := !s.hp.qspi } }

/-- `BUS_MASTER_DISABLE` (R316). -/
def execBusMasterDisable (s : State) : Host.Outcome State Fault Refusal := .next { s with hp := { s.hp with busMaster := false } }

/-- `BUS_MASTER_ENABLE` (R316): what was held goes on. -/
def execBusMasterEnable (s : State) : Host.Outcome State Fault Refusal := .next (flushBuffers { s with hp := { s.hp with busMaster := true } })

/-- `PERST_RELEASE` (R302). -/
def execPerstRelease (s : State) : Host.Outcome State Fault Refusal := .next { s with hp := { s.hp with perst := false } }

/-! ### Register writes (R9, R10, R303, R305) -/

/-- A write of `RCFG`: fields other than `EN` only while the ring is stopped; `EN` enables or stops it (R306). -/
def rcfgWrite (r : Nat) (v : Word) (s : State) : State :=
  let n := v.toNat
  let s1 := if (mring s r).en then s
    else modMring r (fun d => { d with log2 := BitVec.ofNat 4 (bits n 4 1), cpl := BitVec.ofNat 7 (bits n 11 5), vec := BitVec.ofNat 6 (bits n 17 12)
                                       coalCnt := BitVec.ofNat 8 (bits n 25 18), coalT := BitVec.ofNat 6 (bits n 31 26) }) s
  if v.getLsbD 0 then ringEnable r s1 else ringDisable r s1

/-- A write to a word of BAR0. -/
def bar0Write (o : Nat) (v : Word) (s : State) : State :=
  if o = 0x0C then
    let ring := bits v.toNat 7 1
    let s1 := { s with hp := { s.hp with ien := v.getLsbD 0, evtRing := if 64 ≤ ring then BitVec.ofNat 7 ring else s.hp.evtRing } }
    let s2 := sendPending s1
    if ring < 64 then reservedWrite 0 o v s2 else s2
  else if o = 0x10 then { s with hp := { s.hp with evt := w1c s.hp.evt v } }
  else if o = 0x14 then (if s.hp.qspi && v.getLsbD 0 then hostPortReset s else s)
  else if o = 0x18 then (if s.hp.qspi then { s with hp := { s.hp with ipend := s.hp.ipend &&& ~~~(v.setWidth 64) } } else s)
  else if o = 0x1C then (if s.hp.qspi then { s with hp := { s.hp with ipend := s.hp.ipend &&& ~~~(v.setWidth 64 <<< 32) } } else s)
  else if o = 0x20 then (if s.hp.qspi then { s with hp := { s.hp with imask := s.hp.imask.extractLsb' 32 32 ++ v } } else s)
  else if o = 0x24 then (if s.hp.qspi then { s with hp := { s.hp with imask := v ++ s.hp.imask.extractLsb' 0 32 } } else s)
  else if o = 0x2C then wdogWrite v s
  else if o = 0x40 then (if v.getLsbD 0 then hrqCommit s else s)
  else if 0x400 ≤ o && o < 0x800 then { s with hp := { s.hp with stage := vset s.hp.stage ((o - 0x400) / 4) v } }
  else if 0x1000 ≤ o && o < 0x2000 then
    let r := (o - 0x1000) / 32
    match (o - 0x1000) % 32 with
    | 0 => if (mring s r).en then s else modMring r (fun d => { d with base := d.base.extractLsb' 32 32 ++ v }) s
    | 4 => if (mring s r).en || s.hp.qspi then s else modMring r (fun d => { d with base := v ++ d.base.extractLsb' 0 32 }) s
    | 8 => rcfgWrite r v s
    | _ => s
  else if 0x2000 ≤ o && o < 0x2200 then doorbell ((o - 0x2000) / 4) (v.setWidth 16) s
  else if 0x3000 ≤ o && o < 0x3200 && (o - 0x3000) % 16 == 8 then sconsWrite ((o - 0x3000) / 16) v s
  else s

/-- A write to a word of the MSI-X table. -/
def msixWrite (o : Nat) (v : Word) (s : State) : State :=
  if 0x400 ≤ o then s
  else
    let f := fun (e : Msix) => match o % 16 with
      | 0 => { e with addrLo := v }
      | 4 => { e with addrHi := v }
      | 8 => { e with data := v }
      | _ => { e with masked := v.getLsbD 0 }
    sendPending { s with hp := { s.hp with msix := vmod s.hp.msix (o / 16) f } }

/-- Address of word k of a Quad-SPI transaction: it wraps within its 64 KiB half (R303). -/
def spiAddr (a k : Nat) : Nat := a / 65536 * 65536 + (a + 4 * k) % 65536

/-- One whole word that the Quad-SPI host writes: the BAR0 map, or the ring window where address bit 16 is set. -/
def spiWord (a : Nat) (v : Word) (s : State) : State :=
  if a < 0x10000 then bar0Write a v s else busWrite (a - 0x10000) (leBytes 4 v.toNat) s

/-- A Quad-SPI transaction (R303): any instruction but 0xB2 writes nothing, and so does one with an address bit above 16; a word that the
transaction ends within is discarded and counted, and so is a transaction at an address that is no multiple of 4 (R10). -/
def spiTransfer (op : Byte) (a : Nat) (ws : List Word) (whole : Bool) (s : State) : State :=
  if op != 0xB2#8 || 0x20000 ≤ a then s
  else if a % 4 != 0 then countPbe s
  else
    let n := if whole then ws.length else ws.length - 1
    let s1 := (List.range n).foldl (fun s k => spiWord (spiAddr a k) (lget ws k 0) s) s
    if whole then s1 else countPbe s1

/-- `REGISTER_WRITE`: a 32-bit write of the host with its byte enables (R10); in Quad-SPI mode a transaction, whose last word the byte
enables belong to. -/
def registerWrite (a : HostAddr) (be : BitVec 4) (v : Word) (s : State) : State :=
  if !hostServed s then s
  else match a with
  | .bar0 o => if s.hp.qspi then s else if be != 15 || o % 4 != 0 then countPbe s else if 0x10000 ≤ o then s else bar0Write o v s
  | .spi op o more => if s.hp.qspi then spiTransfer op o (v :: more) (be == 15) s else s
  | .bar2 o => if s.hp.qspi then s else if be != 15 || o % 4 != 0 then countPbe s else msixWrite o v s
  | .functionMask => if s.hp.qspi then s else sendPending { s with hp := { s.hp with fmask := v.getLsbD 0 } }

/-- `REGISTER_WRITE`. -/
def execRegisterWrite (a : HostAddr) (be : BitVec 4) (v : Word) (s : State) : Host.Outcome State Fault Refusal := .next (registerWrite a be v s)

/-! ### What the host reads (R6, R8, R10, R301, R303, R305) -/

/-- A word of a ring descriptor. -/
def descWord (d : MRing) (cmd : Bool) (o : Nat) : Nat :=
  match o with
  | 0x00 => d.base.toNat % 2 ^ 32
  | 0x04 => d.base.toNat / 2 ^ 32
  | 0x08 => at1 d.en 0 + 2 * d.log2.toNat + 32 * d.cpl.toNat + 4096 * d.vec.toNat + 2 ^ 18 * d.coalCnt.toNat + 2 ^ 26 * d.coalT.toNat
  | 0x0C => d.head.toNat
  | 0x10 => d.tail.toNat
  | 0x14 => at1 d.en 0 + 2 * d.err.toNat + (if cmd then 256 * d.inflight.toNat else 0)
  | _ => 0

/-- A word of a stream's status. -/
def streamWord (x : Stream) (o : Nat) : Nat :=
  match o with | 0x0 => x.stat | 0x4 => x.sprod.toNat | 0x8 => if x.pull then 0 else x.scons.toNat | _ => x.slost.toNat

/-- The word that a read of a BAR0 offset returns (R305): write-only registers, reserved fields and empty offsets read 0 (R6, R8, R10). No
register of BAR0 has access RL, so a read changes nothing. -/
def bar0Read (s : State) (o : Nat) : Nat :=
  let h := s.hp
  if o = 0x00 then 0x4800 + 65536 * h.rev.toNat
  else if o = 0x04 then s.sup.ver.toNat + at1 s.sup.bank 16
  else if o = 0x08 then s.md.mstate.code + 8 * s.md.cause.toNat + 2048 * s.sup.sup.code + at1 h.qspi 14
  else if o = 0x0C then at1 h.ien 0 + 2 * h.evtRing.toNat
  else if o = 0x10 then h.evt.toNat
  else if o = 0x18 then (if h.qspi then h.ipend.toNat % 2 ^ 32 else 0)
  else if o = 0x1C then (if h.qspi then h.ipend.toNat / 2 ^ 32 else 0)
  else if o = 0x20 then (if h.qspi then h.imask.toNat % 2 ^ 32 else 0)
  else if o = 0x24 then (if h.qspi then h.imask.toNat / 2 ^ 32 else 0)
  else if o = 0x28 then h.pbe.toNat + 65536 * h.dma.toNat
  else if o = 0x2C then h.wdog.toNat
  else if o = 0x30 then h.evtLost.toNat
  else if o = 0x44 then h.hrqTaken.toNat + at1 h.hrqPending 16 + 2 ^ 17 * h.hrqShadowed.toNat
  else if 0x400 ≤ o && o < 0x800 then (vget h.stage ((o - 0x400) / 4)).toNat
  else if 0x1000 ≤ o && o < 0x2000 then let r := (o - 0x1000) / 32; descWord (mring s r) (r < 64) ((o - 0x1000) % 32)
  else if 0x2000 ≤ o && o < 0x2200 then let r := (o - 0x2000) / 4; (if r < 64 then (mring s r).tail else (mring s r).head).toNat
  else if 0x3000 ≤ o && o < 0x3200 then streamWord (vget h.streams ((o - 0x3000) / 16)) ((o - 0x3000) % 16)
  else 0

/-- The word that a read of a BAR2 offset returns (R301): the MSI-X table, the pending bit array at 0x800. -/
def bar2Read (s : State) (o : Nat) : Nat :=
  if o < 0x400 then
    let e := vget s.hp.msix (o / 16)
    (match o % 16 with | 0 => e.addrLo | 4 => e.addrHi | 8 => e.data | _ => BitVec.ofNat 32 (at1 e.masked 0)).toNat
  else if o = 0x800 then s.hp.pba.toNat % 2 ^ 32
  else if o = 0x804 then s.hp.pba.toNat / 2 ^ 32
  else 0

/-- Words that a Quad-SPI read of `n` words transfers (R303); none for another instruction or an address outside the two halves. -/
def spiRead (s : State) (op : Byte) (a n : Nat) : List Word :=
  if op != 0xB1#8 || 0x20000 ≤ a || a % 4 != 0 then []
  else (List.range n).map fun k =>
    let b := spiAddr a k
    BitVec.ofNat 32 (if b < 0x10000 then bar0Read s b else Mem.readLe 0 s.hp.mem (b - 0x10000) 4)

/-- A host read: the word of BAR0 or BAR2, or of a Quad-SPI transaction; none where the port does not serve it (R301, R302). -/
def hostRead (s : State) (a : HostAddr) : Option Word :=
  if !hostServed s then none
  else match a with
  | .bar0 o => if s.hp.qspi then none else some (BitVec.ofNat 32 (bar0Read s o))
  | .bar2 o => if s.hp.qspi then none else some (BitVec.ofNat 32 (bar2Read s o))
  | .spi op o _ => if s.hp.qspi then (spiRead s op o 1).head? else none
  | .functionMask => if s.hp.qspi then none else some (BitVec.ofNat 32 (at1 s.hp.fmask 0))

/-- What the endpoint reports of its identity (R301): device, vendor, subsystem vendor and subsystem IDs, revision, class code. -/
def pciIdentity (s : State) : List Nat :=
  [0x4800, fuseField s 0 79 64, fuseField s 0 95 80, fuseField s 0 111 96, s.hp.rev.toNat, 0x088000]

end Sys2Proof.Machine
end

