-- ==== Sys2Proof/Machine/Boundary.lean ====
section
/-! DEFINITION. What takes effect at a cycle boundary (R15, R335): the scheduled changes of the supervisor's commands, each done
whole at the freeze that begins the cycle, and the causes that an acknowledgement is judged by (R25). -/

namespace Sys2Proof.Machine

/-! ### Causes (R18, R25) -/

/-- Does a recorded cause still exist (R18, R25)? The identity conflict stands until a restart; a hold command does not persist. -/
def causeStands (s : State) (c : Byte) : Bool :=
  if c = 0x11#8 then s.image.isNone
  else if c = 0x12#8 then s.md.cfgBad || carrierDiffers s
  else if c = 0x14#8 then s.xl.stopRcv && s.xl.stopIn
  else if c = 0x15#8 then s.md.idConflict
  else if c = 0x16#8 then vall s.lane.lanes fun l => l.role == .retired
  else false

/-- No cause recorded since the entry to `SAFE_HOLD` still exists (R25). -/
def causesGone (s : State) : Bool := !(s.md.recorded.any (causeStands s))

/-! ### Images and configurations in force -/

/-- The active copies of configuration and calibration: while a commit awaits its boundary, the ones it replaces (R430). -/
def inForceCopy (s : State) (v : Vector NvCopy 2) : NvCopy :=
  match activeCopy v with
  | none => {}
  | some i =>
    let o := vget v (1 - i)
    if s.sess.commitWait && o.commit != 0 then o else vget v i

/-- The active image as the start or a corrected configuration finds it (R93, R475): the image, or the cause. -/
def judgeImage (s : State) : Option Image × Option Byte :=
  match acceptImage (vget s.nv.img s.nv.actImg) (slotHash s) s.cyc.tcyc s.nv.inForce.fore none with
  | .ok im => (some im, none)
  | .bad r _ => (none, some (if r = 0x0D ∨ r = 0x0E then 0x12 else 0x11))
  | .budget _ _ _ => (none, some 0x11)

/-- Does the active configuration pass its check against the image in force and the hardware? -/
def cfgFits (s : State) : Bool :=
  match activeCopy s.nv.cfg with
  | none => false
  | some i => match checkCfg s (vget s.nv.cfg i).file s.image [] with | .ok _ => true | _ => false

/-- Seeds the region of every logical safety lane (R57). -/
def seedAll (s : State) : State :=
  (List.range 4).foldl (fun s i =>
    modLl i (fun x => { x with stateFault := false, ownViol := false, heldLast := false, hoMis := none, hoReq := false }) (seedLl i s)) s

/-- Host status cells that an image owns and that have not been committed under the image before it take their defaults (R90). -/
def newDefaults (old : Option Image) (s : State) : State :=
  let fresh (e : OwnE) : Bool := isHostStat e.cell && (match old with | some o => (o.ownerOf e.cell).isNone | none => true)
  ((s.image.getD {}).own.filter fresh).foldl (fun s e => commitCell e.cell e.dflt s) s

/-- Judges image and configuration anew after a change of either; a configuration that does not fit is cause 0x12. -/
def rejudge (s : State) : State :=
  let s1 := match s.image with
    | some _ => s
    | none =>
      match judgeImage s with
      | (some im, _) => newDefaults none (seedAll { s with image := some im })
      | (none, _) => s
  let bad := !cfgFits s1 || (match s1.image with | some _ => false | none => (judgeImage s1).2 == some 0x12)
  let s2 := { s1 with md := { s1.md with cfgBad := bad } }
  if bad then findCause 0x12 s2 else s2

/-! ### The scheduled changes -/

/-- Completes the command of an act. -/
def BAct.done (a : BAct) (op : Nat) (st : Status) (res : List Byte) (s : State) : State :=
  match a.q with | some q => complete q op st res s | none => s

/-- Completes with the number of the cycle that begins. -/
def BAct.doneNum (a : BAct) (op : Nat) (s : State) : State := a.done op .ok (leBytes 8 s.cyc.num) s

/-- Completes with `WRONG_STATE`. -/
def BAct.wrong (a : BAct) (op : Nat) (s : State) : State := a.done op .wrongState (wrongState s) s

/-- `HOLD_ACK` or `KP_HOLD_ACK` at the boundary (R19, R25). -/
def boundHoldAck (a : BAct) (s : State) : State :=
  if s.md.mstate == .safeHold && causesGone s && s.sup.waitHold.isEmpty then
    a.done 0x0403 .ok [] (endCause6 (setState .run 0 s))
  else a.wrong 0x0403 s

/-- The ranges of a `STREAM_OPEN` entry (R319). -/
def streamRanges (q : Req) : List (Nat × Nat) := (List.range (q.arg 0x1C 1)).map fun i => (q.arg (0x20 + 4 * i) 2, q.arg (0x22 + 4 * i) 2)

/-- The stream that a `STREAM_OPEN` describes. -/
def streamOf (q : Req) : Stream :=
  { open_ := true, pull := q.arg 9 1 == 1, decim := q.arg 0x0A 2, phase := q.arg 0x0C 2, sevtRing := q.arg 0x0E 1, sflags := q.arg 0x0F 1
    buf := q.arg 0x10 8, nrec := q.arg 0x18 4, ranges := streamRanges q }

/-- Cells that a pull stream would share with an open one (R319). -/
def pullShares (s : State) (x : Stream) : Bool :=
  x.pull && vany s.hp.streams fun y => y.open_ && y.pull && x.cells.any fun c => c ∈ y.cells

/-- `STREAM_OPEN` at the boundary (R319, R343); one that another opening of that boundary has overtaken is refused (R335), and so is one
whose buffer a ring or stream has taken since (R304). -/
def boundStreamOpen (a : BAct) (s : State) : State :=
  match a.q with
  | none => s
  | some q =>
    let x := streamOf q
    let i := q.arg 8 1
    if (vget s.hp.streams i).open_ || pullShares s x || (streamsOver (modStream i (fun _ => x) s) s.cyc.tcyc).isSome then a.wrong 0x0300 s
    else if !windowFree s none x.span then a.done 0x0300 .badParameter (leBytes 2 0x10) s
    else a.done 0x0300 .ok (leBytes 4 x.size ++ leBytes 4 (x.share s.cyc.tcyc)) (modStream i (fun _ => x) s)

/-- `STREAM_CLOSE` at the boundary: the last record written before it is complete (R343). -/
def boundStreamClose (a : BAct) (s : State) : State :=
  match a.q with
  | none => s
  | some q =>
    let i := q.arg 8 1
    let s1 := pushComplete i s
    let x := vget s1.hp.streams i
    if !x.open_ then a.wrong 0x0301 s else
    a.done 0x0301 .ok (leBytes 4 x.sprod.toNat ++ leBytes 4 x.slost.toNat)
      (modStream i (fun x => { x with open_ := false, full := false, err := false, reading := false, pulled := none, zeroed := false, inFlight := none }) s1)

/-- Is the source A of a monitor changed, in kind, input or scaling (R432)? -/
def sourceAChanged (c : Cfg) (n : Nat) (m : Mon) : Bool :=
  match c.mons.find? (·.mon == n) with
  | none => false
  | some x => m.used && (x.kindA != m.a.kind || x.selA != m.a.sel || x.numA != m.a.num || x.denA != m.a.den)

/-- The conditions that `SESSION_COMMIT` judges at the boundary (R168, R431, R432). -/
def commitAllowed (c : Cfg) (s : State) : Bool :=
  ((List.range 16).all fun n => let m := vget s.mm.mons n; !sourceAChanged c n m || m.stand) &&
  (bitOf c.flags 0 == s.nv.inForce.fore || allStand s) &&
  (bitOf c.xl 3 == s.xl.pairCfg || s.md.mstate == .safeHold)

/-- Voids the copies that a commit has written and that are not in force yet (R431, R484). -/
def voidCommit (s : State) : State :=
  if !s.sess.commitWait then s
  else
    let void (v : Vector NvCopy 2) : Vector NvCopy 2 := match activeCopy v with | some i => vmod v i fun c => { c with commit := 0 } | none => v
    let newer (v : Vector NvCopy 2) : Bool := (vget v 0).commit != (vget v 1).commit
    { s with nv := { s.nv with cfg := if s.sess.commitCfg && newer s.nv.cfg then void s.nv.cfg else s.nv.cfg
                               cal := void s.nv.cal }
             sess := { s.sess with commitWait := false, commitCfg := false }
             cyc := { s.cyc with tcycNext := none, qtcycNext := none } }

/-- Change-log index of the newest entry of an opcode. -/
def logIndexOf (op : Nat) (s : State) : Nat := ((s.log.entries.filter (·.opcode == op)).map (·.idx)).foldl max 0

/-- Does a commit end the qualification in progress (R440)? -/
def endsQual (s : State) (cfgToo : Bool) (overs : List ParamCh) : Bool :=
  let g := s.lane.qual.graph
  (llOf s 4).lane.isSome && (cfgToo || (overs.filter (·.graph == g)) != (s.nv.overs.filter (·.graph == g)))

/-- `SESSION_COMMIT` at the boundary (R340, R430 to R434, R440): all staged changes take effect together, or nothing. -/
def boundCommit (a : BAct) (s : State) : State :=
  let cfgToo := s.sess.commitCfg
  let c := readCfg (match activeCopy s.nv.cfg with | some i => (vget s.nv.cfg i).file | none => [])
  let cal := readCal (match activeCopy s.nv.cal with | some i => (vget s.nv.cal i).file | none => [])
  let samePeriods := c.tcyc == s.cyc.tcyc && c.qtcyc == s.cyc.qtcyc
  if cfgToo && !(commitAllowed c s && (samePeriods || s.cyc.tcycNext.isSome)) then a.wrong 0x0104 (voidCommit s)
  else
    let s0 := if endsQual s cfgToo cal.overs then endObserver 1 s else s
    let s1 := applyCal cal (if cfgToo then applyCfg c s0 else s0)
    let s2 := rejudge { s1 with sess := { s1.sess with commitWait := false, commitCfg := false, cfg := none, cfgChecked := false, cal := none, params := [], tmr := [] }
                                cyc := { s1.cyc with tcycNext := none, qtcycNext := none } }
    a.done 0x0104 .ok (leBytes 8 s2.cyc.num ++ leBytes 4 s2.nv.inForce.chk.toNat ++ leBytes 4 (logIndexOf 0x0104 s2)) s2

/-- `PRISM_ENTER` at the boundary (R83). -/
def boundPrismEnter (a : BAct) (s : State) : State :=
  match spares s, s.image with
  | k :: _, some im =>
    if s.lane.moved || (llOf s 4).lane.isSome || (laneIn s .prism).isSome then a.wrong 0x0701 s
    else
      let r := Region.seedPrism (im.graph 4).pars (im.graph 5).pars
      let s1 := modLane k (fun l => { l with role := .prism, hosts := none })
        { s with lane := { s.lane with regions := vset s.lane.regions s.lane.free r } }
      a.doneNum 0x0701 s1
  | _, _ => a.wrong 0x0701 s

/-- `PRISM_EXIT` at the boundary (R85). -/
def boundPrismExit (a : BAct) (s : State) : State :=
  if (laneIn s .prism).isSome then a.doneNum 0x0702 (prismDefaults (endPrism s)) else a.wrong 0x0702 s

/-- `LL_RESEED` at the boundary (R72). -/
def boundReseed (a : BAct) (i : Nat) (s : State) : State :=
  if (llOf s i).stateFault then a.doneNum 0x0703 (modLl i (fun x => { x with stateFault := false, hoMis := none }) (seedLl i s))
  else a.wrong 0x0703 s

/-- Have both sources of a monitor stood, |v| ≤ `VST` for `TST` (R155)? -/
def bothStand (m : Mon) : Bool := m.used && m.slow

/-- `MM_REALIGN` at the boundary (R155, R353). -/
def boundRealign (a : BAct) (n : Nat) (s : State) : State :=
  let m := vget s.mm.mons n
  if !bothStand m then a.wrong 0x0904 s
  else
    let s1 := realign n s
    a.done 0x0904 .ok (leBytes 8 (ofSigned 64 ((vget s1.mm.mons n).b.ofs - m.b.ofs))) s1

/-- The free region seeded for an observer (R436): initial values and parameter entries of the new graph, then the migration entries
from the running logical lane's current images. -/
def seedObserver (im : Image) (g : Nat) (s : State) : Region :=
  let old := regionOf s g
  let os := (llOf s g).swz
  let r := Region.seed (im.graph g).pars im.swzO
  (im.mig.filter fun e => e.gid == g && e.kind == 0).foldl (fun r e =>
    (r.poke false e.tgt (old.cur false e.src)).poke true (swizzle im.swzO e.tgt) (old.cur true (swizzle os e.src))) r

/-- `PROG_QUALIFY` at the boundary (R81, R436): LLO on the lowest spare. -/
def boundQualify (a : BAct) (g n : Nat) (s : State) : State :=
  match spares s, s.sess.imgChecked with
  | k :: _, some im =>
    if (llOf s 4).lane.isSome || s.md.mstate != .run then a.wrong 0x0202 s
    else
      let f := s.lane.free
      let s1 := { s with lane := { s.lane with regions := vset s.lane.regions f (seedObserver im g s)
                                               qual := { state := 1, graph := g, requested := n, since := now s, img := some im } } }
      let s2 := modLl 4 (fun _ => { region := f, gid := g, swz := im.swzO, graph := im.graph g }) s1
      a.doneNum 0x0202 (assign 4 k s2)
  | _, _ => a.wrong 0x0202 s

/-- Output cells that graph g owns in the active image and no graph does in the new one (R439). -/
def droppedCells (g : Nat) (old new : Image) : List OwnE := old.own.filter fun e => e.owner == g && (new.ownerOf e.cell).isNone

/-- Safety outputs among the cells that a hand-over drops have been committed 0 for 16 cycles (R439). -/
def dropsOff (g : Nat) (s : State) : Bool :=
  match s.image, s.lane.qual.img with
  | some old, some new => (droppedCells g old new).all fun e => !isOutPoint e.cell || offFor16 s e.cell
  | _, _ => false

/-- A new calibration record without the overrides of g, in the inactive copy, newest (R439). -/
def dropOverrides (g : Nat) (s : State) : State :=
  let cal := readCal (inForceCopy s s.nv.cal).file
  let i := inactiveCopy s.nv.cal
  let n := (inForceCopy s s.nv.cal).commit + 1
  let cal1 := { cal with overs := cal.overs.filter (·.graph != g) }
  { s with nv := { s.nv with cal := vset s.nv.cal i { file := buildCal cal1 n, commit := n }, overs := s.nv.overs.filter (·.graph != g) } }

/-- `PROG_HANDOVER` done in the P4 before cycle k + 1 (R439). -/
def takeOver (g : Nat) (s : State) : State :=
  match (llOf s 4).lane, s.lane.qual.img with
  | some k, some im =>
    let o := llOf s 4
    let x := llOf s g
    let s1 := match x.lane with | some j => laneToSpare j s | none => s
    let old := (s.image.getD {})
    let s2 := modLl g (fun y => { y with lane := some k, region := o.region, gid := g, swz := o.swz, graph := o.graph, ownViol := false
                                         stateFault := false, heldLast := false, hoMis := none }) s1
    let s3 := modLane k (fun l => { l with role := .safety, hosts := some g }) s2
    let s4 := { s3 with lane := { s3.lane with free := x.region, orphan := droppedCells g old im
                                               qual := { s3.lane.qual with state := 0, img := none, lastOk := false } }
                        image := some im, nv := { s3.nv with actImg := 1 - s3.nv.actImg }, sess := { s3.sess with imgChecked := none } }
    newDefaults s.image (dropOverrides g (clearFree (modLl 4 (fun _ => { region := x.region, gid := 4 }) (postEv 0x040C g (leBytes 4 im.ver.toNat) s4))))
  | _, _ => s

/-- `PROG_HANDOVER` at the boundary: done, refused, or waiting for a cycle that meets the conditions, 16 cycles at most (R439). -/
def boundHandover (a : BAct) (g : Nat) (s : State) : Option BAct × State :=
  let q := s.lane.qual
  if (llOf s 4).lane.isNone || q.graph != g || q.state != 2 then (none, a.wrong 0x0204 s)
  else if !q.lastOk then (if a.since + 16 ≤ s.cyc.num then (none, a.wrong 0x0204 s) else (some a, s))
  else if !dropsOff g s then (none, a.wrong 0x0204 s)
  else (none, a.doneNum 0x0204 (takeOver g s))

/-- `PROG_ABORT` at the boundary (R341). -/
def boundAbort (a : BAct) (s : State) : State :=
  if (llOf s 4).lane.isSome then a.done 0x0205 .ok [] (endObserver 1 s) else a.wrong 0x0205 s

/-- `PROG_LOAD` at the boundary (R342): the checked staged image becomes active and every region is seeded. -/
def boundLoad (a : BAct) (s : State) : State :=
  match s.sess.imgChecked with
  | none => a.wrong 0x0206 s
  | some im =>
    if s.md.mstate != .safeHold then a.wrong 0x0206 s
    else
      let s0 := endPrism (if (llOf s 4).lane.isSome then endObserver 1 s else s)
      let gone := ((s0.image.getD {}).own.filter fun e => (im.ownerOf e.cell).isNone)
      let s1 := { s0 with image := some im, nv := { s0.nv with actImg := 1 - s0.nv.actImg }, sess := { s0.sess with imgChecked := none }
                          lane := { s0.lane with orphan := gone } }
      a.doneNum 0x0206 (rejudge (newDefaults s.image (seedAll s1)))

/-- `ADOPT` at the boundary (R252): the node table takes the new UID, and the slot is configured anew. -/
def boundAdopt (a : BAct) (g uid : Nat) (s : State) : State :=
  let k := g / 256
  let i := g % 256
  let f := fun (n : Node) => { uid := uid, ntype := n.ntype, w := n.w, filters := n.filters, params := n.params, conn := 3 : Node }
  let s1 := modRing k (fun r => { r with todo := (r.todo.filter (· != i)) ++ [i] }) (modNode g f s)
  a.done 0x0802 .ok (cidOf s1 k i uid) (postEv 0x0808 g (leBytes 4 uid) (ringEvt 9 s1))

/-- `QUIET_ENTER` at the boundary (R22, R345): completed by the entry, or refused once 16 cycles have passed. -/
def boundQuiet (a : BAct) (s : State) : Option BAct × State :=
  if s.md.mstate == .quiet then (none, a.doneNum 0x0404 { s with xl := { s.xl with quietReq := false } })
  else if s.md.mstate != .run || a.since + 16 ≤ s.cyc.num then (none, a.wrong 0x0404 { s with xl := { s.xl with quietReq := false } })
  else (some a, s)

/-- `QUIET_EXIT` at the boundary (R23, R345). -/
def boundUnquiet (a : BAct) (s : State) : Option BAct × State :=
  match s.md.mstate with
  | .run => (none, a.doneNum 0x0405 s)
  | .quiet => (some a, s)
  | _ => (none, a.wrong 0x0405 s)

/-- May a commit take force at this boundary? The period that it brings must have been announced in the last guard message (R28, R42). -/
def commitDue (s : State) : Bool :=
  match s.cyc.tcycNext with
  | some c => s.cyc.sentNext == if s.md.mstate == .quiet then quietNext s else c
  | none => true

/-- At the commit point, a commit whose conditions are not met is not announced: it is refused at the boundary with the periods as they
are (R42, R431). -/
def judgeCommit (s : State) : State :=
  let c := readCfg (match activeCopy s.nv.cfg with | some i => (vget s.nv.cfg i).file | none => [])
  if s.sess.commitCfg && !commitAllowed c s then { s with cyc := { s.cyc with tcycNext := none, qtcycNext := none } } else s

/-- One scheduled change at the boundary; answers what stays scheduled. -/
def BAct.run (a : BAct) (s : State) : Option BAct × State :=
  match a.kind with
  | .holdAck => (none, boundHoldAck a s)
  | .quietEnter => boundQuiet a s
  | .quietExit => boundUnquiet a s
  | .streamOpen => (none, boundStreamOpen a s)
  | .streamClose => (none, boundStreamClose a s)
  | .commit => if commitDue s then (none, boundCommit a s) else (some a, s)
  | .prismEnter => (none, boundPrismEnter a s)
  | .prismExit => (none, boundPrismExit a s)
  | .reseed i => (none, boundReseed a i s)
  | .realign n => (none, boundRealign a n s)
  | .qualify g n => (none, boundQualify a g n s)
  | .handover g => boundHandover a g s
  | .progAbort => (none, boundAbort a s)
  | .progLoad => (none, boundLoad a s)
  | .adopt g uid => (none, boundAdopt a g uid s)

/-- Every scheduled change in the order of taking (R335). -/
def boundaryActs (s : State) : State :=
  let l := s.sup.acts
  l.foldl (fun s a =>
    let (stay, s1) := a.run s
    match stay with
    | some b => { s1 with sup := { s1.sup with acts := s1.sup.acts ++ [b] } }
    | none => s1) { s with sup := { s.sup with acts := [] } }

/-! ### Conflicts at acceptance (R335) -/

/-- Do two scheduled changes conflict at one boundary? Those of the fifth lane do among themselves; a commit and a new image do with
every change of what they replace; two changes of one logical lane, monitor or slot do. -/
def BKind.clash (a b : BKind) : Bool :=
  let fifth (k : BKind) : Bool := match k with | .prismEnter | .prismExit | .qualify _ _ | .handover _ | .progAbort | .progLoad => true | _ => false
  let table (k : BKind) : Bool := match k with
    | .commit | .prismEnter | .qualify _ _ | .handover _ | .progLoad | .reseed _ | .realign _ | .adopt _ _ => true
    | _ => false
  match a, b with
  | .reseed i, .reseed j => i == j
  | .realign i, .realign j => i == j
  | .adopt g _, .adopt h _ => g == h
  | .holdAck, .holdAck | .quietEnter, .quietEnter | .quietExit, .quietExit => true
  | .commit, k | k, .commit => table k
  | .progLoad, .reseed _ | .reseed _, .progLoad => true
  | .handover g, .reseed i | .reseed i, .handover g => g == i
  | x, y => fifth x && fifth y

/-- Does a change conflict with one that is scheduled already? -/
def clashes (s : State) (k : BKind) : Bool := s.sup.acts.any fun a => a.kind.clash k

end Sys2Proof.Machine
end

