-- ==== Sys2Proof/Machine/Cycle.lean ====
section
/-! DEFINITION. The safety cycle (02_safety_cycle R27 to R46, R540): lane wake, freeze, commit point with the output guard, end of
P3, and the sleep and wake of `QUIET` (19_power_clocks R468 to R470, 11_timer_array R296 to R298). -/

namespace Sys2Proof.Machine

/-! ### The output guard (R42 to R45, R540) -/

/-- The message of the cycle in progress: count, announced period, and the check word over the committed local output bits, the
count and the ownership check word (R42). -/
def guardMsg (s : State) : GuardMsg :=
  let c := BitVec.ofNat 16 s.cyc.num
  let n := BitVec.ofNat 3 (nextPeriod s)
  let sd := crc32c (leBytes 3 (word6 s) ++ leBytes 2 c.toNat ++ leBytes 4 (s.image.getD {}).ownChk.toNat)
  { cnt := c, ncnt := ~~~c, next := n, nnext := ~~~n, sd := sd, sm := ~~~sd }

/-- Do the three complements verify? -/
def GuardMsg.complement (m : GuardMsg) : Bool := m.ncnt == ~~~m.cnt && m.nnext == ~~~m.next && m.sm == ~~~m.sd

/-- Is `NEXT` a period code of R27 that is not reserved? -/
def GuardMsg.nextOk (m : GuardMsg) : Bool := m.next.toNat ≤ 5

/-- Expected interval in SCLK ticks after a message: 0.15 × T + 0.85 × T', rounded to the nearest (R43). -/
def guardInterval (t t' : Nat) : Nat := (15 * periodTicks t + 85 * periodTicks t' + 1600) / 3200

/-- Why the guard in normal judgement does not accept a message that arrives at SCLK count `at_`: the lowest reason (R43). -/
def guardReason (g : GuardBlk) (m : GuardMsg) (at_ : Nat) : Option Nat :=
  if 4 < tickDist (at_ - g.lastAt) (guardInterval g.lastPeriod g.next) then some 0
  else if !m.complement then some 1
  else if m.cnt != g.lastCnt + 1 then some 2
  else if !m.nextOk then some 3
  else none

/-- The guard returns to resynchronisation (R540). -/
def guardLost (s : State) : State :=
  { s with cyc := { s.cyc with guardOk := false, guard := { s.cyc.guard with resync := true, run := 0 } } }

/-- A guard trip with its reason (R43, R45): both masters open, latched. -/
def guardTrip (reason : Nat) (s : State) : State :=
  let s1 := openMasters 1 0 (cycEvt 5 s)
  let s2 := { s1 with cyc := { s1.cyc with guardCnt := satUp s1.cyc.guardCnt } }
  guardLost (postEv 0x0304 0 (leBytes 2 s.cyc.guard.lastCnt.toNat ++ leBytes 1 reason) s2)

/-- A failure in normal judgement: a trip, but none while cause 6 holds (R540). -/
def guardFail (reason : Nat) (s : State) : State := if masterHeld s then guardLost s else guardTrip reason s

/-- The guard accepts a message that arrives now; in resynchronisation T is taken equal to T' (R540). -/
def guardAccept (m : GuardMsg) (s : State) : State :=
  let g := s.cyc.guard
  let g1 := { g with lastCnt := m.cnt, lastPeriod := if g.resync then m.next.toNat else g.next, next := m.next.toNat
                     resync := false, run := if g.resync then 1 else g.run + 1, lastAt := s.time.sclk }
  { s with cyc := { s.cyc with guard := g1, guardOk := true } }

/-- The guard judges a message (R43, R540). -/
def guardJudge (m : GuardMsg) (s : State) : State :=
  let g := s.cyc.guard
  if g.resync then (if m.complement && m.nextOk then guardAccept m s else guardLost s)
  else match guardReason g m s.time.sclk with
    | none => guardAccept m s
    | some r => guardFail r s

/-- The guard closes the master of every group without a latched cause once it has accepted two consecutive messages and the module
state permits it (R44, R197, R481). -/
def closeMasters (s : State) : State :=
  if masterHeld s then s
  else
    let s1 := endCause6 s
    if s1.cyc.guard.run < 2 then s1
    else { s1 with out := { s1.out with grps := s1.out.grps.map fun x => if x.latches.isEmpty then { x with master := true, drive := true, first := 0 } else x } }

/-- `GUARD_TIMEOUT`: no acceptable message 4 SCLK ticks after the expected instant (R43); in resynchronisation it is no trip
(R540). -/
def guardTimeout (s : State) : State :=
  let g := s.cyc.guard
  if g.resync then s
  else
    let due := g.lastAt + guardInterval g.lastPeriod g.next + 4
    guardFail 0 (advance (32 * (due - s.time.sclk) - s.time.phase) s)

/-- `GUARD_TIMEOUT`. -/
def execGuardTimeout (s : State) : Host.Outcome State Fault Refusal := .next (guardTimeout s)

/-! ### Lane wake (R30, R67) -/

/-- `LANE_WAKE` at t0 − 1 µs: the sentinel compare of every lane whose clock runs; `missed` are the lanes that do not flag it. -/
def laneWake (missed : List (Fin 5)) (s : State) : State :=
  if !s.cyc.running then s
  else
    let s1 := advanceTo (s.cyc.nextT0 - 16) s
    if s1.pwr.lclkLock then sentinel missed s1 else s1

/-- `LANE_WAKE`. -/
def execLaneWake (missed : List (Fin 5)) (s : State) : Host.Outcome State Fault Refusal := .next (laneWake missed s)

/-! ### End of start-up (R480 to R482) -/

/-- Longest filter time of the inputs in use, in ticks. -/
def longestFilter (s : State) : Nat := s.inp.inps.toList.foldl (fun m x => if x.used then max m x.tf else m) 0

/-- The conditions that end step 11 (R481). -/
def startReady (s : State) : Bool :=
  s.md.mstate == .starting && s.md.startStep == 11 && 16 ≤ s.md.committedCycles &&
  (!s.md.holdPend.isEmpty || (List.range 4).any fun i => (llOf s i).lane.isSome) &&
  (match s.md.firstT0 with | some f => f + longestFilter s ≤ now s | none => false) &&
  (vall s.out.grps fun x => x.startOk || !x.latches.isEmpty) && 2 ≤ s.cyc.guard.run

/-- The end of start-up at a t0 (R19, R481, R482): `RUN`, as a qualifying partner when the pair's other module runs, or `SAFE_HOLD`. -/
def startupEnd (s : State) : State :=
  if !startReady s then s
  else
    let s1 := { s with md := { s.md with startStep := 12 } }
    if !s1.md.holdPend.isEmpty then enterHold s1
    else
      let qual := pairMode s1 && (match svcOf s1 (partnerMid s1) with | some ws => svcW ws 1 % 8 == 2 | none => false)
      let s2 := setState .run 0 { s1 with md := { s1.md with qualPartner := qual } }
      if qual then takeRoles s2 else endCause6 s2

/-! ### Freeze (R28, R33, R34) -/

/-- Time cells 0x2980 to 0x2985 (R102). -/
def timeCells (s : State) : List (Nat × Word) :=
  let w (n : Nat) : Word := BitVec.ofNat 32 n
  [ (0x2980, w s.cyc.lastT0), (0x2981, w (s.cyc.lastT0 / 2 ^ 32)), (0x2982, w s.cyc.num), (0x2983, w (s.cyc.num / 2 ^ 32)),
    (0x2984, w (periodTicks s.cyc.period)), (0x2985, w (mstateWord s)) ]

/-- Bit n of a word for every channel that has a property. -/
def chanBits (f : Chan → Bool) (v : Vector Chan 32) : Word := BitVec.ofNat 32 ((List.range 32).map fun n => at1 (f (vget v n)) n).sum

/-- Timer channel cells (R299): counts and levels at t0, the events since the previous freeze. -/
def timerCells (acc chans : Vector Chan 32) : List (Nat × Word) :=
  (List.range 32).map (fun n => (0x2990 + n, lo48 (vget chans n).cnt)) ++
  [ (0x29B0, chanBits (·.accMatch) acc), (0x29B1, chanBits (·.accCapt) acc), (0x29B2, chanBits (·.accLate) acc),
    (0x29B3, chanBits (·.out) chans), (0x29B4, chanBits (Chan.clocked chans) chans) ]

/-- Local input, counting input and diagnostic cells 0x2000 to 0x2039. -/
def localCells (s : State) : List (Nat × Word) :=
  inputCells s ++
  (List.range 2).map (fun g => (0x2028 + g, grpCell s g)) ++ (List.range 16).map (fun k => (0x202A + k, toCell s k))

/-- The input image as latched now (R33); `acc` holds the channels' events up to the edge before t0. -/
def frozenImage (acc : Vector Chan 32) (s : State) : Mem 32 :=
  let l := ringCells s.cyc.lastT0 s ++ localCells s ++ monCells s ++ (xlCells s).1 ++ timeCells s ++ timerCells acc s.tmr.chans ++ hrqCells s
  l.foldl (fun m p => Mem.write (inputDflt p.1) m p.1 p.2) []

/-- The TCLK edge of t0: captures on t0 and events of this edge count in the next image (R33, R292). Answers the channels as they
stood before the edge. -/
def t0Edge (t0 : Nat) (s : State) : Vector Chan 32 × State :=
  let s1 := advanceTo (t0 - 1) s
  let acc := s1.tmr.chans
  let s2 := { s1 with tmr := { s1.tmr with chans := acc.map fun c => { c with accMatch := false, accCapt := false, accLate := false } } }
  (acc, tclkEdge { dt := if now s2 < t0 then 1 else 0, t0 := true } s2)

/-- Difference of R284 between the TBASE advance since the last t0 and 32 times the SCLK ticks, with `d` added by a fault. -/
def tbDiff (d : Int) (s : State) : Int :=
  let ticks := 32 * s.time.sclk + s.time.phase
  if s.time.chkValid then ((s.time.tbase : Int) - s.time.chkTbase) - ((ticks : Int) - s.time.chkTicks) + d else d

/-- The TBASE check at a t0 (R284). -/
def tbCheck (d : Int) (s : State) : Bool × State :=
  let x := tbDiff d s
  let bad := 2 < x.natAbs
  let s1 := { s with time := { s.time with chkTbase := s.time.tbase, chkTicks := 32 * s.time.sclk + s.time.phase, chkValid := true, slipNext := false } }
  let s2 := if bad then postEv 0x0305 0 (leBytes 4 (ofSigned 32 x)) { s1 with tmr := { s1.tmr with evt := s1.tmr.evt ||| 1#32 } } else s1
  (bad || s.time.slipNext, s2)

/-- Does any module of the carrier set Quiet exit in the period in progress (R267)? -/
def exitSeen (s : State) : Bool :=
  onCarrier s && (List.range 8).any fun m => match usable s (2 * m + 1) with | some ws => (lget ws 1 0).getLsbD 20 | none => false

/-- Entry to and exit from `QUIET` at the boundary that begins cycle `num` (R19, R22, R23, R267). A `SAFE_HOLD` cause that waits for the
next commit point drops both, and their commands complete with `WRONG_STATE` (R20). -/
def quietStep (s : State) : State :=
  if !s.md.holdPend.isEmpty then
    (if s.md.mstate == .run || s.md.mstate == .quiet then dropRequests (fun k => !k.isQuiet) s else s)
  else match s.md.mstate with
  | .run => if s.md.quietIn == some s.cyc.num then setState .quiet 0 { s with md := { s.md with quietIn := none } } else s
  | .quiet =>
    if s.md.quietOut == some s.cyc.num || exitSeen s then
      setState .run 0 { s with md := { s.md with quietExit := false, quietOut := none } }
    else s
  | _ => s

/-- The new cycle: number, period and the next t0 (R28). -/
def nextCycle (t0 : Nat) (s : State) : State :=
  let code := if s.md.mstate == .quiet then quietCode s else if exitSeen s then s.cyc.tcyc else followed s s.cyc.tcyc
  { s with cyc := { s.cyc with period := code, lastT0 := t0, nextT0 := t0 + periodTicks code, open_ := true }
           md := { s.md with firstT0 := match s.md.firstT0 with | some f => some f | none => some t0 } }

/-- What the boundary changes, before anything is latched (R15). -/
def boundary (s : State) : State :=
  let s1 := startupEnd { s with cyc := { s.cyc with num := s.cyc.num + 1 } }
  let s2 := boundaryActs (placeWaiting (quietStep s1))
  prismDefaults (placeWaiting (applyTrims { s2 with lane := { s2.lane with moved := false } }))

/-- The freeze at t0: boundary, image, start of the runs; `slip` says that the runs cannot start, `d` that TBASE and SCLK differ by
that many ticks, `stop` that another module pulls `CLSTOP` (R33, R39, R268, R284). -/
def freezeAt (slip : Bool) (d : Int) (stop : Bool) (s : State) : State :=
  let t0 := s.cyc.nextT0
  let (acc, s1) := t0Edge t0 s
  let (tb, s2) := tbCheck d s1
  let s3 := pullsLate (xlAtT0 stop (nextCycle t0 (boundary s2)))
  let img := frozenImage acc s3
  let s4 := { s3 with cyc := { s3.cyc with input := img }, xl := { s3.xl with valid := (xlCells s3).2 } }
  let s5 := pullsTaken (ringAfterFreeze (clearStamps s4))
  let s6 := if s5.hp.hrqPending && !commitLate s5 then { s5 with hp := { s5.hp with hrqPending := false, hrqTaken := s5.hp.hrqTaken + 1 } } else s5
  startRuns (slip || tb || !s6.pwr.lclkLock) s6

/-! ### Commit point (R36 to R46) -/

/-- A run still in progress at the commit point is an overrun (R37). -/
def overrun (s : State) (i : Fin 5) : State :=
  let x := llOf s i.val
  if x.st == .first || x.st == .rerun then cycEvt 2 (modLl i.val (fun x => { x with st := .failed 2, run := {} }) s) else s

/-- Every other run has ended: first run and, after a mismatch, rerun. -/
def endRuns (s : State) : State := (List.range 5).foldl (fun s i => runComplete i [] (runComplete i [] s)) s

/-- Has a graph evaluated an owned output point as 1 (R23)? -/
def demandSeen (s : State) : Bool :=
  (List.range 4).any fun i =>
    let x := llOf s i
    x.st == .agreed && !x.ownViol && x.run.viol.isNone && x.run.outs.any fun p => isOutPoint p.1 && p.2.getLsbD 0

/-- Own slots of the period that end before this commit point and were not sent yet (R261). -/
def xlCatchUp (s : State) : State :=
  if s.md.committedCycles = 0 then s
  else
    let sent (svc : Bool) (s : State) : Bool := s.xl.copies.any fun c => c.slot == 2 * s.xl.mid + b2n svc
    let s1 := if sent false s then s else xlSlot false s
    if sent true s1 then s1 else xlSlot true s1

/-- The carrier is to enter `QUIET`: the acting master's request, and every present module in `RUN` and ready (R267). -/
def carrierQuiet (s : State) : Bool :=
  (match svcOf s s.xl.actMaster with | some ws => (svcW ws 1).testBit 19 | none => false) &&
  s.xl.svc.all fun p => svcW p.2 1 % 8 == 2 && (svcW p.2 1).testBit 18

/-- Requests for `QUIET` judged at the commit point of a cycle: on the carrier from the last period's service containers; alone, the
module's own conditions (R22, R267). -/
def quietEntry (s : State) : State :=
  if s.md.mstate != .run then s
  else if onCarrier s then (if carrierQuiet s then { s with md := { s.md with quietIn := some (s.cyc.num + 1) } } else s)
  else
    let (mine, rest) := s.sup.acts.partition fun a => a.kind == .quietEnter
    if mine.isEmpty then s
    else if quietReady s then { s with md := { s.md with quietIn := some (s.cyc.num + 1) } }
    else allWrong (mine.filterMap (·.q)) { s with sup := { s.sup with acts := rest } }

/-- Exits from `QUIET` found in this cycle (R23, R267): the module sets Quiet exit and leaves at the next boundary. -/
def quietLeave (demand : Bool) (s : State) : State :=
  let hold := s.md.mstate == .safeHold && 4 ≤ s.cyc.period
  if s.md.mstate == .quiet && (demand || s.md.quietExit) then
    { s with md := { s.md with quietOut := some (s.cyc.num + 1) }, xl := { s.xl with quietExit := true } }
  else { s with xl := { s.xl with quietExit := hold } }

/-- `SAFE_HOLD` at the commit point (R19); in `SAFE_HOLD` a further `HOLD` is answered here (R344). -/
def holdStep (s : State) : State :=
  match s.md.mstate with
  | .run | .quiet => enterHold s
  | .safeHold =>
    let w := s.sup.waitHold
    w.foldl (fun s q => complete q 0x0402 .ok [] s) { s with sup := { s.sup with waitHold := [] } }
  | _ => s

/-- Cells that a program change left without an owner take their defaults (R439). -/
def orphanStep (s : State) : State :=
  let l := s.lane.orphan
  l.foldl (fun s e => commitCell e.cell e.dflt s) { s with lane := { s.lane with orphan := [] } }

/-- Did the active logical lane of the graph under qualification commit an agreed result (R437)? -/
def qualActive (s : State) : Bool :=
  let i := s.lane.qual.graph
  (llOf s i).st == .agreed && !(s.cyc.llSafe.getLsbD i) && !(s.cyc.llHeld.getLsbD i)

/-- What is committed, by logical lane, with everything that follows from it up to the guard message (R36). -/
def commitOutputs (s : State) : State :=
  let s1 := { s with cyc := { s.cyc with prev := s.cyc.committed } }
  let s3 := orphanStep (commitLls s1)
  let s2 := if s.pwr.lclkLock && !s.cyc.slipped then prismCycle s3 else s3
  qualCount (qualActive s2) (applyOutputs s2)

/-- Is a group master open, or does a logical lane commit no agreed result (`LL_SAFE`): what SAFE shows in `RUN` (R502)? -/
def safeLit (s : State) : Bool := (vany s.out.grps fun x => !x.master) || s.cyc.llSafe != 0

/-- The commit point: runs end, the decision, the guard message as it is sent or as the link delivers it, the next cross-link
period (R36, R42, R43, R46). -/
def commitAtPoint (late : List (Fin 5)) (msg : Option GuardMsg) (s0 : State) : State :=
  let s := advanceTo (s0.cyc.lastT0 + commitTicks s0.cyc.period) (xlCatchUp s0)
  let s1 := endRuns (late.foldl overrun s)
  let demand := demandSeen s1
  let s2 := commitOutputs (holdStep s1)
  let s3 := judgeCommit (quietEntry (quietLeave demand (xlClose s2)))
  let s4 := closeMasters (guardJudge (msg.getD (guardMsg s3)) s3)
  xlOpen { s4 with cyc := { s4.cyc with open_ := false, p3Due := true, commitAt := now s4, sentNext := nextPeriod s3 }
                   md := { s4.md with committedCycles := s4.md.committedCycles + 1
                                      safeSeen := if safeLit s || safeLit s4 then some (now s4) else s4.md.safeSeen } }

/-! ### End of P3 (R30, R32, R297) -/

/-- Host events of timer channels, at most one per channel and cycle (R313). -/
def timerEvents (s : State) : State :=
  (List.range 32).foldl (fun s n =>
    let c := vget s.tmr.chans n
    if c.hevCount = 0 then s
    else
      let s1 := hostEvent 0x0005 (leBytes 1 n ++ leBytes 1 c.hevKind ++ leBytes 2 (min 65535 c.hevCount) ++ leBytes 4 c.hevCnt.toNat) s
      { s1 with tmr := { s1.tmr with chans := vmod s1.tmr.chans n fun c => { c with hevKind := 0, hevCount := 0, hevCnt := 0 } } }) s

/-- Does a monitor with a counting-input source veto TCLK sleep (R169)? -/
def monVeto (s : State) : Bool :=
  !s.nv.inForce.fore && vany s.mm.mons fun m => m.used && !m.stand && ((1 ≤ m.a.kind && m.a.kind ≤ 3) || (1 ≤ m.b.kind && m.b.kind ≤ 3))

/-- Sleep vetoes by bit of `TMR_STAT.VETO` (R296). -/
def vetoes (s : State) : Nat :=
  at1 s.nv.inForce.fore 0 + at1 (ciVeto s) 1 + at1 (monVeto s) 2 + at1 (wakeDue 1024 s) 3

/-- The fast clocks stop between the cycles of `QUIET` (R32, R297, R468). -/
def sleepClocks (s : State) : State :=
  if s.md.mstate != .quiet || s.nv.inForce.fore then s
  else
    let s1 := { s with pwr := { s.pwr with lclkLock := false } }
    if vetoes s != 0 then s1
    else { s1 with time := { s1.time with tclkRun := false, fllLock := false, capTbase := s1.time.tbase, capPhase := s1.time.phase
                                          capSclk := s1.time.sclk, fllAt := none }
                   pwr := { s1.pwr with asleep := true, sleeps := s1.pwr.sleeps + 1 } }

/-- Is an observer to be placed at the next boundary? The scrubber yields that P4 (R436). -/
def scrubYields (s : State) : Bool := s.sup.acts.any fun a => match a.kind with | .qualify _ _ => true | _ => false

/-- The end of P3 and the work of P4 (R30): `finds` is what row test and scrubbing find. -/
def endP3 (finds : List PoolFind) (s0 : State) : State :=
  let s := timerEvents (advanceTo (s0.cyc.commitAt + 64) { s0 with cyc := { s0.cyc with p3Due := false } })
  let s1 := streamsP3 (lanesP4 (mmP4 s))
  let s2 := if scrubYields s1 then s1 else finds.foldl (fun s x => poolFound x s) (rowTest (periodTicks s1.cyc.period / 16) s1)
  sleepClocks s2

/-! ### The commands of the cycle -/

/-- Phases of the cycle in progress that have not been commanded end by themselves before the next t0. -/
def finishCycle (s : State) : State :=
  let s1 := if s.cyc.open_ then commitAtPoint [] none s else s
  if s1.cyc.p3Due then endP3 [] s1 else s1

/-- Do cycles run? -/
def cyclesRun (s : State) : Bool := s.cyc.running && s.md.mstate.cycling

/-- `FREEZE`: the t0 that begins the next cycle. While TCLK is stopped the t0 waits for the restart (R469). -/
def freeze (d : Int) (stop : Bool) (s : State) : State :=
  if !cyclesRun s then s
  else
    let s1 := finishCycle s
    if s1.time.tclkRun then freezeAt false d stop s1 else s1

/-- `FREEZE`. -/
def execFreeze (d : Int) (stop : Bool) (s : State) : Host.Outcome State Fault Refusal := .next (freeze d stop (settleTest s))

/-- `COMMIT_POINT`: `late` are the runs still in progress, `msg` what reaches the guard when the link does not carry the message
that was sent. -/
def execCommitPoint (late : List (Fin 5)) (msg : Option GuardMsg) (s : State) : Host.Outcome State Fault Refusal :=
  .next (if cyclesRun s && s.cyc.open_ then commitAtPoint late msg (settleTest s) else s)

/-- `P3_END`. -/
def execP3End (finds : List PoolFind) (s : State) : Host.Outcome State Fault Refusal :=
  .next (if cyclesRun s && s.cyc.p3Due then endP3 finds s else s)

/-- A cycle in progress is handled as slipped: no run of it counts, whether it has ended or not (R39, R284). -/
def slipRuns (s : State) : State :=
  if !s.cyc.open_ then s
  else (List.range 5).foldl (fun s i => if (llOf s i).lane.isSome && (llOf s i).st != .slipped then slipLl i s else s) s

/-! ### Sleep and wake in `QUIET` (R297, R298, R468, R469) -/

/-- `QUIET_WAKE` at t0 − 256 µs: the FLL and the LCLK PLL start; the PLL locks `pllTk` SCLK ticks later. -/
def quietWake (pllTk : Byte) (s : State) : State :=
  if s.md.mstate != .quiet || s.pwr.lclkLock || !s.cyc.running then s
  else
    let s1 := advanceTo (s.cyc.nextT0 - 4096) s
    { s1 with pwr := { s1.pwr with pllTk := pllTk, lclkLock := s1.pwr.xoOk && pllTk.toNat ≤ 127 }
              time := { s1.time with fllAt := if s1.time.tclkRun then s1.time.fllAt else some s1.time.sclk } }

/-- `QUIET_WAKE`. -/
def execQuietWake (pllTk : Byte) (s : State) : Host.Outcome State Fault Refusal := .next (quietWake pllTk s)

/-- The make-up of R297 at an SCLK edge: TBASE and every clocked channel advance by the ticks slept; compares found passed match
with `LATE`. The writes that software made in the sleep land on this edge (R288). -/
def makeUp (s : State) : State :=
  let t := s.time
  let new := t.capTbase - t.capPhase + 32 * (t.sclk - t.capSclk)
  let x : EdgeIn := { dt := new - t.tbase, d16 := new / 16 - t.tbase / 16, restart := true, ops := s.tmr.wait }
  { s with tmr := { tmrEdge x s.tmr with wait := [] }
           time := { t with tbase := new % 2 ^ 64, phase := 0, tclkRun := true, fllLock := true, fllAt := none
                            lastSclk := BitVec.ofNat 20 (min (t.sclk - t.capSclk) (2 ^ 20 - 1)), lastPhase := t.capPhase }
           pwr := { s.pwr with asleep := false, fllTk := BitVec.ofNat 8 (min 255 (t.sclk - t.fllAt.getD t.sclk)) } }

/-- Every cycle whose t0 has passed at the restart is handled as slipped (R469). -/
def lateCycles : Nat → State → State
  | 0, s => s
  | f + 1, s =>
    if now s < s.cyc.nextT0 || !cyclesRun s then s
    else
      let s1 := freezeAt true 0 s.xl.stopIn (finishCycle s)
      lateCycles f (pwrEvt 9 { s1 with pwr := { s1.pwr with late := satUp s1.pwr.late } })

/-- `TCLK_RESTART`: `wait` SCLK edges after now, once the FLL has been started (R297). -/
def tclkRestart (wait : Nat) (s : State) : State :=
  match s.time.fllAt with
  | none => s
  | some _ =>
    if s.time.tclkRun then s
    else
      let s1 := makeUp (advance (32 * (wait + 1) - s.time.phase) s)
      lateCycles (wait / 2000 + 2) s1

/-- `TCLK_RESTART`. -/
def execTclkRestart (wait : Half) (s : State) : Host.Outcome State Fault Refusal := .next (tclkRestart wait.toNat s)

/-- Ticks from the stop of TCLK to the next `WAKE` compare, if any. -/
def nextWake (s : State) : Option Nat :=
  s.tmr.chans.toList.foldl (fun (acc : Option Nat) c =>
    if !(c.wake && c.clk < 2 && c.en && c.arm) then acc
    else match acc, c.matchDue s.time.capTbase (vget s.tmr.chans c.master).gate with
      | some a, some d => some (min a d)
      | none, d => d
      | a, none => a) none

/-- `EARLIER_WAKE` (R298, R468): the keeper starts the FLL alone, so that TCLK runs 16 SCLK ticks before the next `WAKE` compare. -/
def earlierWake (s : State) : State :=
  if s.time.tclkRun || s.md.mstate != .quiet then s
  else match nextWake s with
    | none => s
    | some d =>
      let s1 := advanceTo (s.time.capTbase + d - 32 * 28) s
      tclkRestart 10 { s1 with time := { s1.time with fllAt := some s1.time.sclk } }

/-- `EARLIER_WAKE`. -/
def execEarlierWake (s : State) : Host.Outcome State Fault Refusal := .next (earlierWake s)

/-- `FLL_UNLOCK` while TCLK runs: the cycle is handled as slipped, with the difference in ticks (R284). -/
def fllUnlock (d : Int) (s : State) : State :=
  if !s.time.tclkRun then s
  else
    let s1 := { s with tmr := { s.tmr with evt := s.tmr.evt ||| 3#32 } }
    let s2 := postEv 0x0305 0 (leBytes 4 (ofSigned 32 d)) s1
    if s2.cyc.open_ then slipRuns s2 else { s2 with time := { s2.time with slipNext := true } }

/-- `FLL_UNLOCK`. -/
def execFllUnlock (d : Int) (s : State) : Host.Outcome State Fault Refusal := .next (fllUnlock d s)

/-- `STARTUP_COMPLETE` at the t0 that ends step 11 (R481). -/
def startupComplete (s : State) : State :=
  if !cyclesRun s || s.md.mstate != .starting then s
  else startupEnd (advanceTo (s.cyc.nextT0) (finishCycle s))

/-- `STARTUP_COMPLETE`. -/
def execStartupComplete (s : State) : Host.Outcome State Fault Refusal := .next (startupComplete s)

end Sys2Proof.Machine
end

