-- ==== Sys2Proof/Machine/Serve.lean ====
section
/-! DEFINITION. How a supervisor command is served (13_commands R324 to R337): authority, the order of checks, admission by module
state, the change log, and completion; sessions and presence windows (17 R416 to R420). -/

namespace Sys2Proof.Machine

/-- A refusal: status and result data (R336). -/
abbrev Refuse := Option (Status × List Byte)

/-! ### Presence and session (R330, R418 to R422) -/

/-- Ends the configuration session: what it staged and did not commit is discarded (R330). A commit that was accepted stays (R329). -/
def endSession (s : State) : State :=
  let x := s.sess
  if x.commitWait then { s with sess := { x with owner := none, level := .none, id := 0, lost := false, params := [] } }
  else { s with sess := { x with owner := none, level := .none, id := 0, lost := false, cfg := none, cfgChecked := false, cal := none, params := [], tmr := [] } }

/-- Presence sources present: bit 0 `PRESENCE`, 1 `CONFIG`, 2 the seal loop closed (R372). -/
def presenceBits (s : State) : Nat := at1 s.sess.pressed 0 + at1 s.sess.cfgPin 1 + at1 s.sess.sealed 2

/-- Is a presence window open at this tick (R418, R419)? -/
def windowOpen (s : State) : Bool := s.sess.winOpen && now s < s.sess.winEnd

/-- Seconds left of the window, 0 when closed. -/
def windowLeft (s : State) : Nat := if windowOpen s then (s.sess.winEnd - now s + 15999999) / 16000000 else 0

/-- Closes the presence window with a reason and ends the session (R418, R330). -/
def closeWindow (reason : Nat) (s : State) : State :=
  if !s.sess.winOpen then s
  else journal 0x0005 2 (leBytes 1 0 ++ leBytes 1 (presenceBits s) ++ leBytes 1 reason)
    (endSession { s with sess := { s.sess with winOpen := false, fails := 0 } })

/-- The password record in force: that of the active copy, else the other one; none when neither verifies (R421). -/
def pwRecord (s : State) : Option PwRec :=
  let i := (activeCopy s.nv.cfg).getD 0
  let a := (vget s.nv.cfg i).pw
  let b := (vget s.nv.cfg (1 - i)).pw
  if a.crcOk then some a else if b.crcOk then some b else none

/-- Does the requester hold the session? -/
def holds (s : State) (r : Requester) : Bool := s.sess.owner == some r

/-- Level and identifier that a change-log entry of the requester carries (R423). -/
def logSession (s : State) (r : Requester) : Nat × Nat := if holds s r then (s.sess.level.code, s.sess.id) else (0, 0)

/-- Attempts left in this window (R331). -/
def attemptsLeft (s : State) : Nat := 5 - s.sess.fails

/-! ### Authority (R327 to R329, R331) -/

/-- Judges the authority of a command of a class as it is taken. `SESSION_OPEN` while another requester holds the session is
refused with the session's owner (R330). -/
def judge (cls : Cls) (op : Nat) (r : Requester) (s : State) : Option Status :=
  if cls = .p0 then none
  else if !windowOpen s then some .noPresence
  else if op = 0x0100 then (match s.sess.owner with | some o => if o = r then none else some .sessionHeld | none => none)
  else if cls = .p1 then none
  else match s.sess.owner with
    | none => some .noSession
    | some o =>
      if o ≠ r then some .sessionHeld
      else if cls = .p2 then
        (if (pwRecord s).isNone then some .authFailed else if s.sess.level = .p2 then none else some .noSession)
      else none

/-- Result data of an authority refusal. -/
def judgeData (st : Status) (s : State) : List Byte :=
  match st with
  | .sessionHeld => leBytes 1 ((s.sess.owner.map Requester.code).getD 0)
  | .authFailed => leBytes 1 (attemptsLeft s)
  | _ => []

/-! ### Admission (R334) -/

/-- Does the module state admit a command? -/
def admits (s : State) (op : Nat) : Bool :=
  match s.md.mstate with
  | .run | .quiet | .safeHold => true
  | .starting => op / 256 = 0 || (5 ≤ s.md.startStep && op ∈ [0x0700, 0x0400, 0x0401, 0x0A00])
  | .fault => op / 256 = 0 || op ∈ [0x0400, 0x0401, 0x0A00] || (op / 256 = 5 && op != 0x0504)
  | _ => false

/-! ### Parameters (R309, R324, R370) -/

/-- Output buffer length given. -/
def Req.olen (q : Req) : Nat := leAt q.param 0x18 4

/-- Bytes of the command entry that the command defines: with a buffer flag the buffer fields, else its parameters (R309). -/
def Req.inlineDefs (q : Req) (defs : List (Nat × Nat)) : List (Nat × Nat) :=
  (if q.flag 0 then [(0x08, 12)] else defs) ++ (if q.flag 1 then [(0x18, 12)] else [])

/-- Is an offset within one of the ranges? -/
def inRanges (l : List (Nat × Nat)) (o : Nat) : Bool := l.any fun r => r.1 ≤ o && o < r.1 + r.2

/-- Undefined bytes that are not 0: their offsets, 0xFFFF for the buffer (R324, R336). -/
def Req.undef (q : Req) (chunk : Bool) (defs : List (Nat × Nat)) : List Nat :=
  ((List.range 56).filter fun i => lget q.param i 0#8 != 0 && !inRanges (q.inlineDefs defs) (8 + i)).map (8 + ·) ++
  (if q.flag 0 && !chunk && (List.range q.ibuf.length).any (fun i => lget q.ibuf i 0#8 != 0 && !inRanges defs (8 + i)) then [0xFFFF] else [])

/-- Offending offsets of the entry itself: reserved flags, `LEN`, buffer fields (R309, R370). -/
def Req.frameBad (q : Req) (s : State) : List Nat :=
  let win (o : Nat) (n : Nat) : Bool := 65536 < leAt q.param (o - 8) 8 + n
  (if q.flags.toNat / 16 != 0 then [4] else []) ++ (if !q.flag 0 && 56 < q.len.toNat then [6] else []) ++
  (if q.flag 0 && (q.ibuf.length = 0 || leAt q.param 8 4 != q.ibuf.length || 1048576 < q.ibuf.length) then [0x10] else []) ++
  match q.src with
  | .sideband =>
    (if q.flag 0 && leAt q.param 0 8 != 0 then [8] else []) ++ (if q.flag 1 && leAt q.param 0x10 8 != 0 then [0x18] else []) ++
    (if q.flag 1 && 1020 < q.olen then [0x20] else []) ++ (if 964 < q.ibuf.length || (!q.flag 0 && q.ibuf.length != 0) then [0x10] else [])
  | .ring _ =>
    if s.hp.qspi then (if q.flag 0 && win 8 q.ibuf.length then [8] else []) ++ (if q.flag 1 && win 0x18 q.olen then [0x18] else []) else []

/-- What a command needs, in the order of R333: offending parameter offsets, then `PROTECTED` or `LOCKED`, `WRONG_STATE`,
`LANE_IN_TEST`, supply and temperature, `BUSY`, its own outcomes. -/
structure Needs where
  life : Refuse := none
  defs : List (Nat × Nat) := []
  chunk : Bool := false
  bad : List (Bool × Nat) := []
  /-- `OBUF` is required; bytes that the results take in the output buffer. -/
  obuf : Bool := false
  out : Nat := 0
  prot : Refuse := none
  wrong : Bool := false
  test : Refuse := none
  supply : Refuse := none
  busy : Bool := false
  own : Refuse := none
  /-- It changes stored or running state: with authority above P0 a change-log entry is written first (R332, R426). -/
  logs : Bool := true
  /-- It writes MRAM (R336 `NV_FAILED`). -/
  nv : Bool := false
deriving DecidableEq, Repr, Inhabited

/-- The first offending parameter byte, if any. -/
def Needs.offset (n : Needs) (q : Req) (s : State) : Option Nat :=
  let l := q.frameBad s ++ q.undef n.chunk n.defs ++ (n.bad.filter (·.1)).map (fun b => if q.flag 0 && b.2 != 4 then 0xFFFF else b.2) ++ (if n.obuf && !q.flag 1 then [4] else []) ++
    (if q.flag 1 && q.olen < n.out then [0x20] else []) ++ (if n.chunk && !q.flag 0 then [4] else []) ++
    (if !q.flag 1 && inlineMax < n.out then [4] else []) ++
    -- an output buffer's fields would stand where parameters of the entry do
    (if q.flag 1 && !q.flag 0 && n.defs.any (fun r => 0x18 < r.1 + r.2) then [4] else [])
  l.foldl (fun a o => match a with | none => some o | some b => some (min b o)) none

/-- The first refusal after authority (R333). -/
def Needs.refuse (n : Needs) (op : Nat) (q : Req) (logged : Bool) (s : State) : Refuse :=
  match n.life with
  | some r => some r
  | none => match n.offset q s with
    | some o => some (.badParameter, leBytes 2 o)
    | none => match n.prot with
      | some r => some r
      | none =>
        if !admits s op || n.wrong then some (.wrongState, wrongState s)
        else match n.test with
          | some r => some r
          | none => match n.supply with
            | some r => some r
            | none =>
              if n.busy then some (.busy, [])
              else match n.own with
                | some r => some r
                | none =>
                  if (n.nv || logged) && (s.pwr.inhibit || !q.nvOk) then some (.nvFailed, [])
                  else if q.flag 1 && q.outErr then some (.bufferError, [])
                  else none

/-! ### Taking (R308, R310, R368 to R371) -/

/-- CRC of the sideband frame that carries a supervisor command (R365, R366, R370). -/
def reqCrc (s : State) (op : Nat) (q : Req) : Half :=
  let pay := leBytes 2 q.flags.toNat ++ leBytes 2 q.len.toNat ++ padTo 56 q.param ++ q.ibuf
  crc16 (leBytes 2 (5 + pay.length) ++ leBytes 1 s.xl.mid ++ leBytes 2 q.tag.toNat ++ leBytes 2 op ++ pay)

/-- The taken record of a command, if it has been taken. -/
def takenOf (s : State) (op : Nat) (q : Req) : Option Taken := s.sup.taken.find? fun t => t.isOf q && t.opcode == op

/-- The entry that a command is served with: the one that was read when it was taken, else the one that is given. -/
def entryOf (op : Nat) (q : Req) (s : State) : Req :=
  match takenOf s op q with
  | some t => (match t.req with | some x => { x with inErr := q.inErr, outErr := q.outErr, nvOk := q.nvOk } | none => q)
  | none => q

/-- Does the completion ring of a command ring hold the rings behind it back (R312)? -/
def stalled (s : State) (r : Nat) : Bool :=
  let c := (mring s r).cpl.toNat
  (mring s c).full && s.hp.cpls.any fun x => x.ring == c

/-- A command is taken: authority judged, the record made, the ring's count of commands in flight (R308, R329). -/
def takeCmd (cls : Cls) (op : Nat) (q : Req) (s : State) : State :=
  let t : Taken := { src := q.src, tag := q.tag, opcode := op, fence := q.flag 2, at_ := now s, refusal := judge cls op q.src s }
  let s1 := { s with sup := { s.sup with taken := s.sup.taken ++ [t] }, pwr := { s.pwr with supPllOff := false, supLock := s.pwr.supLock || s.pwr.supPllOff } }
  match q.src with
  | .ring r => { s1 with hp := { s1.hp with rings := vmod s1.hp.rings r.val fun d => { d with inflight := d.inflight + 1 } } }
  | .sideband => s1

/-- Commands that have started and wait for a boundary, a commit point, a test, a node, or a firmware switch. -/
def inProgress (s : State) : List Req :=
  (s.sup.acts.filterMap (·.q)) ++ s.sup.waitHold ++ (s.sup.waitAck ++ s.sup.waitDisc ++ s.sup.waitAct).map (·.2) ++ s.sup.switchReq.toList ++
  s.keep.fwSwitchReq.toList ++ s.sup.committed

/-- Has a taken command started? `PAIR_ADOPT` has from its taking on (notes/assumptions/104.md). -/
def begun (s : State) (t : Taken) : Bool := t.opcode == 0x0C03 || (inProgress s).any t.isOf

/-- May a taken command start? Commands of one ring start in ring order, one with `FENCE` only after every earlier one of its ring has
completed, and those of one group complete in order (R310); one that has started does not start again. -/
def mayStart (op : Nat) (q : Req) (s : State) : Bool :=
  let before := s.sup.taken.takeWhile fun t => !(t.isOf q && t.opcode == op)
  (before.all fun t => t.src != q.src || (!q.flag 2 && t.opcode / 256 != op / 256 && begun s t)) &&
  !(inProgress s).any fun x => x.src == q.src && x.tag == q.tag

/-- Can a command that is not taken yet be taken from where it waits? -/
def canTake (q : Req) (s : State) : Bool :=
  s.sup.sup == .serving &&
  match q.src with
  | .ring r => hostServed s && (mring s r.val).en && !stalled s r.val
  | .sideband => true

/-! ### Change log (R332, R423, R426) -/

/-- The parameters with the password bytes of `SESSION_OPEN` and `PASSWD_SET` as 0, and the buffer likewise. -/
def Req.hidden (q : Req) (op : Nat) : List Byte :=
  let blank (l : List Byte) : List Byte := if op = 0x0100 ∨ op = 0x0105 then putAt (padTo (max 36 l.length) l) 4 (List.replicate 32 0#8) |>.take l.length else l
  leBytes 2 q.flags.toNat ++ leBytes 2 q.len.toNat ++ (if q.flag 0 then padTo 56 q.param ++ blank q.ibuf else blank (padTo 56 q.param) ++ q.ibuf)

/-- Change-log entry of a command. -/
def logCmd (op : Nat) (q : Req) (st : Status) (at_ : Nat) (s : State) : State :=
  let (lv, id) := logSession s q.src
  logAppend op st.code q.src.code lv id (sha256 (q.hidden op)) at_ s

/-! ### Serving -/

/-- Completes with results, in the output buffer with `OBUF`. -/
def answer (op : Nat) (q : Req) (res : List Byte) (s : State) : State :=
  if q.flag 1 then completeWith q op .ok [] (some (res.take q.olen)) false s else complete q op .ok res s

/-- Serves a command that has been taken: the checks of R333, the change-log entry, the effect. -/
def runCmd (cls : Cls) (op : Nat) (q : Req) (t : Taken) (needs : State → Needs) (act : State → State) (s : State) : State :=
  if q.flag 0 && q.inErr then complete q op .bufferError [] (dmaCount s)
  else match t.refusal with
    | some st =>
      let s1 := if st = .authFailed then logCmd op q st t.at_ s else s
      complete q op st (judgeData st s) s1
    | none =>
      let n := needs s
      let logged := n.logs && cls != .p0
      match n.refuse op q logged s with
      | some (st, d) =>
        let s1 := if st = .bufferError then dmaCount s
          else if st = .nvFailed then (if s.pwr.inhibit then countInhibited s else verifyFailed s) else s
        complete q op st d s1
      | none => act (if logged then logCmd op q .ok t.at_ s else s)

/-- A supervisor command: taken, if it was not, and served; over the sideband port under R368 to R371. -/
def serve (base : Cls) (op : Nat) (q : Req) (needs : State → Needs) (act : State → State) (s : State) : State :=
  let cls := base.sup (raiseOf s (op / 256))
  match takenOf s op q with
  | some t => if s.sup.sup = .serving ∧ mayStart op q s then runCmd cls op q t needs act s else s
  | none =>
    match q.src with
    | .ring _ =>
      if !canTake q s then s
      else
        let s1 := takeCmd cls op q s
        match takenOf s1 op q with
        | some t => if mayStart op q s1 then runCmd cls op q t needs act s1 else s1
        | none => s1
    | .sideband =>
      let crc := reqCrc s op q
      if s.keep.fwSwitchDue.isSome || s.pwr.keeperDown then s
      else if s.keep.waiting.isSome then { s with keep := { s.keep with discarded := satUp s.keep.discarded, baudAt := none } }
      else if s.keep.lastReq == some (q.tag, op, crc) then { s with keep := { s.keep with sent := s.keep.sent + 1, baudAt := none } }
      else
        let s0 := { s with keep := { s.keep with lastReq := some (q.tag, op, crc), waiting := some (q.tag, op), baudAt := none } }
        if s0.md.mstate == .off || s0.md.mstate == .shuttingDown then completeWith q op .wrongState (wrongState s0) none false s0
        else if !sbEnabled s0 then completeWith q op .protectedReg [] none false s0
        else if s0.sup.sup != .serving then completeWith q op .busy [] none false s0
        else
          let s1 := takeCmd cls op q s0
          match takenOf s1 op q with
          | some t => runCmd cls op q t needs act s1
          | none => s1

/-- Schedules a change for the next boundary (R335). -/
def schedule (k : BKind) (q : Option Req) (s : State) : State :=
  { s with sup := { s.sup with acts := s.sup.acts ++ [{ kind := k, q := q, since := s.cyc.num }] } }

/-- A global node number or another 16-bit number as result data. -/
def le2 (n : Nat) : List Byte := leBytes 2 n

end Sys2Proof.Machine
end

