-- ==== Sys2Proof/Machine/Windows.lean ====
section
/-! DEFINITION. The register windows of `REG_READ` and `REG_WRITE` (13_commands R354 to R358): what every register of R355 reads
as, with what a read latches (R6, R11), and what a write does. -/

namespace Sys2Proof.Machine

/-! ### Words of the registers -/

/-- `CYC` (R46). -/
def cycWord (o : Nat) (s : State) : Nat :=
  let c := s.cyc
  match o with
  | 0x00 => c.tcyc + 8 * c.qtcyc + 256 * c.ha.toNat + 4096 * c.rlock.toNat
  | 0x04 => c.period + 16 * c.llSafe.toNat + 256 * c.llHeld.toNat + at1 c.guardOk 12
  | 0x08 => c.evt.toNat
  | 0x0C => c.rerunCnt.toNat + 256 * c.failCnt.toNat + 65536 * c.slipCnt.toNat + 2 ^ 24 * c.guardCnt.toNat
  | 0x14 => c.numHiLatched.toNat
  | _ => match regIdx 0x20 4 o with
    | some n => (llOf s n).runMax.toNat
    | none => 0

/-- `LANE` (R85). -/
def laneWord (o : Nat) (s : State) : Nat :=
  match o with
  | 0x00 => laneMap s
  | 0x04 => laneRegion s
  | 0x50 => laneRot s
  | 0x54 => laneRotLeft s
  | 0x60 => s.lane.evt.toNat
  | 0x68 => s.lane.misLocLatched.toNat
  | 0x70 => (if s.cyc.running then (s.cyc.num + 1) % 89 else 0) + 256 * s.lane.sentOk.toNat
  | _ => match regIdx 0x10 5 o, regIdx 0x30 5 o with
    | some k, _ => lanePl s k
    | _, some i => (llOf s i).swz
    | _, _ => 0

/-- `STATE` of `MM_STn` (R169). -/
def monState (s : State) (m : Mon) : Nat :=
  if !m.used then 0 else if m.unit.isNone then 5 else if m.latchPos || m.latchVel then 4
  else if m.refillPend || now s < m.refillUntil then 3 else if m.cause == 0 || m.cause == 13 then 1 else 2

/-- `MM_STn`. -/
def mmSt (s : State) (n : Nat) : Nat :=
  let m := vget s.mm.mons n
  m.unit.getD 0x1F + 32 * monState s m + at1 (m.latchPos || m.latchVel) 8 + at1 (m.used && m.a.ok) 9 +
    at1 (m.used && m.b.kind != 0 && m.b.ok) 10 + at1 m.stand 11 + 4096 * m.cause

/-- `MM_UNITk`. -/
def mmUnit (s : State) (k : Nat) : Nat :=
  let u := vget s.mm.units k
  u.role.code + 8 * u.hosts.getD 0x1F + 256 * u.bistRes + 2 ^ 24 * min 255 (unitFaults s k)

/-- `MM` (R169). -/
def mmWord (o : Nat) (s : State) : Nat :=
  match o with
  | 0x00 => s.mm.evt.toNat
  | 0x04 => s.mm.periodH.toNat + at1 (configured s && (spareUnit s).isNone) 8 + at1 s.mm.due 9 + 1024 * (nextUnit s).getD 0x1F
  | _ => match regIdx 0x10 16 o, regIdx 0x60 18 o with
    | some n, _ => mmSt s n
    | _, some k => mmUnit s k
    | _, _ => 0

/-- Code of a filtered band in `INP_STn.FBAND`. -/
def bandField : Option Band → Nat
  | none | some .off => 0 | some .on => 1 | some .wireBreak => 2 | some .indet => 3

/-- `INP_STn`. -/
def inpSt (s : State) (n : Nat) : Nat :=
  let x := vget s.inp.inps n
  let (v, q, c) := inpView s n
  bandField (some x.raw) + 4 * bandField x.fband + at1 v 4 + at1 q 5 + 256 * c + 65536 * x.iMeas.toNat

/-- `INP` (R193). -/
def inpWord (o : Nat) (s : State) : Nat :=
  match o with
  | 0x000 => s.inp.evt.toNat
  | 0x004 => s.inp.bad.toNat
  | _ => match regIdx 0x100 32 o, regIdx 0x200 32 o, regIdx 0x300 32 o, regIdx 0x400 32 o with
    | some n, _, _, _ => let x := vget s.inp.inps n; x.filt.toNat + 256 * x.src.toNat + at1 x.used 13
    | _, some n, _, _ => inpSt s n
    | _, _, some n, _ => let x := vget s.inp.inps n; x.foreignTo.toNat + 256 * x.missCnt.toNat + 65536 * x.ovrCnt.toNat
    | _, _, _, some n => let x := vget s.inp.inps n; x.dev.toNat + at1 x.trimmed 12 + at1 x.calOut 13
    | _, _, _, _ => match regIdx 0x500 16 o, regIdx 0x580 8 o, regIdx 0x5A0 8 o with
      | some k, _, _ => let t := vget s.out.tos k; t.width.toNat + 1024 * t.per.toNat + 2 ^ 15 * t.res.toNat + 2 ^ 20 * t.slot.toNat + 2 ^ 24 * t.nslot.toNat
      | _, some k, _ => let x := vget s.inp.cis k; let (q, c) := ciView s k; at1 x.lvl 0 + at1 (configured s && q) 1 + 16 * c + at1 x.rate 8
      | _, _, some k => (vget s.inp.cis k).cnt.toNat
      | _, _, _ => 0

/-- `OUT_CFGn`. -/
def outCfg (x : Out) : Nat :=
  at1 x.used 0 + at1 x.dtEn 1 + 4 * x.dtW.toNat + 4096 * x.dtPer.toNat + at1 x.ltEn 25 + at1 x.paired 26 + at1 x.eco 27

/-- `OUT_STn`. -/
def outSt (s : State) (n : Nat) : Nat :=
  let x := vget s.out.outs n
  at1 x.cmd 0 + at1 x.ch 1 + 4 * x.rb.toNat + 16 * x.rbl.toNat + at1 (configured s && outQ s n) 6 + at1 x.ecoAct 7 + 256 * outCode s n +
    at1 (outLatched s n) 12 + 65536 * x.iMeas.toNat

/-- `TO_STk`. -/
def toSt (s : State) (k : Nat) : Nat :=
  let t := vget s.out.tos k
  let (v, q, c) := toView s k
  at1 (configured s && v) 0 + at1 (configured s && q) 1 + 16 * c + at1 t.ovl 8 + at1 t.rbFail 9 + 65536 * t.iMeas.toNat

/-- `OUT` (R218). -/
def outWord (o : Nat) (s : State) : Nat :=
  match o with
  | 0x000 => s.out.evt.toNat
  | _ => match regIdx 0x10 2 o, regIdx 0x18 2 o, regIdx 0x20 2 o, regIdx 0x100 20 o with
    | some g, _, _, _ => grpSt s g
    | _, some g, _, _ => (vget s.out.grps g).mtPerH.toNat
    | _, _, some g, _ => (vget s.out.grps g).iGrp.toNat + 65536 * (vget s.out.grps g).vGrp.toNat
    | _, _, _, some n => outCfg (vget s.out.outs n)
    | _, _, _, _ => match regIdx 0x200 20 o, regIdx 0x300 20 o, regIdx 0x400 16 o with
      | some n, _, _ => outSt s n
      | _, some n, _ => let x := vget s.out.outs n; x.dtFailCnt.toNat + 256 * x.ltFailCnt.toNat + 65536 * x.srcOut + 2 ^ 21 * x.last
      | _, _, some k => toSt s k
      | _, _, _ => 0

/-- `RING_STk`. -/
def ringSt (s : State) (k : Nat) : Nat :=
  let r := ringOf s k
  r.state + at1 (s.cyc.rlock.getLsbD k) 3 + at1 r.master 4 + at1 r.lpi 5 + 256 * r.nFound + 2 ^ 17 * r.brk

/-- `RING_NSTg`. -/
def nodeSt (n : Node) : Nat :=
  n.nstate.toNat + at1 n.syncOk 3 + at1 n.outFault 4 + at1 n.lastE 5 + at1 n.lastW 6 + 256 * n.conn + 65536 * n.posE

/-- `RING` (R255). -/
def ringWord (o : Nat) (s : State) : Nat :=
  match o with
  | 0x000 => s.ring.evt.toNat
  | _ => match regIdx 0x10 2 o, regIdx 0x18 2 o, regIdx 0x20 4 o, regIdx 0x30 4 o with
    | some k, _, _, _ => ringSt s k
    | _, some k, _, _ => (ringOf s k).rp + at1 (ringOf s k).plan100 2 + 8 * nCfg s k
    | _, _, some p, _ => let x := vget s.ring.ports p; at1 x.link 0 + 2 * x.speed.toNat + at1 x.eee 3 + at1 x.lpi 4
    | _, _, _, some p => (vget s.ring.ports p).fcsErr.toNat + 65536 * (vget s.ring.ports p).drop.toNat
    | _, _, _, _ => match regIdx 0x1000 512 o, regIdx 0x1800 512 o, regIdx 0x2000 512 o with
      | some g, _, _ => nodeSt (nodeOf s g)
      | _, some g, _ => let n := nodeOf s g; n.crcCnt.toNat + 256 * n.seqCnt.toNat + 65536 * n.wdCnt.toNat + 2 ^ 24 * n.lost.toNat
      | _, _, some g => (nodeOf s g).lag.toNat + 65536 * (nodeOf s g).syncErr.toNat
      | _, _, _ => 0

/-- `XL_CFG`. -/
def xlCfg (s : State) : Nat :=
  let x := s.xl
  x.mid + at1 x.pairCfg 3 + at1 x.pullup 4 + 32 * x.stopDrv.toNat + at1 x.stopRcv 8 + 512 * x.disCyc + at1 x.rmRole 13 + at1 x.toRole 14

/-- `XL_ST`. -/
def xlSt (s : State) : Nat :=
  let x := s.xl
  let rm := !pairMode s || (List.range 2).any fun k => (ringOf s k).master
  x.actMaster + at1 x.locked 3 + at1 x.stopLvl 4 + at1 (pullsStop s) 5 + at1 x.killIn 6 + at1 x.killOut 7 + at1 (configured s && rm) 8 +
    at1 (x.toMask == 0xFFFF#16) 9 + at1 s.md.qualPartner 10 + 65536 * x.present.toNat + 2 ^ 24 * x.valid.toNat

/-- `XL` (R281). -/
def xlWord (o : Nat) (s : State) : Nat :=
  match o with
  | 0x00 => xlCfg s
  | 0x04 => xlSt s
  | 0x08 => s.xl.evt.toNat
  | 0x0C => s.xl.err.toNat
  | 0x10 => s.xl.claErr.toNat + 65536 * s.xl.clbErr.toNat
  | 0x18 => s.xl.ofsHiLatched.toNat
  | _ => 0

/-- A channel's registers, but for the ones whose read latches (R299). -/
def chanWord (c : Chan) (o : Nat) : Nat :=
  match o with
  | 0x00 => c.cfg.toNat
  | 0x04 => c.stat
  | 0x0C => c.cntHi.toNat
  | 0x10 => (lo48 c.cmp).toNat
  | 0x14 => (hi48 c.cmp).toNat
  | 0x18 => (lo48 c.pre).toNat
  | 0x1C => (hi48 c.pre).toNat
  | 0x24 => c.actHi.toNat
  | 0x2C => c.capHi.toNat
  | 0x30 => (lo48 c.lat).toNat
  | 0x34 => (hi48 c.lat).toNat
  | 0x38 => c.miss.toNat
  | _ => 0

/-- `TMR` (R299). -/
def tmrWord (o : Nat) (s : State) : Nat :=
  match o with
  | 0x000 => s.tmr.link.toNat
  | 0x004 => at1 s.time.tclkRun 0 + at1 s.time.fllLock 1 + 4 * vetoes s
  | 0x008 => s.tmr.evt.toNat
  | 0x014 => s.time.tbaseHiLatched.toNat
  | 0x018 => s.time.lastSclk.toNat + 2 ^ 20 * (s.time.lastPhase % 32)
  | _ => match tmrChan o with
    | some (n, r) => chanWord (vget s.tmr.chans n) r
    | none => 0

/-- `EVR` (R396). -/
def evrWord (o : Nat) (s : State) : Nat :=
  let e := s.evr
  match o with
  | 0x000 => at1 e.konly 0 + at1 e.ready 1 + 4 * e.queue.length + 2048 * e.remap.length
  | 0x004 => e.evt.toNat
  | 0x008 => e.recS.length
  | 0x00C => e.recK.length + 2 ^ 15 * e.recC.length
  | 0x010 => e.seqS
  | 0x014 => e.seqO
  | 0x018 => e.qovf.toNat
  | 0x01C => e.lost.toNat
  | 0x020 => e.koCnt.toNat
  | _ => match regIdx 0x40 8 o with
    | some i => (vget e.drops i).toNat
    | none => 0

/-- `MEM_BANKb`. -/
def memBank (b : Nat) (k : MBank) : Nat :=
  spareLeft b k + at1 k.degraded 5 + at1 (!k.rows.isEmpty) 6 + 256 * k.testRow.toNat + 2 ^ 24 * k.missed.toNat

/-- `MEM` (R456). -/
def memWord (o : Nat) (s : State) : Nat :=
  let m := s.mem
  match o with
  | 0x000 => m.evt.toNat
  | 0x004 => at1 s.pwr.inhibit 0 + at1 s.nv.replayed 1
  | 0x008 => m.pCorr.toNat + 2 ^ 20 * m.pUncorr.toNat
  | 0x00C => m.mCorr.toNat + 65536 * m.mUncorr.toNat + 2 ^ 24 * m.inhibited.toNat
  | 0x014 => m.lastAddrLatched.toNat
  | 0x018 => m.scrubPos.toNat + 2 ^ 24 * m.scrubMissed.toNat
  | _ => match regIdx 0x100 36 o with
    | some b => memBank b (vget m.banks b)
    | none => 0

/-- `FUSE_GRPg`. -/
def fuseGrp (x : FGrp) : Nat := x.st + at1 x.locked 3 + at1 x.pend 4 + 32 * x.attempt + 65536 * x.marg.toNat

/-- `FUSE` (R415). -/
def fuseWord (o : Nat) (s : State) : Nat :=
  let f := s.fuse
  match o with
  | 0x000 => at1 f.sensed 0 + at1 f.shadowMis 1 + at1 f.rsvSet 2 + 8 * f.lc + at1 f.lcDefault 6 + 128 * g6Used f
  | 0x004 => f.evt.toNat
  | _ => match regIdx 0x10 8 o, regIdx 0x30 8 o, regIdx 0x400 256 o with
    | some g, _, _ => fuseGrp (vget f.grps g)
    | _, some g, _ => (vget f.grps g).stored.toNat + 65536 * (vget f.grps g).computed.toNat
    | _, _, some w => bits f.shadow.toNat (32 * w + 31) (32 * w)
    | _, _, _ => 0

/-- Hours since the last hold-up capacitor test. -/
def capAge (s : State) : Nat := match s.pwr.capAt with | some t => min 65535 ((now s - t) / hourTicks 1) | none => 0

/-- `PWR` (R473). -/
def pwrWord (o : Nat) (s : State) : Nat :=
  let p := s.pwr
  match o with
  | 0x00 => at1 p.vlogOk 0 + at1 p.onHu 1 + at1 p.huReady 2 + at1 p.huLow 3 + at1 p.huWeak 4 + at1 p.inhibit 5 + at1 p.xoOk 6 +
      at1 p.lclkLock 7 + at1 p.supLock 8 + at1 p.phyLock 9 + at1 p.goscOk 10 + at1 p.asleep 11
  | 0x04 => p.evt.toNat
  | 0x08 => p.vlog.toNat + 65536 * p.vlogMin.toNat
  | 0x0C => p.vhu.toNat + 4096 * p.v3v3.toNat
  | 0x10 => p.vcore.toNat + 65536 * p.tj.toNat + 2 ^ 24 * p.tjMax.toNat
  | 0x14 => p.capUf.toNat + 65536 * capAge s
  | 0x18 => p.dips.toNat + 256 * p.xo.toNat + 65536 * p.lclk.toNat + 2 ^ 24 * p.late.toNat
  | 0x1C => p.fllTk.toNat + 256 * p.pllTk.toNat + 65536 * p.sleeps.toNat
  | _ => 0

/-! ### Reading (R6, R10, R11, R355, R356) -/

/-- Read of `XL_OFS_LO`: latches `XL_OFS_HI`. -/
def readXlOfs (s : State) : Nat × State :=
  let v := ofSigned 64 s.xl.ofs
  (v % 2 ^ 32, { s with xl := { s.xl with ofsHiLatched := BitVec.ofNat 32 (v / 2 ^ 32) } })

/-- `XL_OFS_LO_READ`. -/
def execXlOfsLoRead (s : State) : Host.Outcome State Fault Refusal := answerRead (readXlOfs s)

/-- Read of `CYC_NUM_LO`: latches `CYC_NUM_HI`. -/
def readCycNum (s : State) : Nat × State :=
  (s.cyc.num % 2 ^ 32, { s with cyc := { s.cyc with numHiLatched := BitVec.ofNat 32 (s.cyc.num / 2 ^ 32) } })

/-- `CYC_NUM_LO_READ`: the read latches the high half (R11). -/
def execCycNumLoRead (s : State) : Host.Outcome State Fault Refusal := answerRead (readCycNum s)

/-- Size of a window in bytes; 0 for an identifier that R355 does not list. -/
def winSize (w : Nat) : Nat := lget [0, 256, 256, 256, 4096, 4096, 16384, 256, 4096, 4096, 4096, 4096, 256] w 0

/-- One aligned read of a window's word (R6, R10): the word, and the state with what the read latches. -/
def readReg (w o : Nat) (s : State) : Nat × State :=
  match w with
  | 0x01 => if o = 0x10 then readCycNum s else (cycWord o s, s)
  | 0x02 => if o = 0x64 then readLaneMis s else (laneWord o s, s)
  | 0x03 => (mmWord o s, s)
  | 0x04 => (inpWord o s, s)
  | 0x05 => (outWord o s, s)
  | 0x06 => (ringWord o s, s)
  | 0x07 => if o = 0x14 then readXlOfs s else (xlWord o s, s)
  | 0x08 =>
    if o = 0x10 then readTbase s
    else match tmrChan o with
      | some (n, 0x08) => readCnt n s
      | some (n, 0x20) => readAct n s
      | some (n, 0x28) => readCap n false s
      | _ => (tmrWord o s, s)
  | 0x09 => (evrWord o s, s)
  | 0x0A => if o = 0x10 then readMemLast s else (memWord o s, s)
  | 0x0B => (fuseWord o s, s)
  | 0x0C => (pwrWord o s, s)
  | _ => (0, s)

/-- `n` words in ascending offset (R356). -/
def readRegs (w : Nat) : Nat → Nat → State → List Nat × State
  | _, 0, s => ([], s)
  | o, n + 1, s =>
    let (v, s1) := readReg w o s
    let (l, s2) := readRegs w (o + 4) n s1
    (v :: l, s2)

/-- Time until a part under test is free, in ms, rounded up (R79, R163); in start-up step 6 the rest of the step's maximum (R483). -/
def retryMs (s : State) (testEnd : Nat) : Nat :=
  let e := if s.md.mstate == .starting && s.md.startStep == 6 then s.md.step6End else testEnd
  (e - now s + 15999) / 16000

/-- `LANE_IN_TEST` for a lane in `BIST` or `UCODE_LOAD`. -/
def laneTest (s : State) (k : Nat) : Refuse :=
  let l := laneOf s k
  if l.role == .bist || l.role == .ucodeLoad then some (.laneInTest, leBytes 4 (retryMs s l.testEnd)) else none

/-- `LANE_IN_TEST` for a logical lane that is unplaced while no spare stands ready and a lane is under test (R79, R494). -/
def llTest (s : State) (i : Nat) : Refuse :=
  if (llOf s i).lane.isSome || !(spares s).isEmpty then none else (List.range 5).findSome? (laneTest s)

/-- `LANE_IN_TEST` for a unit in `BIST`. -/
def unitTest (s : State) (u : Nat) : Refuse :=
  let x := vget s.mm.units u
  if x.role == .bist then some (.laneInTest, leBytes 4 (retryMs s x.testEnd)) else none

/-- The refusal that a range of a window brings (R356): the first part under test in it. -/
def rangeTest (s : State) (w o n : Nat) : Refuse :=
  let hit (a : Nat) : Bool := o ≤ a && a < o + 4 * n
  if w = 2 then (List.range 5).findSome? fun k => if hit (0x10 + 4 * k) then laneTest s k else none
  else if w = 3 then (List.range 18).findSome? fun u => if hit (0x60 + 4 * u) then unitTest s u else none
  else none

/-! ### Writing (R357, R358) -/

/-- Registers of access W1C by window and offset, with their flag mask; `TMR_ST` stands with the channels. -/
def w1cMask (w o : Nat) : Option Word :=
  match w, o with
  | 0x01, 0x08 => some 0x3F
  | 0x02, 0x60 => some 0x3FFF
  | 0x03, 0x00 => some 0x1FF
  | 0x04, 0x000 => some 0x3FF
  | 0x05, 0x000 => some 0x3FFF
  | 0x06, 0x000 => some 0x7FFF
  | 0x07, 0x08 => some 0x3FF
  | 0x08, 0x008 => some 0xF
  | 0x09, 0x004 => some 0xFF
  | 0x0A, 0x000 => some 0x3FF
  | 0x0B, 0x004 => some 0x1F
  | 0x0C, 0x04 => some 0x3FF
  | _, _ => none

/-- The flags of a window's event register written as 1 are cleared (R6). -/
def clearFlags (w : Nat) (v : Word) (s : State) : State :=
  match w with
  | 0x01 => { s with cyc := { s.cyc with evt := w1c s.cyc.evt v } }
  | 0x02 => { s with lane := { s.lane with evt := w1c s.lane.evt v } }
  | 0x03 => { s with mm := { s.mm with evt := w1c s.mm.evt v } }
  | 0x04 => { s with inp := { s.inp with evt := w1c s.inp.evt v } }
  | 0x05 => { s with out := { s.out with evt := w1c s.out.evt v } }
  | 0x06 => { s with ring := { s.ring with evt := w1c s.ring.evt v } }
  | 0x07 => { s with xl := { s.xl with evt := w1c s.xl.evt v } }
  | 0x08 => { s with tmr := { s.tmr with evt := w1c s.tmr.evt v } }
  | 0x09 => { s with evr := { s.evr with evt := w1c s.evr.evt v } }
  | 0x0A => { s with mem := { s.mem with evt := w1c s.mem.evt v } }
  | 0x0B => { s with fuse := { s.fuse with evt := w1c s.fuse.evt v } }
  | 0x0C => { s with pwr := { s.pwr with evt := w1c s.pwr.evt v } }
  | _ => s

/-- Where a `REG_WRITE` goes (R358): flags, a free channel, an owned channel, `LINKLATCH` with the owned bits it changes, or
nowhere it may. -/
inductive WTarget where
  | flags | free (n o : Nat) | owned (n o : Nat) | link (free owned : Bool) | none
deriving DecidableEq, Repr, Inhabited

/-- Target of a write of `v`; the flags of `TMR_ST` are W1C in any channel. -/
def wTarget (w o : Nat) (v : Word) (s : State) : WTarget :=
  if (w1cMask w o).isSome then .flags
  else if w = 8 ∧ o = 0 then
    let ch := v ^^^ s.tmr.link
    .link (ch &&& ~~~(ownedMask s) != 0) (ch &&& ownedMask s != 0)
  else if w = 8 then
    match tmrChan o with
    | some (n, r) =>
      if !chanWritable r then .none
      else if r = 4 then .flags
      else if (vget s.tmr.chans n).own then .owned n r else .free n r
    | none => .none
  else .none

/-- Class of a `REG_WRITE` (R358): a write that changes owned bits alone, or an owned channel, is P1S. -/
def WTarget.cls : WTarget → Cls
  | .owned _ _ | .link false true => .p1s
  | _ => .p0

/-- Does `PROTECTED` meet the write? No writable field, or both free and owned bits of `LINKLATCH` without the session. -/
def WTarget.protected (held : Bool) : WTarget → Bool
  | .none => true
  | .link true true => !held
  | _ => false

/-- Does the write name a reserved encoding of a channel register (R9)? -/
def tmrReserved (n o : Nat) (v : Word) : Bool := (o = 0 && cfgReserved n (v &&& cfgMask)) || (o = 0x1C && v.getLsbD 15)

/-- The effect of a write (R357, R358). -/
def writeReg (w o : Nat) (v : Word) (s : State) : State :=
  match wTarget w o v s with
  | .flags => if w = 8 ∧ o ≠ 8 then (match tmrChan o with | some (n, r) => chanWrite n r v s | none => s) else clearFlags w v s
  | .free n r => let s1 := chanWrite n r v s; if tmrReserved n r v then reservedWrite w o v s1 else s1
  | .owned n r => let s1 := stageTmr o (stagedValue n r v s) s; if tmrReserved n r v then reservedWrite w o v s1 else s1
  | .link _ own =>
    let s1 := linkWrite (putBits (~~~(ownedMask s)) v s.tmr.link) s
    if own then stageTmr 0 (v &&& ownedMask s) s1 else s1
  | .none => s

end Sys2Proof.Machine
end

