-- ==== Sys2Proof/Machine/Leds.lean ====
section
/-! DEFINITION. The degraded condition and the five LEDs (21_self_test_faults R500 to R503): a pattern for each LED, as the state of the
module gives it. -/

namespace Sys2Proof.Machine

/-! ### The degraded condition (R500) -/

/-- A lane is out of service for good, or a logical lane is unplaced or has a state-image fault. -/
def lanesDegraded (s : State) : Bool :=
  (vany s.lane.lanes fun l => l.role == .retired) || (List.range 4).any fun i => (llOf s i).lane.isNone || (llOf s i).stateFault

/-- A monitor unit is `RETIRED`, or a monitor in use is unplaced. -/
def monitorsDegraded (s : State) : Bool :=
  (vany s.mm.units fun u => u.role == .retired) || vany s.mm.mons fun m => m.used && m.unit.isNone

/-- Is a ring that has configured nodes `OPEN`, `SPLIT` or `DOWN`, or one of its connections `EXPIRED`? -/
def ringDegraded (s : State) (k : Nat) : Bool :=
  decide (0 < nCfg s k) && (ringOf s k).state ∈ [0, 3, 4] || (List.range 256).any fun i => (nodeOf s (256 * k + i)).conn == 6

/-- Are the containers of a module missing that has joined since this one did? -/
def modulesMissing (s : State) : Bool := (s.xl.known &&& ~~~s.xl.present) != 0

/-- The module is degraded (R500). -/
def degraded (s : State) : Bool :=
  lanesDegraded s || monitorsDegraded s || (vany s.out.grps fun x => !x.latches.isEmpty) || (vany s.mem.banks (·.degraded)) ||
  s.evr.konly || s.pwr.huWeak || ringDegraded s 0 || ringDegraded s 1 || modulesMissing s || s.fuse.shadowMis

/-! ### Patterns (R501) -/

/-- Is an LED lit, `t` ms into its pattern? -/
def LedPat.lit (p : LedPat) (t : Nat) : Bool :=
  match p with
  | .off => false
  | .on => true
  | .slow => t % 1000 < 500
  | .fast => t % 250 < 125
  | .flash => t % 1000 < 100
  | .double => t % 1000 < 100 || (200 ≤ t % 1000 && t % 1000 < 300)

/-! ### The LEDs (R502, R503) -/

/-- FAULT in the states of note 2. -/
def faultLed (s : State) : LedPat := if degraded s then .flash else .off

/-- Is SAFE on in `RUN` (note 1): a master open or `LL_SAFE`, now or within the last second? -/
def safeShown (s : State) : Bool :=
  safeLit s || match s.md.safeSeen with | some t => now s < t + msTicks 1000 | none => false

/-- RUN, SAFE and FAULT by the module state. -/
def stateLeds (s : State) : LedPat × LedPat × LedPat :=
  match s.md.mstate with
  | .off => (.off, .off, .off)
  | .starting => if s.md.scrapped then (.off, .on, .slow) else (.fast, .on, .off)
  | .run => (.on, if safeShown s then .on else .off, faultLed s)
  | .quiet => (.flash, .off, faultLed s)
  | .safeHold => (.off, .slow, faultLed s)
  | .shuttingDown => (.off, .on, .off)
  | .fault => (.off, .on, .on)

/-- The LED of ring k. -/
def ringLed (s : State) (k : Nat) : LedPat :=
  if s.md.mstate == .off then .off
  else match (ringOf s k).state with
    | 0 => if 0 < nCfg s k then .fast else .off
    | 1 => .flash
    | 2 => .on
    | 3 => .slow
    | 4 => .fast
    | _ => .off

/-- Is the instant of `t`, if any, less than `ms` milliseconds past? -/
def within (s : State) (t : Option Nat) (ms : Nat) : Bool := match t with | some t => now s < t + msTicks ms | none => false

/-- The five LEDs as they stand (R501 to R503): held during a keeper firmware switch, all on for 200 ms from start-up step 1, the three of
the state for 1 s when a presence window opens; a double flash of RUN while it stays open. -/
def leds (s : State) : Leds :=
  match s.md.ledHold with
  | some l => l
  | none =>
    if s.md.mstate != .off && within s (some s.md.ledStart) 200 then { run := .on, safe := .on, fault := .on, ring0 := .on, ring1 := .on }
    else
      let rings : Leds := { ring0 := ringLed s 0, ring1 := ringLed s 1 }
      if within s s.md.ledWindow 1000 then { rings with run := .on, safe := .on, fault := .on }
      else
        let (r, y, f) := stateLeds s
        let win := windowOpen s && s.md.mstate != .off && s.md.mstate != .shuttingDown
        { rings with run := if win then .double else r, safe := y, fault := f }

end Sys2Proof.Machine
end

