-- ==== Sys2Proof/Machine/CmdCore.lean ====
section
/-! DEFINITION. The supervisor commands of groups 0x00 to 0x03 (13_commands R338 to R343): identity, configuration session, safety
program, streams. -/

namespace Sys2Proof.Machine

/-! ### Identity, 0x00xx (R338) -/

/-- `NOP`. -/
def execNop (q : Req) (s : State) : Host.Outcome State Fault Refusal :=
  let q := entryOf 0x0000 q s
  .next (serve .p0 0x0000 q (fun _ => {}) (answer 0x0000 q []) s)

/-- Result bytes of `IDENT_GET`. -/
def identData (s : State) : List Byte :=
  let im := s.image.getD {}
  let vers := s.lane.lanes.toList.map fun l => l.ucodeVer.toNat
  let oldest := vers.foldl min 255
  let newest := vers.foldl max 0
  leBytes 8 (moduleUid s) ++ leBytes 8 (pairUid s) ++ leBytes 2 (fuseField s 0 79 64) ++ leBytes 2 (fuseField s 0 111 96) ++
  leBytes 1 (fuseField s 0 119 112) ++ leBytes 1 s.fuse.lc ++ leBytes 1 s.xl.mid ++ leBytes 1 (b2n s.hp.qspi) ++
  leBytes 2 s.sup.ver.toNat ++ leBytes 1 (b2n s.sup.bank) ++ [0#8] ++ leBytes 2 s.keep.fwVer.toNat ++ leBytes 1 oldest ++ leBytes 1 newest ++
  leBytes 4 im.id.toNat ++ leBytes 4 im.ver.toNat ++ leBytes 4 s.nv.inForce.chk.toNat

/-- `IDENT_GET`. -/
def execIdentGet (q : Req) (s : State) : Host.Outcome State Fault Refusal :=
  let q := entryOf 0x0001 q s
  .next (serve .p0 0x0001 q (fun _ => { out := 44 }) (fun s => answer 0x0001 q (identData s) s) s)

/-- Result bytes of `STATE_GET`. -/
def stateData (s : State) : List Byte :=
  leBytes 1 s.md.mstate.code ++ [s.md.cause] ++ leBytes 2 (min 65535 (windowLeft s)) ++ leBytes 1 ((s.sess.owner.map Requester.code).getD 0xFF) ++
  leBytes 1 s.sess.level.code ++ leBytes 1 s.cyc.period ++ leBytes 1 (at1 s.nv.inForce.fore 0 + at1 (pairMode s) 1 + at1 s.xl.joined 2) ++
  leBytes 8 s.cyc.num ++ leBytes 8 s.cyc.lastT0

/-- `STATE_GET`. -/
def execStateGet (q : Req) (s : State) : Host.Outcome State Fault Refusal :=
  let q := entryOf 0x0002 q s
  .next (serve .p0 0x0002 q (fun _ => { out := 24 }) (fun s => answer 0x0002 q (stateData s) s) s)

/-! ### Configuration session, 0x01xx (R330, R331, R339, R340, R420 to R434) -/

/-- The password bytes of a command: its length at 0x08, 32 bytes at 0x0C. -/
def Req.pw (q : Req) : List Byte := (List.range (min 32 (q.arg 8 1))).map fun i => BitVec.ofNat 8 (q.arg (0x0C + i) 1)

/-- First byte of the password field beyond the length that is not 0. -/
def Req.pwTail (q : Req) : List (Bool × Nat) := (List.range 32).map fun i => (q.arg 8 1 ≤ i && q.arg (0x0C + i) 1 != 0, 0x0C + i)

/-- Does a password verify against the record in force (R331, R421)? -/
def pwVerifies (s : State) (pw : List Byte) : Bool :=
  match pwRecord s with
  | none => false
  | some r => pbkdf2 pw r.salt r.iter == r.dk

/-- A session of the requester: kept when it holds one, else a new one with the next identifier (R420). -/
def startSession (r : Requester) (lv : Level) (s : State) : State :=
  if holds s r then { s with sess := { s.sess with level := if lv = .p2 then .p2 else s.sess.level } }
  else
    { s with sess := { s.sess with owner := some r, level := lv, id := (s.keep.sessionCounter + 1) % 2 ^ 32, lost := false }
             keep := { s.keep with sessionCounter := (s.keep.sessionCounter + 1) % 2 ^ 32 } }

/-- A failed password (R331, R420): the session opens at P1 where none was held; the fifth failure in a row closes the window. -/
def pwFailed (q : Req) (at_ : Nat) (s : State) : State :=
  let s1 := startSession q.src .p1 { s with sess := { s.sess with fails := s.sess.fails + 1 } }
  let left := attemptsLeft s1
  let s2 := logCmd 0x0100 q .authFailed at_ s1
  let s3 := if left = 0 then
      let (lv, id) := logSession s2 q.src
      closeWindow 2 (logAppend 0xFFFE Status.authFailed.code q.src.code lv id (sha256 []) (now s2) s2)
    else s2
  complete q 0x0100 .authFailed (leBytes 1 left) s3

/-- The effect of `SESSION_OPEN`. -/
def sessionOpen (q : Req) (at_ : Nat) (s : State) : State :=
  let n := q.arg 8 1
  let good (lv : Level) (s : State) : State :=
    let s1 := logCmd 0x0100 q .ok at_ (startSession q.src lv s)
    answer 0x0100 q (leBytes 4 s1.sess.id ++ leBytes 1 s1.sess.level.code) s1
  if n = 0 then good .p1 s
  else if pwVerifies s q.pw then good .p2 { s with sess := { s.sess with fails := 0 } }
  else pwFailed q at_ s

/-- Tick at which a command was taken. -/
def takenAt (s : State) (op : Nat) (q : Req) : Nat := match takenOf s op q with | some t => t.at_ | none => now s

/-- `SESSION_OPEN`: P1. -/
def execSessionOpen (q : Req) (s : State) : Host.Outcome State Fault Refusal :=
  let q := entryOf 0x0100 q s
  let n := q.arg 8 1
  .next (serve .p1 0x0100 q
    (fun _ => { defs := [(8, 1), (0x0C, 32)], bad := (n != 0 && (n < 8 || 32 < n), 8) :: q.pwTail, out := 5, logs := false, nv := true })
    (fun s => sessionOpen q (takenAt s 0x0100 q) s) s)

/-- `SESSION_CLOSE`: P1S. -/
def execSessionClose (q : Req) (s : State) : Host.Outcome State Fault Refusal :=
  let q := entryOf 0x0101 q s
  .next (serve .p1s 0x0101 q (fun _ => {}) (fun s => answer 0x0101 q [] (endSession s)) s)

/-- Target offset, selector and data of a chunk (R325). -/
def Req.chunkOfs (q : Req) : Nat := leAt q.ibuf 0 4
/-- Object selector of a chunk. -/
def Req.chunkSel (q : Req) : Nat := leAt q.ibuf 4 4
/-- Data of a chunk. -/
def Req.chunkData (q : Req) : List Byte := q.ibuf.drop 8

/-- Offending items of a chunk into an object of a size; `base` is where the object starts in its store. -/
def Req.chunkBad (q : Req) (size : Nat) (selOk : Bool) : List (Bool × Nat) :=
  [(q.flag 0 && (q.ibuf.length < 9 || q.chunkOfs % 8 != 0 || !selOk || size < q.chunkOfs + q.chunkData.length), 0xFFFF)]

/-- Conditions of a chunk command. -/
def chunkNeeds (q : Req) (size : Nat) : Needs := { chunk := true, bad := q.chunkBad size (q.chunkSel == 0) }

/-- `CFG_STAGE`: P1S, 1 MiB. -/
def execCfgStage (q : Req) (s : State) : Host.Outcome State Fault Refusal :=
  let q := entryOf 0x0102 q s
  .next (serve .p1s 0x0102 q (fun _ => chunkNeeds q 1048576)
    (fun s => answer 0x0102 q [] { s with sess := { s.sess with cfg := some (Mem.writeBytes 0 (s.sess.cfg.getD []) q.chunkOfs q.chunkData)
                                                                cfgChecked := false, lost := false } }) s)

/-- The configuration file that the session would commit (R340, R358): the staged one, else the active one, with the staged timer
registers. -/
def stagedFile (s : State) : Mem 8 := mergeTmr (s.sess.cfg.getD (inForceCopy s s.nv.cfg).file) s.sess.tmr

/-- Has the session staged anything that changes the configuration file? -/
def stagesCfg (s : State) : Bool := s.sess.cfg.isSome || !s.sess.tmr.isEmpty

/-- The check of the staged configuration (R29, R340): against the checked staged image, else the active one. -/
def stagedCheck (s : State) : CfgRes :=
  match s.sess.imgChecked with
  | some im => checkCfg s (stagedFile s) (some im) s.image.toList
  | none => checkCfg s (stagedFile s) s.image []

/-- Does a check find the file itself unfit? -/
def CfgRes.isBad : CfgRes → Bool
  | .bad => true
  | .ok _ | .budget .. | .mismatch _ => false

/-- The outcome of its own that a check brings; an unfit file is `BAD_PARAMETER` and judged with it (R333, R340). -/
def CfgRes.refuse : CfgRes → Refuse
  | .ok _ | .bad => none
  | .budget g n a => some (.budgetExceeded, leBytes 1 g ++ [0#8, 0#8, 0#8] ++ leBytes 4 n ++ leBytes 4 a)
  | .mismatch g => some (.nodeMismatch, leBytes 2 g)

/-- `CFG_CHECK`: P1S. -/
def execCfgCheck (q : Req) (s : State) : Host.Outcome State Fault Refusal :=
  let q := entryOf 0x0103 q s
  .next (serve .p1s 0x0103 q (fun s => { bad := [((stagedCheck s).isBad, 0xFFFF)], own := (stagedCheck s).refuse, out := 4, logs := false })
    (fun s => answer 0x0103 q (leBytes 4 (readCfg (stagedFile s)).chk.toNat) { s with sess := { s.sess with cfgChecked := true } }) s)

/-- The calibration record that the session would commit (R434). -/
def stagedCal (s : State) : Cal :=
  let base := readCal (s.sess.cal.getD (inForceCopy s s.nv.cal).file)
  { base with overs := mergeOver base.overs s.sess.params }

/-- Is the staged calibration record in form and range, and its overrides (R353, R433, R434)? -/
def calFits (s : State) : Bool :=
  let c := stagedCal s
  (match s.sess.cal with | some m => calShape m | none => true) && c.overs.length ≤ 4096 &&
  (match s.image with | some im => overOk im c.overs | none => true)

/-- Has the session staged anything? -/
def stagesAny (s : State) : Bool := stagesCfg s || s.sess.cal.isSome || !s.sess.params.isEmpty

/-- The copies that a commit writes (R430, R433, R434): the inactive copy of each, with the next commit number; the password record
goes with the configuration. -/
def writeCopies (s : State) : State :=
  let nextOf (v : Vector NvCopy 2) : Nat := (inForceCopy s v).commit + 1
  let i := inactiveCopy s.nv.cfg
  let cfgCopy : NvCopy := { file := stagedFile s, commit := nextOf s.nv.cfg, pw := (pwRecord s).getD {} }
  let j := inactiveCopy s.nv.cal
  let calCopy : NvCopy := { file := buildCal (stagedCal s) (nextOf s.nv.cal), commit := nextOf s.nv.cal }
  { s with nv := { s.nv with cfg := if stagesCfg s then vset s.nv.cfg i cfgCopy else s.nv.cfg, cal := vset s.nv.cal j calCopy } }

/-- Is a firmware switch of supervisor or keeper in progress? -/
def switching (s : State) : Bool := s.sup.switchDue.isSome || s.keep.fwSwitchDue.isSome

/-- Accepts a commit: the copies are written, and the boundary is awaited. -/
def acceptCommit (q : Req) (s : State) : State :=
  let cfg := stagesCfg s
  let c := readCfg (stagedFile s)
  let s1 := writeCopies s
  schedule .commit (some q) { s1 with sess := { s1.sess with commitWait := true, commitCfg := cfg }
                                      cyc := { s1.cyc with tcycNext := if cfg then some c.tcyc else none
                                                           qtcycNext := if cfg then some c.qtcyc else none } }

/-- Conditions of `SESSION_COMMIT`; with nothing staged none but authority and state. -/
def commitNeeds (s : State) : Needs :=
  if !stagesAny s then { wrong := s.sess.lost, out := 16, logs := false }
  else
    { wrong := s.sess.lost || (!s.sess.commitWait && clashes s .commit), busy := s.sess.commitWait || switching s, out := 16, nv := true
      bad := [((stagesCfg s && (stagedCheck s).isBad) || !calFits s, 0xFFFF)], own := if stagesCfg s then (stagedCheck s).refuse else none }

/-- `SESSION_COMMIT`: P2. -/
def execSessionCommit (q : Req) (s : State) : Host.Outcome State Fault Refusal :=
  let q := entryOf 0x0104 q s
  .next (serve .p2 0x0104 q commitNeeds
    (fun s => if stagesAny s then acceptCommit q s
      else answer 0x0104 q (leBytes 8 s.cyc.num ++ leBytes 4 s.nv.inForce.chk.toNat ++ leBytes 4 (logIndexOf 0x0104 s)) s) s)

/-- Does a new password meet the rules of R421 and G3? -/
def pwRules (s : State) (pw : List Byte) : Bool :=
  let has (lo hi : Nat) : Bool := pw.any fun c => lo ≤ c.toNat && c.toNat ≤ hi
  let lower := has 0x61 0x7A
  let upper := has 0x41 0x5A
  let digit := has 0x30 0x39
  let other := has 0x20 0x2F || has 0x3A 0x40 || has 0x5B 0x60 || has 0x7B 0x7E
  let cls := pwClass s
  (pw.all fun c => 0x20 ≤ c.toNat && c.toNat ≤ 0x7E) && pwMin s ≤ pw.length && 8 ≤ pw.length &&
  (!bitOf cls 0 || lower) && (!bitOf cls 1 || upper) && (!bitOf cls 2 || digit) && (!bitOf cls 3 || other)

/-- Stores a new password: the salt is drawn, both tails are written (R421). -/
def storePw (pw : List Byte) (s : State) : State :=
  let salt := leBytes 16 (Config.salt s.free).toNat
  let r : PwRec := { salt := salt, iter := 100000, dk := pbkdf2 pw salt 100000, setSeq := s.log.n, crcOk := true }
  { s with nv := { s.nv with cfg := s.nv.cfg.map fun c => { c with pw := r } }, free := s.free + 1 }

/-- `PASSWD_SET`: P2, and P1S until the first password has been set (R331). -/
def execPasswdSet (q : Req) (s : State) : Host.Outcome State Fault Refusal :=
  let q := entryOf 0x0105 q s
  let n := q.arg 8 1
  .next (serve (if (pwRecord s).isNone then .p1s else .p2) 0x0105 q
    (fun s => { defs := [(8, 1), (0x0C, 32)], bad := [(n < 8 || 32 < n, 8)] ++ q.pwTail ++ [(!pwRules s q.pw, 0x0C)], nv := true })
    (fun s => answer 0x0105 q [] (storePw q.pw s)) s)

/-- The anchor as `CHANGELOG_READ` delivers it (R425). -/
def anchorBytes (s : State) : List Byte := leBytes 4 0 ++ leBytes 4 (anchorIdx s) ++ List.replicate 16 0#8 ++ padTo 32 s.log.anchorHash ++ List.replicate 8 0#8

/-- Records from an index, at most `n`: with index 0 the anchor first. -/
def logFrom (first n : Nat) (s : State) : List (List Byte) :=
  let es := (s.log.entries.filter fun e => first ≤ e.idx).map LogEntry.bytes
  ((if first = 0 then [anchorBytes s] else []) ++ es).take n

/-- `CHANGELOG_READ`: P0. -/
def execChangelogRead (q : Req) (s : State) : Host.Outcome State Fault Refusal :=
  let q := entryOf 0x0106 q s
  let n := q.arg 0x0C 2
  .next (serve .p0 0x0106 q
    (fun _ => { defs := [(8, 4), (0x0C, 2)], bad := [(n < 1 || 512 < n, 0x0C)], obuf := true, out := 64 * n, logs := false })
    (fun s => let l := logFrom (q.arg 8 4) n s
      completeWith q 0x0106 .ok (leBytes 2 l.length) (some l.flatten) false s) s)

/-- `CHANGELOG_HEAD`: P0. -/
def execChangelogHead (q : Req) (s : State) : Host.Outcome State Fault Refusal :=
  let q := entryOf 0x0107 q s
  .next (serve .p0 0x0107 q (fun _ => { out := 36, logs := false }) (fun s => answer 0x0107 q (leBytes 4 s.log.n ++ padTo 32 s.log.head) s) s)

/-! ### Safety program, 0x02xx (R341, R342, R435 to R439) -/

/-- The staged image region. -/
def stagedImg (s : State) : Mem 8 := vget s.nv.img (1 - s.nv.actImg)

/-- `IMG_WRITE`: P1S, 4 MiB. -/
def execImgWrite (q : Req) (s : State) : Host.Outcome State Fault Refusal :=
  let q := entryOf 0x0200 q s
  .next (serve .p1s 0x0200 q (fun _ => { chunkNeeds q 4194304 with nv := true })
    (fun s =>
      let s1 := { s with nv := { s.nv with img := vmod s.nv.img (1 - s.nv.actImg) fun m => Mem.writeBytes 0 m q.chunkOfs q.chunkData }
                         sess := { s.sess with imgChecked := none } }
      answer 0x0200 q [] (if (llOf s1 4).lane.isSome then endObserver 1 s1 else s1)) s)

/-- Acceptance of the staged image (R93, R95, R342, R538). -/
def stagedAccept (s : State) : Accept :=
  let c := readCfg (stagedFile s)
  let tcyc := if s.sess.cfgChecked then c.tcyc else s.cyc.tcyc
  let fore := if s.sess.cfgChecked then bitOf c.flags 0 else s.nv.inForce.fore
  acceptImage (stagedImg s) (slotHash s) tcyc fore s.image

/-- Refusal that an acceptance brings. -/
def Accept.refuse : Accept → Refuse
  | .ok _ => none
  | .bad r o => some (.badImage, leBytes 1 r ++ [0#8, 0#8, 0#8] ++ leBytes 4 o)
  | .budget g n a => some (.budgetExceeded, leBytes 1 g ++ [0#8, 0#8, 0#8] ++ leBytes 4 n ++ leBytes 4 a)

/-- `IMG_CHECK`: P1S. -/
def execImgCheck (q : Req) (s : State) : Host.Outcome State Fault Refusal :=
  let q := entryOf 0x0201 q s
  .next (serve .p1s 0x0201 q (fun s => { own := (stagedAccept s).refuse, out := 9, logs := false })
    (fun s =>
      match stagedAccept s with
      | .ok im =>
        let present := ((List.range 6).map fun g => at1 (im.graph g).present g).sum
        answer 0x0201 q (leBytes 4 im.id.toNat ++ leBytes 4 im.ver.toNat ++ leBytes 1 present) { s with sess := { s.sess with imgChecked := some im } }
      | _ => s) s)

/-- Items of two tables in order: each item of the new one against the old one's at its place, with the new item's offset; an old one that
is longer is reported at `cnt`, the offset of the new table's count. -/
def sameItems {α : Type} [BEq α] (cnt : Nat) : List α → List (α × Nat) → List (Bool × Nat)
  | [], [] => []
  | _ :: _, [] => [(false, cnt)]
  | [], (_, o) :: r => (false, o) :: sameItems cnt [] r
  | a :: l, (b, o) :: r => (a == b, o) :: sameItems cnt l r

/-- A graph that must not differ (R435): its directory entry, block words and signatures, and parameter entries, with offsets in the staged
image. -/
def graphChecks (b : Mem 8) (old new : Graph) (h : Nat) : List (Bool × Nat) :=
  let d := gdirOff h
  let blk := imgLe b d 4
  let par := imgLe b (d + 12) 4
  [(old.present == new.present, d), (old.blocks.length == new.blocks.length, d + 4), (old.swz == new.swz, d + 6),
   (old.slots == new.slots, d + 8), (old.pars.length == new.pars.length, d + 16)] ++
  sameItems (d + 4) (old.blocks.flatMap fun x => x.nodes ++ [x.sig])
    ((new.blocks.mapIdx fun i x => (x.nodes ++ [x.sig]).mapIdx fun j w => (w, blk + 520 * i + 8 * j)).flatten) ++
  sameItems (d + 16) old.pars (new.pars.mapIdx fun i e => (e, par + 8 * i))

/-- Difference rules of R435 between the active and the staged image for graph g, each item with its offset in the staged image. -/
def diffChecks (a b : Mem 8) (old new : Image) (g : Nat) : List (Bool × Nat) :=
  ([(0x0C, 4), (0x10, 1), (0x14, 4), (0x1C, 4)].map fun x => (imgLe a x.1 x.2 == imgLe b x.1 x.2, x.1)) ++
  ((List.range 6).filter (· != g)).flatMap (fun h => graphChecks b (old.graph h) (new.graph h) h) ++
  [((new.graph g).swz == new.swzO, gdirOff g + 6)] ++
  sameItems 0xC4 (old.own.filter (·.owner != g))
    ((new.own.mapIdx fun i e => (e, imgLe b 0xC0 4 + 8 * i)).filter fun p => p.1.owner != g) ++
  new.dif.mapIdx fun i e => (e.kind != 2 || (old.ownerOf e.cell).isNone, imgLe b 0xD0 4 + 8 * i)

/-- The lowest offset of a check that fails: the first item of the file that breaks a rule (R94). -/
def lowestFail (l : List (Bool × Nat)) : Option Nat := ((l.filter (!·.1)).map (·.2)).min?

/-- The active part of reason 0x0A judged again (R538), `BAD_IMAGE` 0x11 (R435), or the migration that does not fit P4 (R436). A kind 2
entry that fails R538 too is a difference rule, reason 0x11 (notes/assumptions/84.md). -/
def qualRefuse (s : State) (g : Nat) : Refuse :=
  match s.image, s.sess.imgChecked with
  | some old, some new =>
    match firstFail (migChecks (stagedImg s) new (some old)), lowestFail (diffChecks (vget s.nv.img s.nv.actImg) (stagedImg s) old new g) with
    | some o, _ => some (.badImage, leBytes 1 0x0A ++ [0#8, 0#8, 0#8] ++ leBytes 4 o)
    | none, some o => some (.badImage, leBytes 1 0x11 ++ [0#8, 0#8, 0#8] ++ leBytes 4 o)
    | none, none =>
      let p4 := periodTicks s.cyc.period * 1000 / 16 - 1000 - (commitTicks s.cyc.period * 1000 / 16 + 4000)
      let avail := (p4 - 2000) / 4
      if avail < new.mig.length then some (.budgetExceeded, leBytes 1 g ++ [0#8, 0#8, 0#8] ++ leBytes 4 new.mig.length ++ leBytes 4 avail) else none
  | _, _ => none

/-- `PROG_QUALIFY`: P1S. -/
def execProgQualify (q : Req) (s : State) : Host.Outcome State Fault Refusal :=
  let q := entryOf 0x0202 q s
  let g := q.arg 8 1
  let n := q.arg 0x0C 4
  .next (serve .p1s 0x0202 q
    (fun s =>
      let im := s.sess.imgChecked.getD {}
      { defs := [(8, 1), (0x0C, 4)], bad := [(3 < g, 8), (s.sess.imgChecked.isSome && n < im.qualMin, 0x0C)], out := 8
        wrong := s.sess.imgChecked.isNone || !(im.graph g).present || (spares s).isEmpty || (llOf s 4).lane.isSome || s.md.mstate != .run ||
          s.image.isNone || clashes s (.qualify g n)
        busy := s.sess.commitWait || switching s, own := qualRefuse s g })
    (schedule (.qualify g n) (some q)) s)

/-- Result bytes of `PROG_STATUS`. -/
def progData (s : State) : List Byte :=
  let x := s.lane.qual
  leBytes 1 x.state ++ leBytes 1 x.graph ++ [0#8, 0#8] ++ leBytes 4 x.counted ++ leBytes 4 x.noAgree ++ leBytes 2 x.firstDiff ++ leBytes 1 x.endReason

/-- `PROG_STATUS`: P0. -/
def execProgStatus (q : Req) (s : State) : Host.Outcome State Fault Refusal :=
  let q := entryOf 0x0203 q s
  .next (serve .p0 0x0203 q (fun _ => { out := 15, logs := false }) (fun s => answer 0x0203 q (progData s) s) s)

/-- `PROG_HANDOVER`: P2. -/
def execProgHandover (q : Req) (s : State) : Host.Outcome State Fault Refusal :=
  let q := entryOf 0x0204 q s
  let g := q.arg 8 1
  .next (serve .p2 0x0204 q
    (fun s => { defs := [(8, 1)], bad := [(3 < g, 8)], out := 8, nv := true
                wrong := s.lane.qual.state != 2 || s.lane.qual.graph != g || (llOf s 4).lane.isNone || clashes s (.handover g)
                busy := s.sess.commitWait })
    (schedule (.handover g) (some q)) s)

/-- `PROG_ABORT`: P1. -/
def execProgAbort (q : Req) (s : State) : Host.Outcome State Fault Refusal :=
  let q := entryOf 0x0205 q s
  .next (serve .p1 0x0205 q (fun s => { wrong := (llOf s 4).lane.isNone || clashes s .progAbort }) (schedule .progAbort (some q)) s)

/-- `PROG_LOAD`: P2. -/
def execProgLoad (q : Req) (s : State) : Host.Outcome State Fault Refusal :=
  let q := entryOf 0x0206 q s
  .next (serve .p2 0x0206 q
    (fun s => { out := 8, nv := true, wrong := s.md.mstate != .safeHold || s.sess.imgChecked.isNone || clashes s .progLoad, busy := s.sess.commitWait })
    (schedule .progLoad (some q)) s)

/-! ### Streams, 0x03xx (R319, R323, R343) -/

/-- May a push stream name the cell? -/
def pushCell (c : Nat) : Bool := ((c ≤ 0x2ABF) || (0x3000 ≤ c && c ≤ 0x40FF)) && !isReservedCell c

/-- Offending parameters of `STREAM_OPEN` (R319). -/
def streamBad (q : Req) (s : State) : List (Bool × Nat) :=
  let i := q.arg 8 1
  let x := streamOf q
  let n := q.arg 0x1C 1
  let sum := (x.ranges.map (·.2)).sum
  let ranges := (List.range 8).map fun k =>
    let c := q.arg (0x20 + 4 * k) 2
    let m := q.arg (0x22 + 4 * k) 2
    (if n ≤ k then c != 0 || m != 0
     else if x.pull then m = 0 || c < 0x29C0 || 0x2AC0 < c + m
     else m = 0 || 1024 < m || !((List.range m).all fun j => pushCell (c + j)), 0x20 + 4 * k)
  let pow := (List.range 16).any fun k => x.nrec == 2 ^ (k + 1)
  [(31 < i || (vget s.hp.streams i).open_, 8), (1 < q.arg 9 1, 9), (x.decim = 0, 0x0A), (x.decim ≤ x.phase, 0x0C),
   (!(x.sevtRing = 0xFF || (64 ≤ x.sevtRing && x.sevtRing ≤ 127)), 0x0E), (8 ≤ x.sflags, 0x0F),
   (if s.hp.qspi then !windowFree s none x.span else x.buf % 64 != 0, 0x10), (if x.pull then x.nrec != 1 else !pow, 0x18),
   (if x.pull then n != 1 else n < 1 || 8 < n, 0x1C)] ++ ranges ++ [(1024 < sum || pullShares s x, 0x20)]

/-- `BUDGET_EXCEEDED` of a stream. -/
def streamBudgetRefuse (q : Req) (s : State) : Refuse :=
  match streamsOver (modStream (q.arg 8 1) (fun _ => streamOf q) s) s.cyc.tcyc with
  | some (_, n) => some (.budgetExceeded, leBytes 1 (q.arg 8 1) ++ [0#8, 0#8, 0#8] ++ leBytes 4 n ++ leBytes 4 (streamBudget s))
  | none => none

/-- `STREAM_OPEN`: P0. -/
def execStreamOpen (q : Req) (s : State) : Host.Outcome State Fault Refusal :=
  let q := entryOf 0x0300 q s
  .next (serve .p0 0x0300 q
    (fun s => { defs := [(8, 0x15), (0x20, 32)], bad := (q.flag 0 || q.flag 1, 4) :: streamBad q s, own := streamBudgetRefuse q s })
    (schedule .streamOpen (some q)) s)

/-- `STREAM_CLOSE`: P0. -/
def execStreamClose (q : Req) (s : State) : Host.Outcome State Fault Refusal :=
  let q := entryOf 0x0301 q s
  let i := q.arg 8 1
  .next (serve .p0 0x0301 q (fun s => { defs := [(8, 1)], bad := [(31 < i, 8)], out := 8, wrong := !(vget s.hp.streams i).open_ })
    (schedule .streamClose (some q)) s)

/-- Result bytes of `STREAM_INFO`. -/
def streamData (x : Stream) : List Byte :=
  leBytes 1 (b2n x.pull) ++ [0#8] ++ leBytes 2 x.decim ++ leBytes 2 x.phase ++ [0#8, 0#8] ++ leBytes 4 x.nrec ++ leBytes 4 x.size

/-- `STREAM_INFO`: P0. -/
def execStreamInfo (q : Req) (s : State) : Host.Outcome State Fault Refusal :=
  let q := entryOf 0x0302 q s
  let i := q.arg 8 1
  .next (serve .p0 0x0302 q (fun _ => { defs := [(8, 1)], bad := [(31 < i, 8)], out := 16, logs := false })
    (fun s => answer 0x0302 q (streamData (vget s.hp.streams i)) s) s)

end Sys2Proof.Machine
end

