-- ==== Sys2Proof/Machine/Super.lean ====
section
/-! DEFINITION. The supervisor's own states (R315, R422, R441): it stops and serves again while the data path continues. -/

namespace Sys2Proof.Machine

/-- The supervisor changes its state (R313, R315, R376, R396): the firmware's own event is posted while it serves, `HP_EVT.SUP_CHG`, the
host event and the journal record by hardware and keeper. -/
def supChange (new : SupState) (s : State) : State :=
  let old := s.sup.sup
  if new = old then s
  else
    let data := leBytes 1 old.code ++ leBytes 1 new.code
    let ev := fun (s : State) => postEv 0x0201 (b2n s.sup.bank) data s
    let s1 := if old = .serving then ev s else s
    let s2 := { s1 with sup := { s1.sup with sup := new } }
    let s3 := if new = .serving then ev s2 else s2
    journal 0x0006 3 (data ++ leBytes 1 (b2n s3.sup.bank)) (hostEvent 0x0002 (data ++ leBytes 1 (b2n s3.sup.bank)) (hpEvt 1 s3))

/-- What the supervisor's memory held is lost (R391, R422): staged configuration, calibration and parameter changes, with a note in the
session, and the Loupe cursors. -/
def supForget (s : State) : State :=
  let x := s.sess
  let had := x.owner.isSome && (x.cfg.isSome || x.cal.isSome || !x.params.isEmpty || !x.tmr.isEmpty)
  { s with sess := { x with cfg := none, cfgChecked := false, cal := none, params := [], tmr := [], lost := x.lost || had }
           evr := { s.evr with cursors := Vector.replicate 8 none } }

/-- The supervisor leaves `SUP` = 1, or changes between the states in which it does not serve. -/
def supStop (new : SupState) (s : State) : State := if s.sup.sup = .serving then supForget (supChange new s) else supChange new s

/-- Whatever a command had asked for and what is not committed is withdrawn (R315): no side effect remains. -/
def withdraw (q : Req) (s : State) : State :=
  let is (x : Req) : Bool := x.src == q.src && x.tag == q.tag
  let gone := s.sup.acts.filter fun a => match a.q with | some x => is x | none => false
  let s1 := { s with sup := { s.sup with acts := s.sup.acts.filter fun a => match a.q with | some x => !is x | none => true
                                         waitHold := s.sup.waitHold.filter fun x => !is x
                                         waitAck := s.sup.waitAck.filter fun x => !is x.2
                                         waitDisc := s.sup.waitDisc.filter fun x => !is x.2
                                         waitAct := s.sup.waitAct.filter fun x => !is x.2 } }
  if gone.any fun a => a.kind == .commit then voidCommit s1 else s1

/-- A command that was executing when the supervisor stopped completes (R315, R441): `OK` without inline results when its effect was
committed, else `ABORTED`; a firmware switch as it went. -/
def afterStop (t : Taken) (s : State) : State :=
  match s.sup.committed.find? (fun q => t.isOf q) with
  | some q => completeWith q t.opcode .ok [] none false s
  | none =>
    let q : Req := { src := t.src, tag := t.tag }
    match s.sup.switchReq with
    | some w =>
      if t.isOf w then
        (if s.sup.switchFailed then completeWith w t.opcode .badImage (leBytes 1 0x10 ++ List.replicate 7 0#8) none false s
         else completeWith w t.opcode .ok [] none false s)
      else completeWith q t.opcode .aborted [] none false (withdraw q s)
    | none => completeWith q t.opcode .aborted [] none false (withdraw q s)

/-- The supervisor reaches `SUP` = 1. -/
def supServe (s : State) : State :=
  if s.sup.sup = .serving then s
  else
    let s1 := supChange .serving s
    let s2 := s1.sup.taken.foldl (fun s t => afterStop t s) s1
    { s2 with sup := { s2.sup with committed := [], switchDue := none, switchReq := none, switchFailed := false
                                   ver := Config.supVersion (vget s2.nv.sup (b2n s2.sup.bank)) } }

/-- `SUP` of a stop. -/
def StopKind.state : StopKind → SupState
  | .halt => .halted | .restart => .restarting | .update => .updating

/-- `SUPERVISOR_STOP`: the supervisor halts, restarts or updates; the data path goes on (R14, R315). -/
def execSupervisorStop (k : StopKind) (s : State) : Host.Outcome State Fault Refusal := .next (supStop k.state s)

/-- Can the supervisor run: powered, its clock locked, a bank booted (R315, R466, R467)? -/
def supRuns (s : State) : Bool :=
  s.pwr.xoOk && (s.pwr.supLock || s.pwr.supPllOff) && !s.md.scrapped &&
  match s.md.mstate with | .off | .shuttingDown => false | .starting => 5 ≤ s.md.startStep | .fault => s.md.cause != 0x23#8 | _ => true

/-- `SUPERVISOR_SERVING`. -/
def execSupervisorServing (s : State) : Host.Outcome State Fault Refusal := .next (if supRuns s then supServe s else s)

/-- `SUP_SWITCH_TIMEOUT` (R441): the preferred bank does not serve within 10 s; the keeper restarts from the other bank and returns the
preference to it. -/
def execSupSwitchTimeout (s : State) : Host.Outcome State Fault Refusal :=
  .next (match s.sup.switchDue with
    | none => s
    | some d =>
      let s1 := advanceTo d s
      let old := !s1.sup.bank
      let s2 := { s1 with sup := { s1.sup with bank := old, prefer := old, switchDue := none, switchFailed := true, otherChecked := false } }
      let code := leBytes 1 s2.sup.sup.code
      if s2.sup.sup = .restarting then journal 0x0006 3 (code ++ code ++ leBytes 1 (b2n old)) s2 else supChange .restarting s2)

end Sys2Proof.Machine
end

