-- ==== Sys2Proof/Machine/CmdState.lean ====
section
/-! DEFINITION. The supervisor commands of groups 0x04 to 0x07 (13_commands R344 to R349): diagnostics and state, event recorder,
firmware and microcode, lanes and Prism mode. -/

namespace Sys2Proof.Machine

/-! ### Diagnostics and state, 0x04xx (R344, R345) -/

/-- Result bytes of `DIAG_SUMMARY`. -/
def diagData (s : State) : List Byte :=
  words [s.cyc.evt.toNat, s.lane.evt.toNat, s.mm.evt.toNat, s.inp.evt.toNat, s.out.evt.toNat, s.ring.evt.toNat, s.xl.evt.toNat,
         s.tmr.evt.toNat, grpSt s 0, grpSt s 1, laneMap s]

/-- `DIAG_SUMMARY`: P0. -/
def execDiagSummary (q : Req) (s : State) : Host.Outcome State Fault Refusal :=
  let q := entryOf 0x0400 q s
  .next (serve .p0 0x0400 q (fun _ => { out := 44, logs := false }) (fun s => answer 0x0400 q (diagData s) s) s)

/-- The newest journal record of a kind. -/
def newestKind (k : Nat) (s : State) : Option KRec := (s.keep.journal.filter (·.kind == k)).getLast?

/-- Result bytes of `BIST_RESULTS`. -/
def bistData (s : State) : List Byte :=
  let lanes := s.lane.lanes.toList.flatMap fun l => leBytes 1 l.bistRes
  let units (r : Nat) : Nat := ((List.range 18).map fun k => at1 ((vget s.mm.units k).bistRes == r) k).sum
  let shut := newestKind 0x0003 s
  layout [(0, lanes), (8, leBytes 4 (units 1)), (12, leBytes 4 (units 2)),
    (16, leBytes 1 (match shut with | some r => (lget r.data 1 0).toNat | none => 0)),
    (20, leBytes 8 (match shut with | some r => r.tbase | none => 0)), (28, leBytes 1 (b2n s.md.startFull))]

/-- `BIST_RESULTS`: P0. -/
def execBistResults (q : Req) (s : State) : Host.Outcome State Fault Refusal :=
  let q := entryOf 0x0401 q s
  .next (serve .p0 0x0401 q (fun _ => { out := 29, logs := false }) (fun s => answer 0x0401 q (bistData s) s) s)

/-- `HOLD`: P0. The cause 0x13 is found; the command completes at the next commit point. -/
def execHold (q : Req) (s : State) : Host.Outcome State Fault Refusal :=
  let q := entryOf 0x0402 q s
  .next (serve .p0 0x0402 q (fun _ => {})
    (fun s => let s1 := findCause 0x13 s; { s1 with sup := { s1.sup with waitHold := s1.sup.waitHold ++ [q] } }) s)

/-- `HOLD_ACK`: P1 (R25). -/
def execHoldAck (q : Req) (s : State) : Host.Outcome State Fault Refusal :=
  let q := entryOf 0x0403 q s
  .next (serve .p1 0x0403 q (fun s => { wrong := s.md.mstate != .safeHold || !causesGone s || clashes s .holdAck }) (schedule .holdAck (some q)) s)

/-- `QUIET_ENTER`: P0 (R22, R345). -/
def execQuietEnter (q : Req) (s : State) : Host.Outcome State Fault Refusal :=
  let q := entryOf 0x0404 q s
  .next (serve .p0 0x0404 q
    (fun s => { out := 8, wrong := s.md.mstate != .run || (s.xl.joined && !s.xl.acting) || clashes s .quietEnter })
    (fun s => schedule .quietEnter (some q) { s with xl := { s.xl with quietReq := onCarrier s } }) s)

/-- `QUIET_EXIT`: P0 (R23, R345). -/
def execQuietExit (q : Req) (s : State) : Host.Outcome State Fault Refusal :=
  let q := entryOf 0x0405 q s
  .next (serve .p0 0x0405 q (fun s => { out := 8, wrong := s.md.mstate != .quiet || clashes s .quietExit })
    (fun s => schedule .quietExit (some q) { s with md := { s.md with quietExit := true } }) s)

/-- A group's acknowledgement that needs the closing master test first (R217, R480). -/
def ackNeedsTest (s : State) (g : Nat) : Bool := let x := vget s.out.grps g; 4 ∈ x.latches || !x.startOk

/-- `GROUP_ACK`: P1. With a failed master test latched, or a group that started cut, the next test window decides it. -/
def execGroupAck (q : Req) (s : State) : Host.Outcome State Fault Refusal :=
  let q := entryOf 0x0406 q s
  let g := q.arg 8 1
  .next (serve .p1 0x0406 q (fun s => { defs := [(8, 1)], bad := [(1 < g, 8)], out := 4, wrong := !ackReady s g })
    (fun s =>
      if ackNeedsTest s g then { s with sup := { s.sup with waitAck := s.sup.waitAck ++ [(g, q)] } }
      else let s1 := ackGroup g s; answer 0x0406 q (leBytes 4 (grpSt s1 g)) s1) s)

/-- `RESTART`: P1. It completes first; the module enters `SHUTTING_DOWN` once the completion is written, or at once where none is. -/
def execRestart (q : Req) (s : State) : Host.Outcome State Fault Refusal :=
  let q := entryOf 0x0407 q s
  .next (serve .p1 0x0407 q (fun _ => { defs := [(8, 1)], bad := [(q.arg 8 1 != 0, 8)] })
    (fun s =>
      let s1 := completeWith q 0x0407 .ok [] none true s
      if s1.hp.cpls.any (·.restart) then s1 else { s1 with md := { s1.md with shutReq := some .restart } }) s)

/-! ### Event recorder, 0x05xx (R346, R390, R391) -/

/-- Records present of a class, in rising `SEQ`. -/
def presentRecs (safety : Bool) (s : State) : List EvRec := if safety then s.evr.recS else s.evr.recK ++ s.evr.recC

/-- Sequence number that follows the newest record of a class. -/
def nextSeq (safety : Bool) (s : State) : Nat := (if safety then s.evr.seqS else s.evr.seqO) + 1

/-- Oldest `SEQ` present, or the next one when there is none. -/
def oldestSeq (safety : Bool) (s : State) : Nat := (((presentRecs safety s).head?).map (·.seq)).getD (nextSeq safety s)

/-- Position at which a cursor opens (R346, R390). -/
def openPos (safety : Bool) (start v : Nat) (s : State) : Nat :=
  let l := presentRecs safety s
  let newest := match l.getLast? with | some r => r.seq | none => 0
  match start with
  | 0 => oldestSeq safety s
  | 1 => match l.getLast? with | some r => r.seq | none => nextSeq safety s
  | 2 => match l.find? (v ≤ ·.seq) with | some r => r.seq | none => if l.isEmpty then nextSeq safety s else newest + 1
  | _ => match l.find? (v ≤ ·.first) with | some r => r.seq | none => if l.isEmpty then nextSeq safety s else newest + 1

/-- Puts a cursor. -/
def putCursor (i : Nat) (c : Option Cursor) (s : State) : State := { s with evr := { s.evr with cursors := vset s.evr.cursors i c } }

/-- `LOUPE_OPEN`: P0. -/
def execLoupeOpen (q : Req) (s : State) : Host.Outcome State Fault Refusal :=
  let q := entryOf 0x0500 q s
  let i := q.arg 8 1
  let cls := q.arg 9 1
  let st := q.arg 0x0A 1
  .next (serve .p0 0x0500 q
    (fun _ => { defs := [(8, 3), (0x10, 8)], bad := [(7 < i, 8), (1 < cls, 9), (3 < st, 0x0A)], out := 4, logs := false })
    (fun s => let p := openPos (cls == 0) st (q.arg 0x10 8) s
      answer 0x0500 q (leBytes 4 p) (putCursor i (some { safety := cls == 0, pos := p }) s)) s)

/-- The records that a read delivers. -/
def loupeRecs (n : Nat) (c : Cursor) (s : State) : List EvRec := ((presentRecs c.safety s).filter (c.pos ≤ ·.seq)).take n

/-- Delivery of a read (R390, R391). -/
def loupeRead (q : Req) (i n : Nat) (c : Cursor) (s : State) : State :=
  if c.overrun then
    let p := oldestSeq c.safety s
    complete q 0x0501 .cursorOverrun (leBytes 4 p) (putCursor i (some { c with pos := p, overrun := false }) s)
  else
    let l := loupeRecs n c s
    let s1 := match l.getLast? with | some r => putCursor i (some { c with pos := r.seq + 1 }) s | none => s
    let s2 := if l.any (·.crcBad) then evrEvt 5 s1 else s1
    let count := leBytes 2 l.length
    let recs := l.flatMap EvRec.bytes
    if q.flag 1 then completeWith q 0x0501 .ok count (some recs) false s2
    else complete q 0x0501 .ok (if l.isEmpty then count else count ++ [0#8, 0#8] ++ recs) s2

/-- Does a page hold a record that the read would deliver? -/
def loupeTouches (n : Nat) (c : Cursor) (page : Nat) (s : State) : Bool :=
  (loupeRecs n c s).any fun r => match slotOfRec c.safety r.seq s.evr with | some (a, k) => pageOf a k == page | none => false

/-- Pages that fail under the read are remapped before it delivers (R392). -/
def loupeFaults (n : Nat) (c : Cursor) (faults : List PageFault) (s : State) : State :=
  if c.overrun then s else faults.foldl (fun s x => if loupeTouches n c x.page.val s then readFault x s else s) s

/-- `LOUPE_READ`: P0; `faults` are the uncorrectable words that the read meets. -/
def execLoupeRead (q : Req) (faults : List PageFault) (s : State) : Host.Outcome State Fault Refusal :=
  let q := entryOf 0x0501 q s
  let i := q.arg 8 1
  let n := q.arg 0x0A 2
  .next (serve .p0 0x0501 q
    (fun s => { defs := [(8, 1), (0x0A, 2)], bad := [(7 < i, 8), (n < 1 || 32 < n, 0x0A)], obuf := decide (2 ≤ n)
                out := if q.flag 1 then 32 * n else 36, wrong := decide (i ≤ 7) && (vget s.evr.cursors i).isNone, logs := false })
    (fun s => match vget s.evr.cursors i with | some c => loupeRead q i n c (loupeFaults n c faults s) | none => s) s)

/-- `LOUPE_CLOSE`: P0. -/
def execLoupeClose (q : Req) (s : State) : Host.Outcome State Fault Refusal :=
  let q := entryOf 0x0502 q s
  let i := q.arg 8 1
  .next (serve .p0 0x0502 q (fun _ => { defs := [(8, 1)], bad := [(7 < i, 8)], logs := false }) (fun s => answer 0x0502 q [] (putCursor i none s)) s)

/-- Result bytes of `LOG_STATUS`. -/
def logStatusData (s : State) : List Byte :=
  let e := s.evr
  words [e.recS.length, e.recK.length + e.recC.length, e.seqS, e.seqO, e.qovf.toNat] ++ leBytes 1 e.remap.length ++ leBytes 1 (b2n e.konly)

/-- `LOG_STATUS`: P0. -/
def execLogStatus (q : Req) (s : State) : Host.Outcome State Fault Refusal :=
  let q := entryOf 0x0503 q s
  .next (serve .p0 0x0503 q (fun _ => { out := 22, logs := false }) (fun s => answer 0x0503 q (logStatusData s) s) s)

/-- Clears the circulating operational area (R385, R389): records removed, their pending repeats discarded, the event written. -/
def clearLog (s : State) : State :=
  let gone := s.evr.recC.map (·.seq)
  let hi := gone.foldl max 0
  let e := s.evr
  let e1 := { e with recC := [], coO := e.coO.filter fun c => !(c.seq ∈ gone)
                     cursors := if gone.isEmpty then e.cursors else markCursors false 0 hi e.cursors }
  postEv 0x0B05 1 (leBytes 4 gone.length) (evrEvt 7 { s with evr := e1 })

/-- `LOG_CLEAR`: P1, operational class only. -/
def execLogClear (q : Req) (s : State) : Host.Outcome State Fault Refusal :=
  let q := entryOf 0x0504 q s
  .next (serve .p1 0x0504 q (fun _ => { defs := [(8, 1)], bad := [(q.arg 8 1 != 1, 8)], out := 4, nv := true })
    (fun s => answer 0x0504 q (leBytes 4 s.evr.recC.length) (clearLog s)) s)

/-! ### Firmware and microcode, 0x06xx (R347, R348, R441 to R443) -/

/-- The bank that does not run. -/
def otherBank (s : State) : Nat := b2n (!s.sup.bank)

/-- `SUP_FW_WRITE`: P1S, 4 MiB. -/
def execSupFwWrite (q : Req) (s : State) : Host.Outcome State Fault Refusal :=
  let q := entryOf 0x0600 q s
  .next (serve .p1s 0x0600 q (fun _ => { chunkNeeds q 4194304 with nv := true })
    (fun s => answer 0x0600 q [] { s with nv := { s.nv with sup := vmod s.nv.sup (otherBank s) fun m => Mem.writeBytes 0 m q.chunkOfs q.chunkData }
                                          sup := { s.sup with otherChecked := false } }) s)

/-- `BAD_IMAGE` of a firmware image: its signature fails, or its version lies below a floor (R348). -/
def fwRefuse (signed : Bool) (ver floor : Nat) : Refuse :=
  let data (r : Nat) : List Byte := leBytes 1 r ++ List.replicate 7 0#8
  if !signed then some (.badImage, data 0x02) else if ver < floor then some (.badImage, data 0x0F) else none

/-- `SUP_FW_CHECK`: P1S. -/
def execSupFwCheck (q : Req) (s : State) : Host.Outcome State Fault Refusal :=
  let q := entryOf 0x0601 q s
  .next (serve .p1s 0x0601 q
    (fun s => let m := vget s.nv.sup (otherBank s)
      { out := 2, logs := false, own := fwRefuse (Config.supSigned m) (Config.supVersion m).toNat (supMin s) })
    (fun s => answer 0x0601 q (le2 (Config.supVersion (vget s.nv.sup (otherBank s))).toNat) { s with sup := { s.sup with otherChecked := true } }) s)

/-- The supervisor restarts from the checked bank, which must serve within 10 s (R441). -/
def fwSwitch (q : Req) (s : State) : State :=
  let s1 := supStop .updating { s with sup := { s.sup with switchDue := some (now s + msTicks 10000), switchReq := some q, switchFailed := false } }
  { s1 with sup := { s1.sup with bank := !s1.sup.bank, prefer := !s1.sup.bank } }

/-- `SUP_FW_SWITCH`: P2. -/
def execSupFwSwitch (q : Req) (s : State) : Host.Outcome State Fault Refusal :=
  let q := entryOf 0x0602 q s
  .next (serve .p2 0x0602 q (fun s => { wrong := !s.sup.otherChecked, busy := s.sess.commitWait || switching s, nv := true }) (fwSwitch q) s)

/-- `UCODE_WRITE`: P1S, 256 KiB. -/
def execUcodeWrite (q : Req) (s : State) : Host.Outcome State Fault Refusal :=
  let q := entryOf 0x0603 q s
  .next (serve .p1s 0x0603 q (fun _ => { chunkNeeds q 262144 with nv := true })
    (fun s => answer 0x0603 q [] { s with nv := { s.nv with ucode := Mem.writeBytes 0 s.nv.ucode q.chunkOfs q.chunkData } }) s)

/-- `UCODE_ROLL`: P2. It completes at acceptance; the lanes are loaded one per rotation (R80, R443). -/
def execUcodeRoll (q : Req) (s : State) : Host.Outcome State Fault Refusal :=
  let q := entryOf 0x0604 q s
  .next (serve .p2 0x0604 q
    (fun s => { out := 1, busy := s.lane.roll.isSome, nv := true
                own := fwRefuse (Config.ucodeSigned s.nv.ucode) (Config.ucodeVersion s.nv.ucode).toNat (ucMin s) })
    (fun s =>
      let v := Config.ucodeVersion s.nv.ucode
      answer 0x0604 q (leBytes 1 v.toNat) (endRoll { s with lane := { s.lane with roll := some v }, keep := { s.keep with targetUcode := v } })) s)

/-- `KEEPER_FW_WRITE`: P1S, 256 KiB. -/
def execKeeperFwWrite (q : Req) (s : State) : Host.Outcome State Fault Refusal :=
  let q := entryOf 0x0605 q s
  .next (serve .p1s 0x0605 q (fun _ => { chunkNeeds q 262144 with nv := true })
    (fun s => answer 0x0605 q [] { s with nv := { s.nv with kfw := Mem.writeBytes 0 s.nv.kfw q.chunkOfs q.chunkData } }) s)

/-- May the keeper switch its firmware (R442)? -/
def keeperMay (s : State) : Bool :=
  (s.md.mstate == .run || s.md.mstate == .quiet || s.md.mstate == .safeHold) && 2000 ≤ s.pwr.vlog.toNat &&
  Config.keeperSigned s.nv.kfw && kpMin s ≤ (Config.keeperVersion s.nv.kfw).toNat

/-- `KEEPER_FW_SWITCH`: P2. The keeper is silent until its new firmware is ready, 2 s at most (R442); the LEDs hold their patterns
(R502). -/
def execKeeperFwSwitch (q : Req) (s : State) : Host.Outcome State Fault Refusal :=
  let q := entryOf 0x0606 q s
  .next (serve .p2 0x0606 q
    (fun s => { out := 2, wrong := !keeperMay s, nv := true
                busy := (llOf s 4).lane.isSome || s.lane.roll.isSome || s.sess.commitWait || switching s })
    (fun s => { s with keep := { s.keep with fwSwitchDue := some (now s + msTicks 2000), fwSwitchReq := some q
                                             fwNewVer := Config.keeperVersion s.nv.kfw }
                       md := { s.md with ledHold := some (leds s) } }) s)

/-! ### Lanes and Prism mode, 0x07xx (R349) -/

/-- Result bytes of `LANE_STATUS`. -/
def laneData (s : State) : List Byte := words ([laneMap s, laneRegion s] ++ (List.range 5).map (lanePl s) ++ [laneRot s])

/-- `LANE_STATUS`: P0. -/
def execLaneStatus (q : Req) (s : State) : Host.Outcome State Fault Refusal :=
  let q := entryOf 0x0700 q s
  .next (serve .p0 0x0700 q (fun _ => { out := 32, logs := false }) (fun s => answer 0x0700 q (laneData s) s) s)

/-- Does the active image hold a Prism graph? -/
def hasPrism (s : State) : Bool := match s.image with | some im => (im.graph 4).present || (im.graph 5).present | none => false

/-- `PRISM_ENTER`: P1 (R83). -/
def execPrismEnter (q : Req) (s : State) : Host.Outcome State Fault Refusal :=
  let q := entryOf 0x0701 q s
  .next (serve .p1 0x0701 q (fun s => { out := 8, wrong := noPrism s || (spares s).isEmpty || !hasPrism s || clashes s .prismEnter })
    (schedule .prismEnter (some q)) s)

/-- `PRISM_EXIT`: P0 (R85). -/
def execPrismExit (q : Req) (s : State) : Host.Outcome State Fault Refusal :=
  let q := entryOf 0x0702 q s
  .next (serve .p0 0x0702 q (fun s => { out := 8, wrong := (laneIn s .prism).isNone || clashes s .prismExit }) (schedule .prismExit (some q)) s)

/-- `LL_RESEED`: P1 (R72). -/
def execLlReseed (q : Req) (s : State) : Host.Outcome State Fault Refusal :=
  let q := entryOf 0x0703 q s
  let i := q.arg 8 1
  .next (serve .p1 0x0703 q (fun s => { defs := [(8, 1)], bad := [(3 < i, 8)], out := 8, wrong := !(llOf s i).stateFault || clashes s (.reseed i),
                                          test := llTest s i })
    (schedule (.reseed i) (some q)) s)

/-- `LANE_ROTATE`: P1. It sets `LANE_ROT.DUE` (R76, R77). -/
def execLaneRotate (q : Req) (s : State) : Host.Outcome State Fault Refusal :=
  let q := entryOf 0x0704 q s
  .next (serve .p1 0x0704 q (fun _ => { out := 1 })
    (fun s => let s1 := { s with lane := { s.lane with rotDue := true } }
      answer 0x0704 q (leBytes 1 ((nextRelieved s1).getD 7)) s1) s)

end Sys2Proof.Machine
end

