-- ==== Sys2Proof/Machine/CmdNet.lean ====
section
/-! DEFINITION. The supervisor commands of groups 0x08 to 0x0D (13_commands R350 to R362): rings and nodes, calibration, register
window, time and timers, cross-link and pair, fuses. -/

namespace Sys2Proof.Machine

/-! ### Rings and nodes, 0x08xx (R350, R351, R252 to R255) -/

/-- `RING_DISCOVER`: P0. A discovery of 4 ring periods (R247); the command completes at its end. -/
def execRingDiscover (q : Req) (s : State) : Host.Outcome State Fault Refusal :=
  let q := entryOf 0x0800 q s
  let k := q.arg 8 1
  .next (serve .p0 0x0800 q
    (fun s => { defs := [(8, 1)], bad := [(1 < k, 8)], out := 2, logs := false, wrong := !(ringOf s k).sched || !(ringOf s k).master })
    (fun s =>
      let start (s : State) : State := if (ringOf s k).disc.isSome then s
        else startDisc k (modRing k (fun r => { r with found := r.found.filter fun x => (slotOfUid s k x.uid).isSome }) s)
      start { s with sup := { s.sup with waitDisc := s.sup.waitDisc ++ [(k, q)] } }) s)

/-- One entry of `NODE_LIST`. -/
def nodeEntry (x : Ident) : List Byte := leBytes 8 x.uid ++ leBytes 2 x.ntype ++ leBytes 2 x.pos ++ leBytes 4 x.fwVer

/-- `NODE_LIST`: P0, the nodes that the last discovery found. -/
def execNodeList (q : Req) (s : State) : Host.Outcome State Fault Refusal :=
  let q := entryOf 0x0801 q s
  let k := q.arg 8 1
  .next (serve .p0 0x0801 q
    (fun s => { defs := [(8, 1)], bad := [(1 < k, 8)], obuf := true, out := 16 * (ringOf s k).found.length, logs := false })
    (fun s => let l := (ringOf s k).found
      completeWith q 0x0801 .ok (leBytes 2 l.length) (some (l.flatMap nodeEntry)) false s) s)

/-- Is a UID configured in a slot of either ring? -/
def uidConfigured (s : State) (uid : Nat) : Bool := (slotOfUid s 0 uid).isSome || (slotOfUid s 1 uid).isSome

/-- `NO_NODE` and `NODE_MISMATCH` of an adoption (R252). -/
def adoptRefuse (s : State) (k i uid : Nat) : Refuse :=
  match (ringOf s k).found.find? (·.uid == uid) with
  | none => some (.noNode, le2 (256 * k + i))
  | some x => if x.ntype = (nodeOf s (256 * k + i)).ntype then none else some (.nodeMismatch, le2 (256 * k + i))

/-- `ADOPT`: P1 (R252). -/
def execAdopt (q : Req) (s : State) : Host.Outcome State Fault Refusal :=
  let q := entryOf 0x0802 q s
  let k := q.arg 8 1
  let i := q.arg 9 1
  let uid := q.arg 0x10 8
  .next (serve .p1 0x0802 q
    (fun s =>
      let n := nodeOf s (256 * k + i)
      { defs := [(8, 2), (0x10, 8)], bad := [(1 < k, 8)], out := 8
        wrong := !(n.conn == 1 || n.conn == 6) || uidConfigured s uid || clashes s (.adopt (256 * k + i) uid)
        own := adoptRefuse s k i uid })
    (fun s => schedule (.adopt (256 * k + i) uid) (some q)
      { s with log := { s.log with adopted := s.log.adopted ++ [(s.log.n, 256 * k + i, (nodeOf s (256 * k + i)).uid, uid)] } }) s)

/-- The header of a node firmware image at a place of the repository (R253): type, version, bytes after the header; none without
its magic and a length in range that fits the repository. -/
def nfwHeader (m : Mem 8) (o : Nat) : Option (Nat × Nat × Nat) :=
  let len := imgLe m (o + 12) 4
  if imgLe m o 4 = 0x57464E55 ∧ imgLe m (o + 6) 2 = 0 ∧ 1 ≤ len ∧ len ≤ 1048576 ∧ o + 48 + len ≤ 4194304 then some (imgLe m (o + 4) 2, imgLe m (o + 8) 4, len) else none

/-- `BAD_IMAGE` for a node firmware image. -/
def nfwBad : Refuse := some (.badImage, leBytes 1 0x12 ++ List.replicate 7 0#8)

/-- The repository with a chunk of `NFW_STORE` in it. -/
def nfwStored (q : Req) (s : State) : Mem 8 := Mem.writeBytes 0 s.nv.nodeFw (q.chunkSel + q.chunkOfs) q.chunkData

/-- Does the chunk bring the last byte of a field of the image? -/
def chunkEnds (q : Req) (e : Nat) : Bool := q.chunkOfs < e && e ≤ q.chunkOfs + q.chunkData.length

/-- Refusals of `NFW_STORE` (R94, R253): each part of the header is judged with the chunk that completes it, `DIGEST` with the chunk that
completes the code (notes/assumptions/86.md). -/
def nfwStoreRefuse (q : Req) (s : State) : Refuse :=
  let m := nfwStored q s
  let le (o n : Nat) : Nat := Mem.readLe 0 m (q.chunkSel + o) n
  let len := le 0x0C 4
  let head := (chunkEnds q 4 && le 0 4 != 0x57464E55) || (chunkEnds q 8 && le 6 2 != 0) ||
    (chunkEnds q 0x10 && (len = 0 || 1048576 < len || 4194304 < q.chunkSel + 48 + len))
  let code := chunkEnds q (48 + len) && len ≤ 1048576 && le 0 4 == 0x57464E55 &&
    sha256 (Mem.readBytes 0 m (q.chunkSel + 48) len) != Mem.readBytes 0 m (q.chunkSel + 16) 32
  if head || code then nfwBad else none

/-- `NFW_STORE`: P1S; the selector is the image start. -/
def execNfwStore (q : Req) (s : State) : Host.Outcome State Fault Refusal :=
  let q := entryOf 0x0803 q s
  .next (serve .p1s 0x0803 q
    (fun s => { chunk := true, bad := q.chunkBad (4194304 - q.chunkSel) (q.chunkSel % 4096 == 0), nv := true, own := nfwStoreRefuse q s })
    (fun s => answer 0x0803 q [] { s with nv := { s.nv with nodeFw := nfwStored q s } }) s)

/-- Refusals of `NFW_SEND` (R253, R351). -/
def nfwRefuse (s : State) (g start : Nat) : Refuse :=
  match nfwHeader s.nv.nodeFw start with
  | none => nfwBad
  | some (ty, _, len) =>
    if sha256 (Mem.readBytes 0 s.nv.nodeFw (start + 48) len) != Mem.readBytes 0 s.nv.nodeFw (start + 16) 32 then nfwBad
    else if ty ≠ (nodeOf s g).ntype then some (.nodeMismatch, le2 g)
    else if (nodeOf s g).conn < 4 then some (.noNode, le2 g)
    else none

/-- `NFW_SEND`: P1S. It completes once the transfer has started (R254). -/
def execNfwSend (q : Req) (s : State) : Host.Outcome State Fault Refusal :=
  let q := entryOf 0x0804 q s
  let g := q.arg 8 2
  let start := q.arg 0x0C 4
  .next (serve .p1s 0x0804 q
    (fun s => { defs := [(8, 2), (0x0C, 4)], bad := [(511 < g, 8), (4194304 ≤ start || start % 4096 != 0, 0x0C)], out := 4
                busy := s.ring.nfw.phase == 1 || s.ring.nfw.phase == 2, own := nfwRefuse s g start })
    (fun s =>
      match nfwHeader s.nv.nodeFw start with
      | some (_, ver, len) =>
        answer 0x0804 q (leBytes 4 ((len + 63) / 64))
          { s with ring := { s.ring with nfw := { node := g, start := start, phase := 1, total := len, ver := ver } } }
      | none => s) s)

/-- Has every output point of a node been committed 0 for 16 cycles (R255)? -/
def nodeOff16 (s : State) (g : Nat) : Bool := (List.range 8).all fun j => offFor16 s (0x3000 + 8 * g + j)

/-- May a node restart into its staged firmware (R255)? -/
def activateMay (s : State) (g : Nat) : Bool :=
  let n := nodeOf s g
  (ringOf s (g / 256)).state == 2 && nodeOff16 s g && n.fwStaged && n.verified &&
  (List.range 512).all fun h => let x := nodeOf s h; h == g || !x.conf || !(x.nstate == 6 || (x.nstate == 0 && !x.last.isEmpty))

/-- `FW_ACTIVATE`: P1. It completes when the node has received the request. -/
def execFwActivate (q : Req) (s : State) : Host.Outcome State Fault Refusal :=
  let q := entryOf 0x0805 q s
  let g := q.arg 8 2
  .next (serve .p1 0x0805 q (fun s => { defs := [(8, 2)], bad := [(511 < g, 8)], wrong := !activateMay s g })
    (fun s => { s with sup := { s.sup with waitAct := s.sup.waitAct ++ [(g, q)] } }) s)

/-- Result bytes of `NFW_STATUS`. -/
def nfwData (s : State) : List Byte :=
  let x := s.ring.nfw
  leBytes 1 (lget [0, 1, 1, 2, 3] x.phase 0) ++ [0#8] ++ le2 x.node ++
    leBytes 4 (if x.phase = 0 then 0 else if x.phase = 1 && !x.resend then x.ofs / 64 else (x.total + 63) / 64) ++ leBytes 4 ((x.total + 63) / 64)

/-- `NFW_STATUS`: P0. -/
def execNfwStatus (q : Req) (s : State) : Host.Outcome State Fault Refusal :=
  let q := entryOf 0x0806 q s
  .next (serve .p0 0x0806 q (fun _ => { out := 12, logs := false }) (fun s => answer 0x0806 q (nfwData s) s) s)

/-! ### Calibration, 0x09xx (R352, R353, R433, R434) -/

/-- The calibration record that `CAL_READ` delivers: as long as its own length field says. -/
def calBytes (s : State) (copy : Nat) : List Byte :=
  let m := if copy = 0 then some (inForceCopy s s.nv.cal).file else s.sess.cal
  match m with
  | some m => Mem.readBytes 0 m 0 (min 262144 (imgLe m 8 4))
  | none => []

/-- `CAL_READ`: P0. -/
def execCalRead (q : Req) (s : State) : Host.Outcome State Fault Refusal :=
  let q := entryOf 0x0900 q s
  let c := q.arg 8 1
  .next (serve .p0 0x0900 q
    (fun s => { defs := [(8, 1)], bad := [(1 < c, 8)], obuf := true, out := (calBytes s c).length, logs := false })
    (fun s => let b := calBytes s c
      completeWith q 0x0900 .ok (leBytes 4 b.length) (some b) false s) s)

/-- `CAL_STAGE`: P1S, 256 KiB. -/
def execCalStage (q : Req) (s : State) : Host.Outcome State Fault Refusal :=
  let q := entryOf 0x0901 q s
  .next (serve .p1s 0x0901 q (fun _ => chunkNeeds q 262144)
    (fun s => answer 0x0901 q [] { s with sess := { s.sess with cal := some (Mem.writeBytes 0 (s.sess.cal.getD []) q.chunkOfs q.chunkData), lost := false } }) s)

/-- The parameter entry of a graph's cell in the active image. -/
def parEntry (s : State) (g c : Nat) : Option ParE := s.image.bind fun im => (im.graph g).pars.find? (·.cell == c)

/-- The change staged for a cell. -/
def stagedPar (s : State) (g c : Nat) : Option ParamCh := s.sess.params.find? fun p => p.graph == g && p.cell == c

/-- Result bytes of `PARAM_READ`: the direct value in force, the staged one. -/
def parData (s : State) (g c : Nat) : List Byte :=
  let st := stagedPar s g c
  leBytes 4 ((regionOf s g).cur false c).toNat ++ leBytes 4 ((st.map (·.value.toNat)).getD 0) ++ leBytes 1 (b2n st.isSome)

/-- `PARAM_READ`: P0. -/
def execParamRead (q : Req) (s : State) : Host.Outcome State Fault Refusal :=
  let q := entryOf 0x0902 q s
  let g := q.arg 8 1
  let c := q.arg 0x0A 2
  .next (serve .p0 0x0902 q
    (fun s => { defs := [(8, 1), (0x0A, 2)], bad := [(3 < g, 8), ((parEntry s g c).isNone, 0x0A)], out := 9, logs := false })
    (fun s => answer 0x0902 q (parData s g c) s) s)

/-- Is a value in the range that the reading opcodes interpret, beside what the session has staged (R93, R353)? -/
def parFits (s : State) (x : ParamCh) : Bool :=
  match s.image with
  | none => false
  | some im =>
    let mine := (mergeOver (stagedCal s).overs [x]).filter (·.graph == x.graph)
    (im.graph x.graph).nodes.all (paramOk fun c => ((mine.find? (·.cell == c)).map (·.value)).getD ((im.graph x.graph).initial c))

/-- `PARAM_STAGE`: P1S. -/
def execParamStage (q : Req) (s : State) : Host.Outcome State Fault Refusal :=
  let q := entryOf 0x0903 q s
  let g := q.arg 8 1
  let c := q.arg 0x0A 2
  let x : ParamCh := { graph := g, cell := c, value := BitVec.ofNat 32 (q.arg 0x0C 4) }
  .next (serve .p1s 0x0903 q
    (fun s =>
      let calib := match parEntry s g c with | some e => e.calib | none => false
      { defs := [(8, 1), (0x0A, 6)], out := 2
        bad := [(3 < g, 8), (!calib || ((stagedPar s g c).isNone && 256 ≤ s.sess.params.length), 0x0A), (!parFits s x, 0x0C)] })
    (fun s =>
      let l := (s.sess.params.filter fun p => !(p.graph == g && p.cell == c)) ++ [x]
      answer 0x0903 q (le2 l.length) { s with sess := { s.sess with params := l, lost := false } }) s)

/-- `MM_REALIGN`: P1; standstill is judged at the boundary (R155, R353). -/
def execMmRealign (q : Req) (s : State) : Host.Outcome State Fault Refusal :=
  let q := entryOf 0x0904 q s
  let n := q.arg 8 1
  .next (serve .p1 0x0904 q (fun s => { defs := [(8, 1)], bad := [(15 < n, 8)], out := 8, wrong := clashes s (.realign n) })
    (schedule (.realign n) (some q)) s)

/-! ### Register window, 0x0Axx (R354 to R358) -/

/-- `REG_READ`: P0. -/
def execRegRead (q : Req) (s : State) : Host.Outcome State Fault Refusal :=
  let q := entryOf 0x0A00 q s
  let w := q.arg 8 1
  let n := q.arg 0x0A 2
  let o := q.arg 0x0C 4
  .next (serve .p0 0x0A00 q
    (fun s => { defs := [(8, 1), (0x0A, 6)], out := 4 * n, test := rangeTest s w o n, logs := false
                bad := [(winSize w = 0, 8), (n < 1 || (if q.flag 1 then 4096 else 12) < n, 0x0A), (o % 4 != 0 || winSize w < o + 4 * n, 0x0C)] })
    (fun s => let (l, s1) := readRegs w o n s; answer 0x0A00 q (words l) s1) s)

/-- Target and class of a `REG_WRITE`. -/
def regTarget (q : Req) (s : State) : WTarget := wTarget (q.arg 8 1) (q.arg 0x0C 4) (BitVec.ofNat 32 (q.arg 0x10 4)) s

/-- `REG_WRITE`: the class is that of its target (R358). -/
def execRegWrite (q : Req) (s : State) : Host.Outcome State Fault Refusal :=
  let q := entryOf 0x0A01 q s
  let w := q.arg 8 1
  let o := q.arg 0x0C 4
  let v := BitVec.ofNat 32 (q.arg 0x10 4)
  .next (serve (regTarget q s).cls 0x0A01 q
    (fun s => { defs := [(8, 1), (0x0C, 8)], out := 4, bad := [(winSize w = 0, 8), (o % 4 != 0 || winSize w < o + 4, 0x0C)]
                prot := if (regTarget q s).protected (holds s q.src) then some (.protectedReg, []) else none })
    (fun s => let s1 := writeReg w o v s; answer 0x0A01 q (leBytes 4 (readReg w o s1).1) s1) s)

/-! ### Time and timers, 0x0Bxx (R359) -/

/-- `TIME_GET`: P0. -/
def execTimeGet (q : Req) (s : State) : Host.Outcome State Fault Refusal :=
  let q := entryOf 0x0B00 q s
  .next (serve .p0 0x0B00 q (fun _ => { out := 17, logs := false })
    (fun s => answer 0x0B00 q (leBytes 8 (now s) ++ leBytes 8 (ofSigned 64 s.keep.utc) ++ leBytes 1 (b2n s.keep.utcSet)) s) s)

/-- UTC at TBASE 0 from a UTC in ns and the TBASE at which it held; a tick is 62.5 ns. -/
def utcAtZero (utc : Int) (tb : Nat) : Int := (2 * utc - 125 * (tb : Int)) / 2

/-- `UTC_SET`: P1. -/
def execUtcSet (q : Req) (s : State) : Host.Outcome State Fault Refusal :=
  let q := entryOf 0x0B01 q s
  .next (serve .p1 0x0B01 q (fun _ => { defs := [(8, 16)], out := 8, nv := true })
    (fun s =>
      let u := utcAtZero (toSigned 64 (q.arg 8 8)) (q.arg 0x10 8)
      answer 0x0B01 q (leBytes 8 (ofSigned 64 u)) { s with keep := { s.keep with utc := u, utcSet := true } }) s)

/-- The writes of `TMR_SETUP` on a free channel, in their order. -/
def timerSetup (q : Req) (n : Nat) (s : State) : State :=
  let w (o : Nat) : Word := BitVec.ofNat 32 (q.arg o 4)
  let f := q.arg 0x20 1
  let s1 := chanWrite n 0x00 (w 0x0C) s
  let s2 := chanWrite n 0x10 (w 0x10) (chanWrite n 0x14 (w 0x14) s1)
  let s3 := chanWrite n 0x18 (w 0x18) (chanWrite n 0x1C (w 0x1C) s2)
  let s4 := if bitOf f 1 then chanWrite n 0x3C 4#32 s3 else s3
  if bitOf f 0 then chanWrite n 0x3C 1#32 s4 else s4

/-- `TMR_SETUP`: P0, on a free channel. -/
def execTmrSetup (q : Req) (s : State) : Host.Outcome State Fault Refusal :=
  let q := entryOf 0x0B02 q s
  let n := q.arg 8 1
  let v := BitVec.ofNat 32 (q.arg 0x0C 4)
  .next (serve .p0 0x0B02 q
    (fun s => { defs := [(8, 1), (0x0C, 0x15)], out := 4
                bad := [(31 < n, 8), (cfgReserved n (v &&& cfgMask), 0x0C), (q.arg 0x16 2 != 0, 0x16), (0x8000 ≤ q.arg 0x1C 4, 0x1C), (4 ≤ q.arg 0x20 1, 0x20)]
                prot := if (vget s.tmr.chans n).own then some (.protectedReg, []) else none })
    (fun s => let s1 := timerSetup q n s; answer 0x0B02 q (leBytes 4 (vget s1.tmr.chans n).stat) s1) s)

/-! ### Cross-link and pair, 0x0Cxx (R360, R268, R281) -/

/-- `XL_STATUS`: P0. -/
def execXlStatus (q : Req) (s : State) : Host.Outcome State Fault Refusal :=
  let q := entryOf 0x0C00 q s
  .next (serve .p0 0x0C00 q (fun _ => { out := 16, logs := false })
    (fun s => answer 0x0C00 q (words [xlWord 0x00 s, xlWord 0x04 s, xlWord 0x0C s, xlWord 0x10 s]) s) s)

/-- `XL_STOP`: P0; `CLSTOP` is pulled from the next t0 on. -/
def execXlStop (q : Req) (s : State) : Host.Outcome State Fault Refusal :=
  let q := entryOf 0x0C01 q s
  .next (serve .p0 0x0C01 q (fun s => { wrong := !s.xl.stopDrv.getLsbD 2 })
    (fun s => answer 0x0C01 q [] { s with xl := { s.xl with stopCmd := true } }) s)

/-- `XL_STOP_RELEASE`: P1. -/
def execXlStopRelease (q : Req) (s : State) : Host.Outcome State Fault Refusal :=
  let q := entryOf 0x0C02 q s
  .next (serve .p1 0x0C02 q (fun _ => {}) (fun s => answer 0x0C02 q [] { s with xl := { s.xl with stopCmd := false } }) s)

/-- Do the conditions of R281 hold for the module with the failed one's MID? -/
def pairAdoptMay (s : State) (uid : Nat) (x : NewModule) : Bool :=
  pairMode s && x.oem && x.g7Blank && x.g34Equal && x.window &&
  match svcOf s (partnerMid s) with
  | some ws => svcW ws 1 % 8 == MState.safeHold.code && (svcW ws 1 / 16) % 256 == 0x11 && svcW2 ws 8 == uid
  | none => false

/-- `PAIR_ADOPT`: P2. Once G7 of the new module is locked, the command completes and the transfer of image, configuration and calibration
begins (R263, R281, R360); until then it stays in progress (notes/assumptions/104.md). -/
def execPairAdopt (q : Req) (x : NewModule) (s : State) : Host.Outcome State Fault Refusal :=
  let q := entryOf 0x0C03 q s
  .next (serve .p2 0x0C03 q (fun s => { defs := [(8, 8)], wrong := !pairAdoptMay s (q.arg 8 8) x })
    (fun s => if x.g7Locks then answer 0x0C03 q [] { s with xl := { s.xl with xferObj := 1, xferOfs := 0 } } else s) s)

/-! ### Fuses, 0x0Dxx (R361, R362, R399, R409 to R415) -/

/-- Result bytes of `FUSE_READ`. -/
def fuseData (s : State) (g : Nat) : List Byte :=
  let x := vget s.fuse.grps g
  leBytes 1 x.st ++ leBytes 1 (b2n x.locked) ++ le2 x.stored.toNat ++ le2 (grpLen g) ++ le2 x.marg.toNat

/-- `FUSE_READ`: P0; with `OBUF` the shadow contents of the group. -/
def execFuseRead (q : Req) (s : State) : Host.Outcome State Fault Refusal :=
  let q := entryOf 0x0D00 q s
  let g := q.arg 8 1
  .next (serve .p0 0x0D00 q (fun _ => { defs := [(8, 1)], bad := [(7 < g, 8)], out := if q.flag 1 then grpLen g / 8 else 8, logs := false })
    (fun s =>
      if q.flag 1 then completeWith q 0x0D00 .ok (fuseData s g) (some (leBytes (grpLen g / 8) (grpOf s.fuse.shadow g))) false s
      else complete q 0x0D00 .ok (fuseData s g) s) s)

/-- `LIFECYCLE` for a group that the present state does not let program. -/
def lifeRefuse (s : State) (g : Nat) : Refuse := if g ≤ 7 && !lcAllows s g then some (.lifecycle, leBytes 1 s.fuse.lc) else none

/-- `LOCKED` for a locked group. -/
def lockRefuse (s : State) (g : Nat) : Refuse := if (vget s.fuse.grps g).locked then some (.locked, []) else none

/-- Completes a fuse command as its programming went. -/
def fuseDone (op : Nat) (q : Req) (x : Prog) (res : List Byte) (s : State) : State :=
  match x.stop with
  | some (st, d) => complete q op st d s
  | none => if x.nvBad then complete q op .nvFailed [] s else answer op q res s

/-- Logical bits that a `FUSE_PROG` sets. -/
def progBits (q : Req) : List Nat :=
  ((List.range (min 256 (q.arg 0x0C 2))).filter fun i => bitOf (q.arg (0x10 + i / 8) 1) (i % 8)).map fun i => grpLo (q.arg 8 1) + q.arg 0x0A 2 + i

/-- `FUSE_PROG`: P2. -/
def execFuseProg (q : Req) (env : FuseEnv) (s : State) : Host.Outcome State Fault Refusal :=
  let q := entryOf 0x0D01 q s
  let g := q.arg 8 1
  let f := q.arg 0x0A 2
  let n := q.arg 0x0C 2
  .next (serve .p2 0x0D01 q
    (fun s => { life := lifeRefuse s g, defs := [(8, 1), (0x0A, 4), (0x10, 32)], out := 2, nv := true
                bad := [(7 < g, 8), (grpLen g < f + n, 0x0A), (n < 1 || 256 < n, 0x0C), ((progBits q).any fun b => !progAllowed g (b - grpLo g), 0x10)]
                prot := lockRefuse s g, wrong := s.fuse.shadowMis, supply := takenStop s })
    (fun s =>
      let l := progBits q
      let x0 : Prog := { f := s.fuse, pulses := env.pulses }
      let x := Prog.setBits l x0
      let new := (l.filter fun b => x.reads b && !x0.reads b).length
      fuseDone 0x0D01 q x (le2 new) (afterProg x env g s)) s)

/-- `FUSE_LOCK`: P2. -/
def execFuseLock (q : Req) (env : FuseEnv) (s : State) : Host.Outcome State Fault Refusal :=
  let q := entryOf 0x0D02 q s
  let g := q.arg 8 1
  .next (serve .p2 0x0D02 q
    (fun s => { life := lifeRefuse s g, defs := [(8, 1)], bad := [(7 < g, 8)], prot := lockRefuse s g, wrong := s.fuse.shadowMis, supply := takenStop s, nv := true
                own := let (ok, w) := lockCheck s.fuse g; if ok then none else some (.checkFailed, le2 w) })
    (fun s =>
      let x := Prog.setBits [grpLo g + grpLen g - 1] { f := s.fuse, pulses := env.pulses }
      fuseDone 0x0D02 q x [] (afterProg x env g s)) s)

/-- Is the advance to `FIELD` allowed (R414)? -/
def fieldMay (s : State) : Bool :=
  let ok (g : Nat) : Bool := let x := vget s.fuse.grps g; (x.st == 1 || x.st == 2) && x.locked
  ok 3 && ok 4 && ok 5 && ((vget s.fuse.grps 7).st == 0 || ok 7)

/-- The check word and the lock of G6 are programmed (R411). -/
def lockG6 (x : Prog) : Prog :=
  let chk := (grpCheck 6 (grpOf (fuseRead x.f 0 []) 6)).toNat
  let x1 := Prog.setBits (((List.range 16).filter chk.testBit).map fun i => 4096 + grpLen 6 - 17 + i) x
  if x1.nvBad || !(lockCheck x1.f 6).1 then { x1 with nvBad := x1.stop.isNone } else Prog.setBits [4096 + grpLen 6 - 1] x1

/-- Every bit of a step field is pulsed; G6 takes no entry for one (R401, R410). -/
def setStep (i : Nat) (x : Prog) : Prog :=
  if x.nvBad then x else (List.range 16).foldl (fun x b => Prog.rounds (2048 + 128 + 16 * i + b) 4 x) x

/-- The stored files that the advance to `SCRAPPED` overwrites with zeros (R414). -/
def scrapFiles (s : State) : State :=
  { s with nv := { s.nv with cfg := Vector.replicate 2 {}, cal := Vector.replicate 2 {}, img := Vector.replicate 2 [] } }

/-- The step to the next life-cycle state (R401, R411, R414, R415): it takes effect at once when its field is verified. -/
def lcAdvance (q : Req) (env : FuseEnv) (s0 : State) : State :=
  let target := s0.fuse.lc + 1
  let s := if target = 4 then scrapFiles s0 else s0
  let x0 : Prog := { f := s.fuse, pulses := env.pulses }
  let x := setStep (target - 1) (if target = 3 then lockG6 x0 else x0)
  let s1 := afterProg x env 2 s
  let s2 := if target = 3 then afterProg { x with f := s1.fuse } env 6 s1 else s1
  let lc := (lifeOf s2.fuse).1
  let s3 := if lc = target then { s2 with fuse := { s2.fuse with lc := lc } } else s2
  fuseDone 0x0D03 q { x with nvBad := x.nvBad || lc != target } (leBytes 1 lc) s3

/-- `LC_ADVANCE`: P2. -/
def execLcAdvance (q : Req) (env : FuseEnv) (s : State) : Host.Outcome State Fault Refusal :=
  let q := entryOf 0x0D03 q s
  let t := q.arg 8 1
  .next (serve .p2 0x0D03 q
    (fun s => { life := if s.fuse.lcDefault || !(s.fuse.lc == 2 || s.fuse.lc == 3) then some (.lifecycle, leBytes 1 s.fuse.lc) else none
                defs := [(8, 1)], bad := [(t != s.fuse.lc + 1, 8)], out := 1, wrong := s.fuse.shadowMis || (t == 3 && !fieldMay s), supply := takenStop s, nv := true })
    (lcAdvance q env) s)

end Sys2Proof.Machine
end

