-- ==== Sys2Proof/Machine/CmdFetch.lean ====
section
/-! DEFINITION. The DMA read of a command entry (12_host_port R308 to R310, R337). -/

namespace Sys2Proof.Machine

/-- Class of each supervisor command (R338 to R361); none for a code that is not one. `PASSWD_SET` and `REG_WRITE` stand with the class
that the state or the target gives them. -/
def baseCls (op : Nat) (q : Req) (s : State) : Option Cls :=
  if op ∈ [0x0000, 0x0001, 0x0002, 0x0106, 0x0107, 0x0203, 0x0300, 0x0301, 0x0302, 0x0400, 0x0401, 0x0402, 0x0404, 0x0405, 0x0500, 0x0501,
           0x0502, 0x0503, 0x0700, 0x0702, 0x0800, 0x0801, 0x0806, 0x0900, 0x0902, 0x0A00, 0x0B00, 0x0B02, 0x0C00, 0x0C01, 0x0D00] then some .p0
  else if op ∈ [0x0100, 0x0205, 0x0403, 0x0406, 0x0407, 0x0504, 0x0701, 0x0703, 0x0704, 0x0802, 0x0805, 0x0904, 0x0B01, 0x0C02] then some .p1
  else if op ∈ [0x0101, 0x0102, 0x0103, 0x0200, 0x0201, 0x0202, 0x0600, 0x0601, 0x0603, 0x0605, 0x0803, 0x0804, 0x0901, 0x0903] then some .p1s
  else if op ∈ [0x0104, 0x0204, 0x0206, 0x0602, 0x0604, 0x0606, 0x0C03, 0x0D01, 0x0D02, 0x0D03] then some .p2
  else if op = 0x0105 then some (if (pwRecord s).isNone then .p1s else .p2)
  else if op = 0x0A01 then some (regTarget q s).cls
  else none

/-- The command that 64 entry bytes spell (R309), with the bytes that its input buffer holds. -/
def entryReq (r : Fin 64) (e ibuf : List Byte) (inErr : Bool) : Req :=
  let flags : Half := BitVec.ofNat 16 (leAt e 4 2)
  let n := leAt e 0x10 4
  { src := .ring r, tag := BitVec.ofNat 16 (leAt e 2 2), flags := flags, len := BitVec.ofNat 16 (leAt e 6 2), param := slice e 8 56
    ibuf := if flags.getLsbD 0 && n ≤ 1048576 then padTo n ibuf else [], inErr := inErr }

/-- Bytes of the entry at a ring's head: in Quad-SPI mode those of the ring window. -/
def headEntry (r : Nat) (e : List Byte) (s : State) : List Byte :=
  let d := mring s r
  if s.hp.qspi then Mem.readBytes 0 s.hp.mem (d.base.toNat + 64 * (d.head.toNat % d.size)) 64 else padTo 64 e

/-- Bytes of a command's input buffer, in Quad-SPI mode those of the window. -/
def entryIbuf (e ibuf : List Byte) (s : State) : List Byte :=
  if s.hp.qspi && leAt e 8 8 + leAt e 0x10 4 ≤ 65536 then Mem.readBytes 0 s.hp.mem (leAt e 8 8) (leAt e 0x10 4) else ibuf

/-- Has a command ring an entry that can be taken: active, not empty, not stalled (R310, R312)? -/
def hasEntry (s : State) (r : Nat) : Bool := (mring s r).en && (mring s r).head != (mring s r).tail && !stalled s r

/-- Is it the turn of a command ring with an entry? A round takes at most one entry of each ring, in ascending ring number; the next one
begins at ring 0 when no ring that is left in this one has an entry (R310). -/
def ringTurn (s : State) (r : Nat) : Bool :=
  let p := s.hp.roundAt
  if p ≤ r then (List.range r).all fun k => k < p || !hasEntry s k
  else (List.range 64).all fun k => (r ≤ k && k < p) || !hasEntry s k

/-- Reads and takes the entry at the head of a command ring. -/
def fetchEntry (r : Fin 64) (e0 ibuf : List Byte) (inErr dmaErr : Bool) (s : State) : State :=
  if !(s.sup.sup == .serving && dmaOn s && hasEntry s r.val && ringTurn s r.val) then s
  else if dmaErr then ringError r.val 2 (dmaCount s)
  else
    let e := headEntry r.val e0 s
    let q := entryReq r e (entryIbuf e ibuf s) inErr
    let op := leAt e 0 2
    let s0 := modMring r.val (fun d => { d with head := d.head + 1 }) s
    let s1 := { s0 with hp := { s0.hp with roundAt := r.val + 1 } }
    match baseCls op q s1 with
    | none => complete q op .badOpcode [] (takeCmd .p0 op q s1)
    | some c =>
      let s2 := takeCmd (c.sup (raiseOf s1 (op / 256))) op q s1
      let mark := fun (t : Taken) => if t.isOf q && t.opcode == op then { t with req := some q } else t
      { s2 with sup := { s2.sup with taken := s2.sup.taken.map mark } }

/-- `COMMAND_ENTRY_FETCH`: the entry and input buffer bytes that the host memory holds, and the DMA errors that strike. -/
def execCommandEntryFetch (r : Fin 64) (entry ibuf : List Byte) (inErr dmaErr : Bool) (s : State) : Host.Outcome State Fault Refusal :=
  .next (fetchEntry r entry ibuf inErr dmaErr s)

end Sys2Proof.Machine
end

