-- ==== Sys2Proof/Machine/Power.lean ====
section
/-! DEFINITION. Supplies and clocks in service (19_power_clocks R457 to R473): the keeper's samples, thresholds and supply events, the
hold-up bank, the NV-write inhibit, clock faults, and the keeper's own check and mark (R377, R493). -/

namespace Sys2Proof.Machine

/-! ### Samples (R458, R462) -/

/-- The higher of two signed bytes. -/
def maxS8 (a b : Byte) : Byte := if b.toInt < a.toInt then a else b

/-- The keeper's samples enter the power registers. -/
def sample (r : Rails) (s : State) : State :=
  { s with pwr := { s.pwr with vlog := r.vlog, vlogMin := if r.vlog < s.pwr.vlogMin then r.vlog else s.pwr.vlogMin
                               vhu := r.vhu, v3v3 := r.v3v3, vcore := r.vcore, tj := r.tj, tjMax := maxS8 s.pwr.tjMax r.tj
                               vlogOk := 1500 < r.vlog.toNat, huReady := 2700 ≤ r.vhu.toNat } }

/-! ### VLOG (R458, R459) -/

/-- VLOG has stood for 10 ms at a value: the low and the high condition begin or end (R458). -/
def vlogLow (r : Rails) (s0 : State) : State :=
  let s := sample r s0
  let v := r.vlog.toNat
  let mark (low high : Bool) (s : State) : State := { s with pwr := { s.pwr with vlogLowIn := low, vlogHighIn := high } }
  let p := s.pwr
  if v < 1680 ∧ !p.vlogLowIn then supplyEvent 0 0x01 v (pwrEvt 0 (mark true false s))
  else if 1700 < v ∧ p.vlogLowIn then supplyEvent 0 0x02 v (mark false p.vlogHighIn s)
  else if 3300 < v ∧ !p.vlogHighIn then supplyEvent 0 0x05 v (pwrEvt 2 (mark p.vlogLowIn true s))
  else if v < 3250 ∧ p.vlogHighIn then mark p.vlogLowIn false s
  else s

/-- `VLOG_LOW`. -/
def execVlogLow (r : Rails) (s : State) : Host.Outcome State Fault Refusal := .next (vlogLow r s)

/-- `VLOG_DIP`: below 15.0 V the core regulators run from VHU at once (R459). In `OFF` the loss of VLOG ends the hold of R489. -/
def vlogDip (r : Rails) (s0 : State) : State :=
  let s := sample r s0
  if 1500 ≤ r.vlog.toNat then s
  else if s.md.mstate = .off then { s with md := { s.md with offLatched := false } }
  else { s with pwr := { s.pwr with onHu := true } }

/-- `VLOG_DIP`. -/
def execVlogDip (r : Rails) (s : State) : Host.Outcome State Fault Refusal := .next (vlogDip r s)

/-- `VLOG_RECOVER`: above 15.0 V again the regulators return to VLOG, and a dip that led to no shut-down is counted (R459). -/
def vlogRecover (r : Rails) (s0 : State) : State :=
  let s := sample r s0
  if r.vlog.toNat ≤ 1500 || !s.pwr.onHu then s
  else
    let s1 := { s with pwr := { s.pwr with onHu := false } }
    if s.md.mstate = .shuttingDown then s1
    else supplyEvent 0 0x03 r.vlog.toNat (pwrEvt 1 { s1 with pwr := { s1.pwr with dips := satUp s1.pwr.dips } })

/-- `VLOG_RECOVER`. -/
def execVlogRecover (r : Rails) (s : State) : Host.Outcome State Fault Refusal := .next (vlogRecover r s)

/-! ### Hold-up bank (R460, R461) -/

/-- VHU has stood below or above 27.0 V for 10 ms with VLOG good (R460). -/
def huLow (r : Rails) (s0 : State) : State :=
  let s := sample r s0
  if r.vlog.toNat ≤ 1500 || s.pwr.onHu then s
  else if r.vhu.toNat < 2700 then
    (if s.pwr.huLow then s else supplyEvent 1 0x10 r.vhu.toNat (pwrEvt 3 { s with pwr := { s.pwr with huLow := true } }))
  else { s with pwr := { s.pwr with huLow := false } }

/-- `HU_LOW`. -/
def execHuLow (r : Rails) (s : State) : Host.Outcome State Fault Refusal := .next (huLow r s)

/-- Is the bank tested now (R461)? -/
def huTestable (s : State) : Bool :=
  2000 ≤ s.pwr.vlog.toNat && !s.pwr.onHu && (match s.md.mstate with | .starting | .run | .quiet | .safeHold => true | _ => false)

/-- The bank test with its result in µF (R461). -/
def holdupTest (cap : BitVec 12) (r : Rails) (s0 : State) : State :=
  let s := sample r s0
  if !huTestable s then s
  else
    let bad : Bool := cap.toNat < 1800
    let s1 := { s with pwr := { s.pwr with capUf := cap, capAt := some (now s), huWeak := bad } }
    if bad then supplyEvent 1 0x11 cap.toNat (pwrEvt 4 s1) else s1

/-- `HOLDUP_TEST`. -/
def execHoldupTest (cap : BitVec 12) (r : Rails) (s : State) : Host.Outcome State Fault Refusal := .next (holdupTest cap r s)

/-! ### NV-write inhibit (R455, R462) -/

/-- Do VHU and 3V3 stand above their thresholds? -/
def nvRailsOk (r : Rails) : Bool := 900 ≤ r.vhu.toNat && 3100 ≤ r.v3v3.toNat

/-- `NV_INHIBIT`: VHU below 9.0 V or 3V3 below 3.10 V. The record of the crossing is the last write that starts. -/
def nvInhibit (r : Rails) (s0 : State) : State :=
  let s := sample r s0
  if nvRailsOk r || s.pwr.inhibit then s
  else
    let s1 := if r.vhu.toNat < 900 then supplyEvent 1 0x12 r.vhu.toNat s else s
    let s2 := if r.v3v3.toNat < 3100 then supplyEvent 4 0x30 (r.v3v3.toNat / 10) s1 else s1
    { s2 with pwr := { s2.pwr with inhibit := true } }

/-- `NV_INHIBIT`. -/
def execNvInhibit (r : Rails) (s : State) : Host.Outcome State Fault Refusal := .next (nvInhibit r s)

/-- `NV_INHIBIT_CLEAR`: both rails have been above their thresholds for 1 ms (R462). -/
def nvInhibitClear (r : Rails) (s0 : State) : State :=
  let s := sample r s0
  if nvRailsOk r then { s with pwr := { s.pwr with inhibit := false } } else s

/-- `NV_INHIBIT_CLEAR`. -/
def execNvInhibitClear (r : Rails) (s : State) : Host.Outcome State Fault Refusal := .next (nvInhibitClear r s)

/-! ### Clock faults (R13, R467) -/

/-- The links of the ring ports fall with the PHY clock, and the rings go `DOWN` (R467). -/
def ringsDown (s : State) : State :=
  let s1 := { s with ring := { s.ring with ports := s.ring.ports.map fun p => { p with link := false, lpi := false } } }
  (List.range 2).foldl (fun s k =>
    let old := (ringOf s k).state
    if nCfg s k = 0 then s
    else ringStateEvents k old 0 0x1FF (modRing k (fun r => { r with state := 0, sched := false }) s)) s1

/-- The 25 MHz oscillator is lost (R467): PLLs stopped, cycles slip, supervisor halted, rings `DOWN`. -/
def xoFail (s : State) : State :=
  if !s.pwr.xoOk then s
  else
    let s1 := pwrEvt 6 { s with pwr := { s.pwr with xoOk := false, lclkLock := false, supLock := false, phyLock := false, supPllOff := false
                                                    xo := satUp s.pwr.xo } }
    ringsDown (supStop .halted (slipRuns s1))

/-- `XO_FAIL`. -/
def execXoFail (s : State) : Host.Outcome State Fault Refusal := .next (xoFail s)

/-- Are the core regulators on, so that oscillators and PLLs can run (R466)? -/
def corePowered (s : State) : Bool :=
  match s.md.mstate with
  | .off => false
  | .starting => 5 ≤ s.md.startStep
  | _ => true

/-- A restart of the oscillator (R467); `ok` says that it has run within tolerance for 1 ms: the PLLs lock again, the supervisor restarts,
and the rings come up with their links. -/
def xoRestart (ok : Bool) (s : State) : State :=
  if !ok || s.pwr.xoOk || !corePowered s then s
  else
    let lclk := s.md.mstate != .fault || s.nv.inForce.fore
    let s1 := { s with pwr := { s.pwr with xoOk := true, lclkLock := lclk, supLock := true, phyLock := true } }
    if s1.sup.sup = .halted then supStop .restarting s1 else s1

/-- `XO_RESTART`. -/
def execXoRestart (ok : Bool) (s : State) : Host.Outcome State Fault Refusal := .next (xoRestart ok s)

/-- The LCLK PLL loses its lock, or has it again: cycles slip while it lasts (R39, R467). -/
def lclkUnlock (locked : Bool) (s : State) : State :=
  if locked then { s with pwr := { s.pwr with lclkLock := s.pwr.lclkLock || (s.pwr.xoOk && s.md.mstate != .fault) } }
  else if !s.pwr.lclkLock then s
  else slipRuns (pwrEvt 7 { s with pwr := { s.pwr with lclkLock := false, lclk := satUp s.pwr.lclk } })

/-- `LCLK_UNLOCK`. -/
def execLclkUnlock (locked : Bool) (s : State) : Host.Outcome State Fault Refusal := .next (lclkUnlock locked s)

/-- The supervisor PLL loses its lock, or has it again: the supervisor restarts once it has (R467). -/
def supUnlock (locked : Bool) (s : State) : State :=
  if locked then
    (if s.pwr.supLock || !s.pwr.xoOk then s
     else
       let s1 := { s with pwr := { s.pwr with supLock := true, supPllOff := false } }
       if s1.sup.sup = .halted then supStop .restarting s1 else s1)
  else if !s.pwr.supLock then s
  else supStop .halted (pwrEvt 8 { s with pwr := { s.pwr with supLock := false } })

/-- `SUP_UNLOCK`. -/
def execSupUnlock (locked : Bool) (s : State) : Host.Outcome State Fault Refusal := .next (supUnlock locked s)

/-- `SUP_PLL_IDLE_STOP`: in `QUIET` the supervisor has had no work for 1 ms (R470); `HP_STATUS.SUP` stays 1. -/
def execSupPllIdleStop (s : State) : Host.Outcome State Fault Refusal :=
  .next (if s.md.mstate == .quiet && s.sup.sup == .serving && s.sup.taken.isEmpty && s.pwr.supLock then
      { s with pwr := { s.pwr with supPllOff := true, supLock := false } } else s)

/-- `SUP_PLL_WAKE`: a doorbell, a recorder posting or a keeper request (R470). -/
def execSupPllWake (s : State) : Host.Outcome State Fault Refusal :=
  .next (if s.pwr.supPllOff then { s with pwr := { s.pwr with supPllOff := false, supLock := s.pwr.xoOk } } else s)

/-- `SCLK_FAULT`: the output guard opens both masters (R13), and `FAULT` with cause 0x24 follows (R19). -/
def execSclkFault (s : State) : Host.Outcome State Fault Refusal :=
  .next (enterFault 0x24 (holdMasters { s with pwr := { s.pwr with goscOk := false } }))

/-! ### The keeper's own work (R377, R493) -/

/-- `KEEPER_SELF_CHECK`: every 600 s; a failure leads to `FAULT` with cause 0x26. -/
def execKeeperSelfCheck (ok : Bool) (s : State) : Host.Outcome State Fault Refusal := .next (if ok then s else enterFault 0x26 s)

/-- The mark above a TBASE: (⌊t / 2³²⌋ + 1) × 2³². -/
def markAbove (t : Nat) : Nat := (t / 2 ^ 32 + 1) * 2 ^ 32

/-- The keeper writes the TBASE mark, unless the inhibit refuses it. -/
def writeMark (s : State) : State :=
  if s.pwr.inhibit then countInhibited s else { s with keep := { s.keep with mark := markAbove (now s) } }

/-- `TBASE_MARK`: at the next multiple of 2³² ticks. -/
def execTbaseMark (s : State) : Host.Outcome State Fault Refusal :=
  .next (writeMark (advanceTo ((now s + (2 ^ 32 - 1)) / 2 ^ 32 * 2 ^ 32) s))

end Sys2Proof.Machine
end

