-- ==== Sys2Proof/Machine/Shutdown.lean ====
section
/-! DEFINITION. Shut-down, `OFF` and power-on (20_start_shutdown R484 to R490, 19_power_clocks R458 to R462, 01_architecture R12, R19,
R21). -/

namespace Sys2Proof.Machine

/-! ### Entry to `SHUTTING_DOWN` (R484, R485) -/

/-- May the module enter `SHUTTING_DOWN` from its state (R19)? -/
def canShut (s : State) : Bool :=
  match s.md.mstate with
  | .starting | .run | .quiet | .safeHold | .fault => true
  | _ => false

/-- Commands that wait for a boundary, a commit point, a test or a node complete with `WRONG_STATE`; a commit that has written its copy
never completes (R484). -/
def dropCommands (s : State) : State :=
  let acts := s.sup.acts.filterMap fun a => if a.kind == .commit then none else a.q
  let l := acts ++ s.sup.waitHold ++ (s.sup.waitAck ++ s.sup.waitDisc ++ s.sup.waitAct).map (·.2)
  let s1 := allWrong l { s with sup := { s.sup with acts := [], waitHold := [], waitAck := [], waitDisc := [], waitAct := [] }
                                md := { s.md with holdPend := [], quietExit := false, quietIn := none, quietOut := none }
                                xl := { s.xl with quietReq := false, quietExit := false } }
  { s1 with cyc := { s1.cyc with tcycNext := none, qtcycNext := none }, keep := { s1.keep with waiting := none } }

/-- Every record with pending repeats is rewritten. -/
def rewriteAll (s : State) : State :=
  if s.pwr.inhibit || s.evr.konly then s
  else { s with evr := ((s.evr.coS ++ s.evr.coO).filter fun c => c.pend != 0).foldl (fun e c => rewriteRec c (now s) e) s.evr }

/-- The log flush (R394): the front queue, the pending rewrites, the shut-down marker. -/
def logFlush (s : State) : State :=
  let s1 := { s with evr := { s.evr with flushing := true } }
  let s2 := rewriteAll (writeAll s1.evr.queue.length s1)
  { s2 with evr := { s2.evr with marker := !s2.pwr.inhibit && !s2.evr.konly } }

/-- Does the entry state bring a shut-down BIST (R490)? -/
def shutTests (s : State) : Bool := match s.md.mstate with | .run | .quiet | .safeHold => true | _ => false

/-- Stopped clocks of `QUIET` start again, and LCLK runs for the BIST (R466, R485), and in any case in the forerunner timing mode (R167). -/
def shutClocks (bist : Bool) (s : State) : State :=
  { s with pwr := { s.pwr with lclkLock := s.pwr.xoOk && (bist || s.nv.inForce.fore), asleep := false }
           time := if s.time.tclkRun || !bist then s.time else { s.time with fllAt := some s.time.sclk } }

/-- Every lane and unit that is not retired enters its shut-down BIST (R487). -/
def startShutBist (s : State) : State :=
  { s with md := { s.md with shutBist := true }
           lane := { s.lane with lanes := s.lane.lanes.map fun l => if l.role == .retired then l else { l with role := .bist, hosts := none, bistRes := 3 } }
           mm := { s.mm with units := s.mm.units.map fun u => if u.role == .retired then u else { u with role := .bist, hosts := none, bistRes := 3 } } }

/-- Entry to `SHUTTING_DOWN` (R484, R485, R490): commands dropped, state and masters, outputs 0, session closed, an uncommitted copy voided,
log flushed, BIST started. -/
def enterShut (k : ShutKind) (s : State) : State :=
  if !canShut s then s
  else
    let bist := shutTests s
    let s1 := dropCommands (voidCommit s)
    let s2 := shutClocks bist (stopLanes (commitZero (allOwned s1) s1))
    let s3 := holdMasters (applyOutputs (setState .shuttingDown 0 s2))
    let s4 := endSession (closeWindow 4 s3)
    let s5 := { s4 with md := { s4.md with shutReq := none, shut := some k, shutAt := now s4, shutBist := false, shutRan := false
                                           shutLanes := Vector.replicate 5 .none, shutUnits := Vector.replicate 18 .none
                                           shutBanks := Vector.replicate 36 .none } }
    if k = .vcore then s5
    else
      let s6 := logFlush (postEv 0x0E02 0 (leBytes 1 k.reason) s5)
      if bist then startShutBist s6 else s6

/-- `SHUTDOWN_TRIGGER`: VLOG below 15.0 V for 1 ms, or VHU below 27.0 V while the core runs from VHU (R458, R460). -/
def shutdownTrigger (r : Rails) (s0 : State) : State :=
  let s := sample r s0
  if !canShut s then s
  else if r.vlog.toNat < 1500 then enterShut .supply (supplyEvent 0 0x04 r.vlog.toNat { s with pwr := { s.pwr with onHu := true } })
  else if s.pwr.onHu && r.vhu.toNat < 2700 then enterShut .supply s
  else s

/-- `SHUTDOWN_TRIGGER`. -/
def execShutdownTrigger (r : Rails) (s : State) : Host.Outcome State Fault Refusal := .next (shutdownTrigger r s)

/-- `SHUTDOWN_ENTER`: a shut-down that a command has asked for begins (R345, R484). -/
def execShutdownEnter (s : State) : Host.Outcome State Fault Refusal :=
  .next (match s.md.shutReq with | some k => enterShut k s | none => s)

/-! ### The shut-down BIST (R487) -/

/-- The end of the BIST window: parts still running are stopped and count as failed; `bad` are the pool banks whose test row fails its
march. -/
def shutBistEnd (bad : List (Fin 36)) (s0 : State) : State :=
  if !s0.md.shutBist then s0
  else
    let s := advanceTo (s0.md.shutAt + msTicks 32) (if s0.time.tclkRun then s0 else tclkRestart 10 s0)
    let close := fun (r : PartRes) => if r = .none then PartRes.fail else r
    let lanes := vmapi (fun k r => if (laneOf s k).role == .retired && r = .none then r else close r) s.md.shutLanes
    let units := vmapi (fun u r => if (vget s.mm.units u).role == .retired && r = .none then r else close r) s.md.shutUnits
    let banks := vmapi (fun b _ => if bad.any fun x => x.val == b then PartRes.fail else PartRes.pass) s.md.shutBanks
    { s with md := { s.md with shutBist := false, shutRan := true, shutLanes := lanes, shutUnits := units, shutBanks := banks } }

/-- `SHUTDOWN_BIST_END`. -/
def execShutdownBistEnd (bad : List (Fin 36)) (s : State) : Host.Outcome State Fault Refusal := .next (shutBistEnd bad s)

/-- Bits of the parts with a result, part n at bit n. -/
def partBits {n : Nat} (r : PartRes) (v : Vector PartRes n) : Nat := ((List.range n).map fun i => at1 (vget v i == r) i).sum

/-- Shut-down BIST result: 0 not run, 1 pass, 2 fail (R488). -/
def shutResult (s : State) : Nat :=
  if !s.md.shutRan then 0
  else if vany s.md.shutLanes (· == .fail) || vany s.md.shutUnits (· == .fail) || vany s.md.shutBanks (· == .fail) then 2 else 1

/-- Data of the shut-down record (R488). -/
def shutData (s : State) : List Byte :=
  let k := s.md.shut.getD .supply
  let banks := partBits .fail s.md.shutBanks
  leBytes 1 k.reason ++ leBytes 1 (shutResult s) ++ leBytes 1 (partBits .pass s.md.shutLanes) ++ leBytes 1 (partBits .fail s.md.shutLanes) ++
  leBytes 3 (partBits .pass s.md.shutUnits) ++ leBytes 3 (partBits .fail s.md.shutUnits) ++ leBytes 5 (banks / 65536) ++
  leBytes 1 (b2n (banks % 65536 != 0))

/-! ### `OFF` and the state after a power-on (R11, R12, R283) -/

/-- What the keeper's memory and the MRAM keep of the recorder (R381, R383, R393): records, numbers, the remap table, the marker. -/
def EvrBlk.kept (e : EvrBlk) : EvrBlk :=
  { recS := e.recS, recK := e.recK, recC := e.recC, seqS := e.seqS, seqO := e.seqO, konly := e.konly, remap := e.remap, marker := e.marker }

/-- The spare rows that the row maps hold (R450). -/
def MemBlk.kept (m : MemBlk) : MemBlk := { banks := m.banks.map fun b => { rows := b.rows } }

/-- The regions of the MRAM (R453); what was in force from them is not kept. -/
def NvBlk.kept (n : NvBlk) : NvBlk := { n with inForce := {}, overs := [], replayed := false }

/-- The host port without its core: the pins, and host memory; the Quad-SPI window is the module's own memory. -/
def HpBlk.kept (h : HpBlk) : HpBlk := { perst := h.perst, mem := if h.qspi then [] else h.mem }

/-- The core domain loses its power or starts anew: every register of it takes its reset value (R11), what the keeper and the MRAM hold
stays, and so do the levels at the pins. -/
def coreReset (s : State) : State :=
  { State.reset with
    pending := s.pending, free := s.free, rdata := s.rdata, log := s.log, keep := { s.keep with waiting := none }
    nv := s.nv.kept, evr := s.evr.kept, mem := s.mem.kept, hp := s.hp.kept, fuse := s.fuse
    sup := { bank := s.sup.prefer, prefer := s.sup.prefer }
    sess := { pressed := s.sess.pressed, cfgPin := s.sess.cfgPin, sealed := s.sess.sealed, released := s.sess.released
              winOpen := s.sess.winOpen, winEnd := s.sess.winEnd, fails := s.sess.fails }
    xl := { strap := s.xl.strap, stopIn := s.xl.stopIn, killIn := s.xl.killIn }
    pwr := { vlog := s.pwr.vlog, vhu := s.pwr.vhu, v3v3 := s.pwr.v3v3, tj := s.pwr.tj, vlogOk := s.pwr.vlogOk, huReady := s.pwr.huReady
             inhibit := s.pwr.inhibit, keeperDown := s.pwr.keeperDown, vlogLowIn := s.pwr.vlogLowIn, vlogHighIn := s.pwr.vlogHighIn }
    time := { sclk := s.time.sclk, phase := s.time.phase, tbase := now s, tbaseHiLatched := BitVec.ofNat 32 (now s / 2 ^ 32), capTbase := now s, capPhase := if s.time.tclkRun then s.time.phase % 32 else 0, capSclk := s.time.sclk } }

/-- The module is `OFF`; after `KP_SHUTDOWN` it stays so while VLOG holds (R489). -/
def coreOff (latched : Bool) (s : State) : State :=
  let s1 := coreReset s
  { s1 with md := { s1.md with mstate := .off, offLatched := latched } }

/-- The highest TBASE that the keeper has recorded in its journal, its TBASE mark included (R283, R377); none when it has recorded
nothing. -/
def maxRecorded (s : State) : Option Nat :=
  if s.keep.journal.isEmpty && s.keep.mark = 0 then none else some (s.keep.journal.foldl (fun m r => max m r.tbase) s.keep.mark)

/-- TBASE of an unpowered keeper: the smallest multiple of 2³⁶ above every recorded value, 0 with an empty journal (R283). -/
def epochAbove (m : Option Nat) : Nat := m.elim 0 fun m => (m / 2 ^ 36 + 1) * 2 ^ 36

/-- What an unpowered keeper domain takes anew: TBASE, and the session count from the highest in the change log (R283, R420). -/
def keeperWake (s : State) : State :=
  let t := epochAbove (maxRecorded s)
  { s with time := { tbase := t, capTbase := t, tbaseHiLatched := BitVec.ofNat 32 (t / 2 ^ 32) }, fuse := { a := s.fuse.a, b := s.fuse.b }
           keep := { s.keep with sessionCounter := s.log.entries.foldl (fun m e => max m e.session) 0, lastReq := none, resp := none
                                 discarded := 0, fwSwitchDue := none, fwSwitchReq := none }
           sess := { s.sess with released := true, winOpen := false, winEnd := 0, fails := 0 }
           md := { s.md with offLatched := false, ledHold := none }, pwr := { s.pwr with keeperDown := false } }

/-- The module enters `STARTING` from `OFF`: start-up step 1, all LEDs lit; the sideband port listens at its default rate (R364, R501). -/
def beginStart (s : State) : State :=
  let s1 := coreReset s
  let s2 := { s1 with keep := { s1.keep with baud := 0, oldBaud := 0, baudAt := none }, md := { s1.md with ledStart := now s1 } }
  let s3 := { s2 with fuse := { a := s2.fuse.a, b := s2.fuse.b, live := s2.fuse.live, liveSt := s2.fuse.liveSt, liveLock := s2.fuse.liveLock } }
  openMasters 6 0 (journal 0x0002 1 (leBytes 1 0 ++ leBytes 1 1 ++ [0#8]) s3)

/-- `POWER_ON`: VLOG rises above 16.0 V (R19, R458, R489); `unpowered` says that the keeper domain had lost its supply. A keeper that kept
it, or that 3V3 had reset (R462), waits for 3V3 above 3.10 V. -/
def powerOn (unpowered : Bool) (r : Rails) (s0 : State) : State :=
  let s := sample r s0
  let fresh := unpowered || s.pwr.keeperDown
  if s.md.mstate != .off || r.vlog.toNat ≤ 1600 || (s.md.offLatched && !fresh) || (!unpowered && r.v3v3.toNat ≤ 3100) then s
  else
    let s1 := if fresh then keeperWake s else s
    let s2 := if fresh then { s1 with pwr := { s1.pwr with inhibit := !nvRailsOk r } } else s1
    beginStart s2

/-- `POWER_ON`. -/
def execPowerOn (unpowered : Bool) (r : Rails) (s : State) : Host.Outcome State Fault Refusal := .next (powerOn unpowered r s)

/-- Does the next start come at once when the sequence has ended (R19, R21, R489): VLOG above 16.0 V, 3V3 above 3.10 V? -/
def startsAtOnce (k : ShutKind) (s : State) : Bool := k != .kpShutdown && 1600 < s.pwr.vlog.toNat && 3100 < s.pwr.v3v3.toNat

/-- The end of the sequence: shut-down record, TBASE mark, VCORE off (R485, R488, R489). -/
def shutdownComplete (r : Rails) (s0 : State) : State :=
  if s0.md.mstate != .shuttingDown then sample r s0
  else
    let k := s0.md.shut.getD .supply
    let s1 := if k = .vcore then s0 else advanceTo (s0.md.shutAt + msTicks 33) (shutBistEnd [] s0)
    let s2 := sample r s1
    let s3 := writeMark (journal 0x0003 3 (shutData s2) s2)
    let s4 := coreOff (k = .kpShutdown) (journal 0x0002 1 (leBytes 1 5 ++ leBytes 1 0 ++ [0#8]) s3)
    if startsAtOnce k s4 then beginStart s4 else s4

/-- `SHUTDOWN_COMPLETE`. -/
def execShutdownComplete (r : Rails) (s : State) : Host.Outcome State Fault Refusal := .next (shutdownComplete r s)

/-- `KEEPER_RESET`: 3V3 below 2.90 V (R462). The module is `OFF` at once. -/
def keeperReset (r : Rails) (s0 : State) : State :=
  let s := sample r s0
  if 2900 ≤ r.v3v3.toNat then s
  else
    let s1 := coreOff false { s with pwr := { s.pwr with inhibit := true } }
    { s1 with pwr := { s1.pwr with keeperDown := true }, sess := { s1.sess with winOpen := false, winEnd := 0, fails := 0 } }

/-- `KEEPER_RESET`. -/
def execKeeperReset (r : Rails) (s : State) : Host.Outcome State Fault Refusal := .next (keeperReset r s)

/-- VCORE left its window (R462, R490): the recorder stops, the output guard trips, and the module shuts down without log flush and BIST.
During `SHUTTING_DOWN` flush and BIST stop. -/
def vcoreFault (r : Rails) (s0 : State) : State :=
  let s := sample r s0
  let v := r.vcore.toNat
  if (855 ≤ v ∧ v ≤ 945) ∨ s.md.mstate = .off then s
  else
    let s1 := supplyEvent 5 0x31 (v / 10) (pwrEvt 5 { s with evr := { s.evr with stopped := true, marker := false, queue := [] } })
    let s2 := guardTrip 0 s1
    if s2.md.mstate = .shuttingDown then { s2 with md := { s2.md with shutBist := false, shutRan := false } }
    else enterShut .vcore s2

/-- `VCORE_FAULT`. -/
def execVcoreFault (r : Rails) (s : State) : Host.Outcome State Fault Refusal := .next (vcoreFault r s)

end Sys2Proof.Machine
end

