-- ==== Sys2Proof/Machine/Start.lean ====
section
/-! DEFINITION. The start-up sequence step by step (20_start_shutdown R474 to R483): each `STARTUP_STEP` does the work of the step in
progress, and the next one begins unless a cause stops the sequence. -/

namespace Sys2Proof.Machine

/-- The step in progress ends and step `n` begins, unless the sequence has been stopped. -/
def toStep (n : Nat) (s : State) : State :=
  if s.md.mstate == .starting then { s with md := { s.md with startStep := n } } else s

/-! ### Step 1: keeper (R257, R460, R465) -/

/-- The keeper's self-check, the straps, the wait for the hold-up bank, the end of the NV-write inhibit. -/
def startKeeper (e : StepEnv) (s : State) : State :=
  if !e.keeperOk then enterFault 0x26 s
  else
    let s1 := { s with xl := { s.xl with mid := s.xl.strap.toNat }
                       pwr := { s.pwr with goscOk := true, inhibit := s.pwr.inhibit && !nvRailsOk e.rails } }
    if s1.pwr.huReady then toStep 2 s1 else s1

/-! ### Step 2: fuses (R398, R406, R408, R412, R476) -/

/-- The sensed groups that are marginal or invalid are recorded (R406, R376). -/
def recordGroups (s : State) : State :=
  (List.range 8).foldl (fun s g =>
    let x := vget s.fuse.grps g
    if x.st < 2 then s
    else
      let data := leBytes 2 x.marg.toNat ++ leBytes 1 x.st
      journal 0x000A 4 (leBytes 1 g ++ data) (postEv 0x0D01 g data s)) s

/-- The shadow hash against the one that the keeper holds (R408): the first start stores it; a differing one is reported, and stored once
three starts in a row have given it. -/
def hashCheck (s : State) : State :=
  let h := shadowHash s.fuse
  let k := s.keep
  if !k.hashSet then { s with keep := { k with shadowHash := h, hashSet := true } }
  else if h = k.shadowHash then { s with keep := { k with hashNew := [], hashRepeat := 0 } }
  else
    let n := if h = k.hashNew then k.hashRepeat + 1 else 1
    let k1 := if 3 ≤ n then { k with shadowHash := h, hashNew := [], hashRepeat := 0 } else { k with hashNew := h, hashRepeat := n }
    let s1 := { s with keep := k1, fuse := { s.fuse with shadowMis := true, evt := s.fuse.evt ||| 4#32 } }
    journal 0x000A 5 [] (postEv 0x0D02 0 [] s1)

/-- Journal records of a kind that can be read. -/
def journalKind (k : Nat) (s : State) : List KRec := s.keep.journal.filter fun r => r.kind == k && !r.crcBad

/-- The decision of R476: the lowest code that applies, 0 for a quick start. -/
def startReason (s : State) : Nat :=
  match (journalKind 0x0001 s).getLast?, (journalKind 0x0003 s).getLast? with
  | none, _ => 1
  | some _, none => 2
  | some a, some d =>
    if d.seq < a.seq then 2
    else if lget d.data 1 0#8 != 1#8 then 3
    else if d.tbase + 41472000000000 ≤ now s then 4
    else if s.fuse.shadowMis then 5
    else if vall s.keep.retLanes id then 6
    else 0

/-- What the fuses select once they are in force (R300), and the head of an empty change log (R424). -/
def fusesInForce (s : State) : State :=
  let s1 := { s with hp := { s.hp with qspi := hpSel s, disabled := inForce s 3 == 2, rev := BitVec.ofNat 8 (fuseField s 0 119 112) } }
  if s1.log.n = 0 then
    let h := sha256 (beBytes 8 (moduleUid s1))
    { s1 with log := { s1.log with head := h, anchorHash := h } }
  else s1

/-- Sensing, hash check and decision. -/
def startFuses (e : StepEnv) (s : State) : State :=
  let f := takeForce (senseAll e.noise (List.range 8) s.fuse)
  let f1 := { f with sensed := true, shadowMis := false, rsvSet := bits f.shadow.toNat 8191 6400 != 0 }
  let s1 := hashCheck (recordGroups { s with fuse := f1, keep := { s.keep with senseTj := s.pwr.tj } })
  if inForce s1 0 != 1 || inForce s1 1 != 1 then enterFault 0x26 s1
  else
    let s2 := fusesInForce s1
    let r := startReason s2
    toStep 3 { s2 with md := { s2.md with startFull := r != 0, startReason := r } }

/-! ### Steps 3 and 4: life cycle and boot (R413, R441, R465) -/

/-- `SCRAPPED` stops the sequence in step 3. -/
def startLife (s : State) : State :=
  if s.fuse.lc = 4 then { s with md := { s.md with scrapped := true } } else toStep 4 s

/-- The core clocks start (R465): TCLK from an SCLK edge on. Channel writes that waited for an edge land on this one (R288). -/
def startClocks (s : State) : State :=
  let s1 := if s.time.phase = 0 then s else advance (32 - s.time.phase) s
  { s1 with tmr := { tmrEdge { dt := 0, ops := s1.tmr.wait } s1.tmr with wait := [] }
            time := { s1.time with tbase := now s1, phase := 0, tclkRun := true, fllLock := true, chkValid := false, fllAt := none, slipNext := false }
            pwr := { s1.pwr with xoOk := true, lclkLock := true, supLock := true } }

/-- Does a supervisor bank verify at boot: signature, and version against `SUP_MIN`? -/
def bankBoots (s : State) (b : Bool) : Bool :=
  let m := vget s.nv.sup (b2n b)
  !m.isEmpty && Config.supSigned m && supMin s ≤ (Config.supVersion m).toNat

/-- Boot of the preferred bank, else of the other one; the start record (R376). -/
def startBoot (s : State) : State :=
  let p := s.sup.prefer
  if !bankBoots s p && !bankBoots s !p then enterFault 0x23 s
  else
    let b := if bankBoots s p then p else !p
    let s1 := startClocks { s with sup := { s.sup with bank := b } }
    let s2 := supServe s1
    let data := leBytes 1 (b2n s2.md.startFull) ++ leBytes 1 (b2n b) ++ leBytes 1 (b2n !s2.fuse.shadowMis) ++ leBytes 1 s2.md.startReason
    toStep 5 (journal 0x0001 1 data s2)

/-! ### Step 5: lane microcode (R75, R163, R477, R478) -/

/-- Microcode as the load verifies it: vendor signature, and the floor `UC_MIN`. -/
def ucodeOk (s : State) (m : Mem 8) : Bool := Config.ucodeSigned m && ucMin s ≤ (Config.ucodeVersion m).toNat

/-- The microcode of the booted bank. -/
def bankMicro (s : State) : Mem 8 := Config.bankUcode (vget s.nv.sup (b2n s.sup.bank))

/-- The staged microcode is the target's version (R478). -/
def stagedIsTarget (s : State) : Bool := !s.nv.ucode.isEmpty && Config.ucodeVersion s.nv.ucode == s.keep.targetUcode

/-- The microcode that every lane is loaded with, and whether the target returns to the bank's. -/
def startUcode (s : State) : Mem 8 × Bool :=
  if stagedIsTarget s then (if ucodeOk s s.nv.ucode then (s.nv.ucode, false) else (bankMicro s, true)) else (bankMicro s, false)

/-- A quick start keeps every lane and unit retired that was; a full start offers them all again. -/
def offerParts (s : State) : State :=
  if s.md.startFull then { s with keep := { s.keep with retLanes := Vector.replicate 5 false, retUnits := Vector.replicate 18 false } } else s

/-- Lanes load the microcode and enter their test of step 6, and so do the units. -/
def startLoad (e : StepEnv) (s0 : State) : State :=
  let s := offerParts s0
  let (m, back) := startUcode s
  let ver := Config.ucodeVersion m
  let tend := now s + msTicks (if s.md.startFull then 50 else 10)
  let s1 := { s with
    lane := { s.lane with lanes := vmapi (fun k _ => { role := if vget s.keep.retLanes k then .retired else .ucodeLoad : Lane }) s.lane.lanes }
    mm := { s.mm with units := vmapi (fun u _ => if vget s.keep.retUnits u then { role := .retired : MUnit } else { role := .bist, bistRes := 3, testEnd := tend : MUnit }) s.mm.units }
    keep := if back then { s.keep with targetUcode := ver } else s.keep
    md := { s.md with step6End := tend } }
  let load := fun (s : State) (k : Nat) =>
    if (laneOf s k).role != .ucodeLoad then s
    else if !ucodeOk s m || e.loadFail.any (fun j => j.val == k) then retireLane k s
    else
      let s1 := modLane k (fun l => { l with role := .bist, bistRes := 3, ucodeVer := ver, testEnd := tend }) s
      if back then postEv 0x040D k [ver] s1 else s1
  toStep 6 ((List.range 5).foldl load s1)

/-! ### Step 6: injection and BIST (R68, R78, R163) -/

/-- The end of lane k's test; a quick start injects into the comparator alone. -/
def startLane (e : StepEnv) (s : State) (k : Nat) : State :=
  if (laneOf s k).role != .bist then s
  else match e.laneFail.find? fun p => p.1.val == k with
    | some p => retireLane k (bistFailed k (if s.md.startFull then p.2.val else 2) (modLane k (fun l => { l with bistRes := 2 }) s))
    | none => modLane k (fun l => { l with role := .spare, bistRes := 1, lastBist := if s.md.startFull then some (now s) else l.lastBist }) s

/-- The end of unit u's test. -/
def startUnit (e : StepEnv) (s : State) (u : Nat) : State :=
  if (vget s.mm.units u).role != .bist then s
  else if e.unitFail.any fun j => j.val == u then
    let s1 := modUnit u (fun x => { x with role := .retired, bistRes := 2 }) s
    postEv 0x0506 u (leBytes 1 0) (mmEvt 6 (mmEvt 5 { s1 with keep := { s1.keep with retUnits := vset s1.keep.retUnits u true } }))
  else modUnit u (fun x => { x with role := .spare, bistRes := 1, lastBist := if s.md.startFull then some (now s) else x.lastBist }) s

/-- Tests of lanes, units and output guard. -/
def startTests (e : StepEnv) (s : State) : State :=
  let s1 := (List.range 18).foldl (startUnit e) ((List.range 5).foldl (startLane e) s)
  if (spares s1).isEmpty then enterFault 0x22 s1
  else if !e.guardOk then enterFault 0x21 s1
  else toStep 7 s1

/-! ### Step 7: memory (R393, R394, R449 to R454) -/

/-- The recorder's directory and shut-down marker: keeper-only mode ends or begins, an incomplete flush is recorded. -/
def startRecorder (e : StepEnv) (s : State) : State :=
  let s1 := { s with evr := { s.evr with konly := s.evr.konly && !(e.dirOk && e.sparesOk), ready := true } }
  let s2 := if e.dirOk then s1 else enterKonly 1 s1
  let any := s.evr.seqS != 0 || s.evr.seqO != 0
  let s3 := if e.dirOk && any && !s.evr.marker then postEv 0x0B04 0 [] s2 else s2
  { s3 with evr := { s3.evr with marker := false } }

/-- Replay, findings of the march and of the MRAM read pass, the recorder. -/
def startMemory (e : StepEnv) (s : State) : State :=
  let s1 := { s with nv := { s.nv with replayed := e.replayed } }
  let s2 := e.finds.foldl (fun s x => poolFound x s) s1
  if vany s2.mem.banks (·.degraded) then enterFault 0x25 s2
  else
    let s3 := e.mram.foldl (fun s p => memReport (mramInst p.1) (rsDecode (foldMram p.1) p.2) p.1 s) s2
    let s4 := if s3.md.startFull then { s3 with mem := { s3.mem with scrubPassed := true } } else s3
    toStep 8 (startRecorder e s4)

/-! ### Step 8: configuration and image (R93, R143, R184, R430 to R434) -/

/-- The active configuration, where it passes its check against the hardware. -/
def startCfg (s : State) : Option Cfg :=
  match activeCopy s.nv.cfg with
  | none => none
  | some i => match checkCfg s (vget s.nv.cfg i).file none [] with | .ok c => some c | _ => none

/-- The active calibration record: none where it fails; without an active copy the trims stay 0. -/
def startCal (s : State) : Option Cal :=
  match activeCopy s.nv.cal with
  | none => some {}
  | some i => if calShape (vget s.nv.cal i).file then some (readCal (vget s.nv.cal i).file) else none

/-- Configuration, calibration and image take force, or give their causes. -/
def startForce (s : State) : State :=
  let s1 := match startCfg s with | some c => applyCfg c s | none => setMasters (setToMask s)
  let s2 := match startCal s with | some c => applyCal c s1 | none => s1
  let (im, cause) := judgeImage s2
  let s3 := { s2 with image := im }
  let calBad := match startCal s, im with | none, _ => true | some c, some i => !overOk i c.overs | some _, none => false
  let bad := (startCfg s).isNone || calBad || (im.isSome && !cfgFits s3) || cause == some 0x12
  let s4 := { s3 with md := { s3.md with cfgBad := bad } }
  let s5 := newDefaults none (if bad then findCause 0x12 s4 else s4)
  match cause with | some c => findCause c s5 | none => s5

/-- The first t0, and the clocks of the rotations and of the master tests. -/
def startCycles (s : State) : State :=
  let t := now s
  { s with cyc := { s.cyc with period := s.cyc.tcyc, nextT0 := t + periodTicks s.cyc.tcyc, running := true, open_ := false
                               guard := { resync := true } }
           lane := { s.lane with rotSince := t }, mm := { s.mm with rotSince := t }
           out := { s.out with grps := s.out.grps.map fun x => { x with mtLast := t } }
           md := { s.md with firstT0 := none, committedCycles := 0 } }

/-- With every lane retired no logical lane can be placed. -/
def allRetired (s : State) : State := if vall s.lane.lanes fun l => l.role == .retired then findCause 0x16 s else s

/-- Rings that have a configured node and a link ask for their bring-up; the PHYs run (R247, R466). -/
def startRings (s : State) : State :=
  let s1 := { s with pwr := { s.pwr with phyLock := s.pwr.xoOk } }
  (List.range 2).foldl (fun s k =>
    let link := (vget s.ring.ports (2 * k)).link || (vget s.ring.ports (2 * k + 1)).link
    modRing k (fun r => { r with bring := decide (0 < nCfg s k) && link, bringing := false }) s) s1

/-- Regions, overrides, monitors, logical lanes, first t0. -/
def startConfig (s : State) : State :=
  let s1 := allRetired (placeWaiting (placeMons true (seedAll (startForce s))))
  toStep 9 (startRings (startCycles s1))

/-! ### Steps 9 to 11 (R260, R464, R479, R480) -/

/-- `STARTUP_STEP`: the step in progress ends with what its tests found. Steps 9 and 10 end whatever rings and carrier have reached;
step 11 ends with `STARTUP_COMPLETE`. -/
def startupStep (e : StepEnv) (s0 : State) : State :=
  let s1 := sample e.rails s0
  if s1.md.mstate != .starting || s1.md.scrapped then s1
  else
    let s := match e.cap with | some c => holdupTest c e.rails s1 | none => s1
    match s.md.startStep with
    | 1 => startKeeper e s
    | 2 => startFuses e s
    | 3 => startLife s
    | 4 => startBoot s
    | 5 => startLoad e s
    | 6 => startTests e s
    | 7 => startMemory e s
    | 8 => startConfig s
    | 9 => toStep 10 { s with xl := { s.xl with joinFrom := now s } }
    | 10 => toStep 11 (fixStartBands s)
    | _ => s

/-- `STARTUP_STEP`. -/
def execStartupStep (e : StepEnv) (s : State) : Host.Outcome State Fault Refusal := .next (startupStep e s)

end Sys2Proof.Machine
end

