-- ==== Sys2Proof/Machine/Keeper.lean ====
section
/-! DEFINITION. The keeper's own commands over the sideband port (14_sideband R363 to R378), its firmware switch (17 R442) and the
presence window (17 R416 to R419). -/

namespace Sys2Proof.Machine

/-! ### Frames (R365 to R369) -/

/-- CRC of a received frame with its command code. -/
def Frame.crc (f : Frame) (cmd : Nat) : Half :=
  crc16 (leBytes 2 (5 + f.payload.length) ++ [f.addr] ++ leBytes 2 f.tag.toNat ++ leBytes 2 cmd ++ f.payload)

/-- Is the frame addressed to this module: its MID, or a broadcast of `KP_BAUD` (R368)? -/
def Frame.mine (f : Frame) (cmd : Nat) (s : State) : Bool :=
  let a := f.addr.toNat
  a == midOf s || (a == 8 && cmd == 0x8001)

/-- Is it a broadcast, which no module answers? -/
def Frame.all (f : Frame) : Bool := f.addr == 8#8

/-- Does the keeper hear frames at all (R375, R442, R462)? -/
def keeperHears (s : State) : Bool := s.keep.fwSwitchDue.isNone && !s.pwr.keeperDown

/-- A frame that breaks R367, or meets the answer of an earlier one, is discarded and counted. -/
def discard (s : State) : State := { s with keep := { s.keep with discarded := satUp s.keep.discarded } }

/-- A field of the payload. -/
def Frame.arg (f : Frame) (o n : Nat) : Nat := leAt f.payload o n

/-- The answer to a keeper command: status, then results. -/
def kpAnswer (cmd : Nat) (f : Frame) (st : Status) (res : List Byte) (s : State) : State :=
  if f.all then s else sbRespond f.tag cmd (leBytes 2 st.code ++ res) s

/-! ### Serving (R371 to R374) -/

/-- What a keeper command needs: class P1, form, and whether it is a recovery command. -/
structure KpNeeds where
  p1 : Bool := false
  bad : Bool := false
  recovery : Bool := false
  /-- Served in `OFF` and `SHUTTING_DOWN` too (R373). -/
  always : Bool := false
  wrong : Bool := false
  /-- It changes stored or running state: its change-log entry is written first (R332, R423, R426). -/
  logs : Bool := false
  /-- The MRAM writes verify (R454). -/
  nvOk : Bool := true
deriving DecidableEq, Repr, Inhabited

/-- The first refusal of a keeper command. -/
def KpNeeds.refuse (n : KpNeeds) (s : State) : Option Status :=
  if n.recovery && noRecover s then some .protectedReg
  else if (s.md.mstate == .off || s.md.mstate == .shuttingDown) && !n.always then some .wrongState
  else if s.md.scrapped && n.p1 then some .wrongState
  else if n.p1 && !sbEnabled s then some .protectedReg
  else if n.p1 && !windowOpen s then some .noPresence
  else if n.bad then some .badParameter
  else if n.wrong then some .wrongState
  else if n.logs && (s.pwr.inhibit || !n.nvOk) then some .nvFailed
  else none

/-- The change-log entry that the keeper writes for a command of its own: requester 0x41, level 1, session 0, and the hash of the request's `CMD`
and `PAYLOAD` (R423). -/
def kpLog (cmd : Nat) (f : Frame) (s : State) : State :=
  logAppend cmd Status.ok.code 0x41 1 0 (sha256 (leBytes 2 cmd ++ f.payload)) (now s) s

/-- What a refusal with `NV_FAILED` leaves in the write counters (R454, R455). -/
def nvRefused (s : State) : State := if s.pwr.inhibit then countInhibited s else verifyFailed s

/-- The keeper accepts a request (R364, R369): a rate change is confirmed, the request is the last accepted one. -/
def kpHeard (cmd : Nat) (f : Frame) (s : State) : State :=
  { s with keep := { s.keep with baudAt := none, lastReq := some (f.tag, cmd, f.crc cmd) } }

/-- A keeper command received over the line: addressed, one at a time, not executed twice; then its refusal or its effect. -/
def kpServe (cmd : Nat) (f : Frame) (n : KpNeeds) (act : State → State) (s : State) : State :=
  if !keeperHears s || !f.mine cmd s then s
  else
    let s0 := { s with keep := { s.keep with baudAt := none } }
    if s.keep.waiting.isSome || 1024 < f.payload.length then discard s0
    else if s.keep.lastReq == some (f.tag, cmd, f.crc cmd) then
      (if f.all then s0 else { s0 with keep := { s0.keep with sent := s0.keep.sent + 1 } })
    else
      match n.refuse (kpHeard cmd f s) with
      | some st => kpAnswer cmd f st [] (if st = .nvFailed then nvRefused (kpHeard cmd f s) else kpHeard cmd f s)
      | none => act (if n.logs then kpLog cmd f (kpHeard cmd f s) else kpHeard cmd f s)

/-! ### Reading (R372, R378) -/

/-- Results of `KP_STATUS`. -/
def kpStatusData (s : State) : List Byte :=
  [BitVec.ofNat 8 s.md.mstate.code, s.md.cause, BitVec.ofNat 8 s.sup.sup.code, BitVec.ofNat 8 (presenceBits s)] ++
  leBytes 2 (min 65535 (windowLeft s)) ++ leBytes 2 s.pwr.vlog.toNat ++ leBytes 2 s.pwr.vhu.toNat ++ leBytes 2 (vget s.out.grps 0).vGrp.toNat ++
  leBytes 2 (vget s.out.grps 1).vGrp.toNat ++ [s.pwr.tj, BitVec.ofNat 8 s.keep.baud] ++ leBytes 8 (now s) ++ leBytes 4 s.keep.seq ++
  leBytes 2 s.keep.lost.toNat ++ leBytes 2 s.keep.discarded.toNat

/-- `KP_STATUS`: P0. -/
def execKpStatus (f : Frame) (s : State) : Host.Outcome State Fault Refusal :=
  .next (kpServe 0x8000 f { always := true, bad := f.payload.length != 0 } (fun s => kpAnswer 0x8000 f .ok (kpStatusData s) s) s)

/-- `KP_BAUD`: P0. The answer goes at the old rate, and a valid frame must follow within 10 s (R364). -/
def execKpBaud (f : Frame) (s : State) : Host.Outcome State Fault Refusal :=
  .next (kpServe 0x8001 f { bad := f.payload.length != 1 || 4 < f.arg 0 1 }
    (fun s => let s1 := kpAnswer 0x8001 f .ok [] s
      { s1 with keep := { s1.keep with oldBaud := s1.keep.baud, baud := f.arg 0 1, baudAt := some (now s1) } }) s)

/-- `BAUD_REVERT`: no valid frame has come within 10 s after a rate change. -/
def baudRevert (s : State) : State :=
  match s.keep.baudAt with
  | none => s
  | some t =>
    let s1 := advanceTo (t + 160000000) s
    { s1 with keep := { s1.keep with baud := s1.keep.oldBaud, baudAt := none } }

/-- `BAUD_REVERT`. -/
def execBaudRevert (s : State) : Host.Outcome State Fault Refusal := .next (baudRevert s)

/-- Sequence number of the oldest record present, 0 for an empty journal. -/
def oldestKrec (s : State) : Nat := match s.keep.journal with | [] => 0 | r :: _ => r.seq

/-- `KP_JOURNAL_INFO`: P0. -/
def execKpJournalInfo (f : Frame) (s : State) : Host.Outcome State Fault Refusal :=
  .next (kpServe 0x8002 f { always := true, bad := f.payload.length != 0 }
    (fun s => kpAnswer 0x8002 f .ok (leBytes 4 (oldestKrec s) ++ leBytes 4 s.keep.seq ++ leBytes 8 s.keep.mark ++ leBytes 2 s.keep.lost.toNat) s) s)

/-- The records that a read of the journal delivers (R378). -/
def journalRecs (first n : Nat) (s : State) : List KRec := (s.keep.journal.filter fun r => first ≤ r.seq).take n

/-- Delivery of a journal read: `CURSOR_OVERRUN` with the records when the first one asked for has been overwritten; bit 7 of the count
when a record's `CRC` fails. -/
def journalRead (f : Frame) (s : State) : State :=
  let first := f.arg 0 4
  let l := journalRecs first (f.arg 4 1) s
  let old := oldestKrec s
  let st := if first < old && 1 < old then Status.cursorOverrun else .ok
  kpAnswer 0x8003 f st (leBytes 1 (l.length + at1 (l.any (·.crcBad)) 7) ++ [0#8] ++ l.flatMap KRec.bytes) s

/-- `KP_JOURNAL_READ`: P0. -/
def execKpJournalRead (f : Frame) (s : State) : Host.Outcome State Fault Refusal :=
  .next (kpServe 0x8003 f { always := true, bad := f.payload.length != 5 || f.arg 4 1 < 1 || 15 < f.arg 4 1 } (journalRead f) s)

/-! ### Acting (R373) -/

/-- `KP_HOLD`: P0; `SAFE_HOLD` with cause 0x13 follows at the next commit point. -/
def execKpHold (f : Frame) (s : State) : Host.Outcome State Fault Refusal :=
  .next (kpServe 0x8004 f
    { bad := f.payload.length != 0, wrong := !(s.md.mstate == .run || s.md.mstate == .quiet || s.md.mstate == .safeHold) }
    (fun s => findCause 0x13 (kpAnswer 0x8004 f .ok [] s)) s)

/-- `KP_HOLD_ACK`: P1, judged as `HOLD_ACK` (R25). -/
def execKpHoldAck (f : Frame) (s : State) : Host.Outcome State Fault Refusal :=
  .next (kpServe 0x8005 f
    { p1 := true, logs := true, bad := f.payload.length != 0, wrong := s.md.mstate != .safeHold || !causesGone s || clashes s .holdAck }
    (fun s => schedule .holdAck none (kpAnswer 0x8005 f .ok [] s)) s)

/-- `KP_SHUTDOWN`: P1; the response is sent first. -/
def execKpShutdown (f : Frame) (s : State) : Host.Outcome State Fault Refusal :=
  .next (kpServe 0x8006 f { p1 := true, logs := true, bad := f.payload.length != 0, wrong := !canShut s }
    (fun s => enterShut .kpShutdown (kpAnswer 0x8006 f .ok [] s)) s)

/-- In `OFF` after `KP_SHUTDOWN` a reset starts the module, as a rise of VLOG would (R489). -/
def resetWakes (s : State) : Bool := s.md.mstate == .off && s.md.offLatched && 1600 < s.pwr.vlog.toNat

/-- `KP_RESET`: P1. -/
def execKpReset (f : Frame) (s : State) : Host.Outcome State Fault Refusal :=
  .next (kpServe 0x8007 f { p1 := true, logs := true, bad := f.payload.length != 0, always := resetWakes s, wrong := !canShut s && !resetWakes s }
    (fun s => let s1 := kpAnswer 0x8007 f .ok [] s
      if resetWakes s then beginStart s1 else enterShut .kpReset s1) s)

/-- `KP_SUP_RESTART`: P1; there must be a supervisor to restart. -/
def execKpSupRestart (f : Frame) (s : State) : Host.Outcome State Fault Refusal :=
  .next (kpServe 0x8008 f { p1 := true, logs := true, bad := f.payload.length != 0, wrong := !(supRuns s || s.sup.sup == .halted) }
    (fun s => supStop .restarting (kpAnswer 0x8008 f .ok [] s)) s)

/-- `KP_PRESENCE_CLOSE`: P0. A window whose length has run out closes for that reason. -/
def execKpPresenceClose (f : Frame) (s : State) : Host.Outcome State Fault Refusal :=
  .next (kpServe 0x8009 f { bad := f.payload.length != 0 }
    (fun s => closeWindow (if windowOpen s then 1 else 0) (kpAnswer 0x8009 f .ok [] s)) s)

/-! ### Recovery loading (R374) -/

/-- Bank named by a recovery command. -/
def Frame.bank (f : Frame) : Nat := f.arg 0 1

/-- Does a supervisor bank run? None does while the supervisor is halted, nor in `FAULT` with cause 0x23. -/
def bankRuns (s : State) (b : Nat) : Bool :=
  s.sup.sup != .halted && !(s.md.mstate == .fault && s.md.cause == 0x23#8) && b2n s.sup.bank == b

/-- State that a recovery command needs. -/
def recoverWrong (s : State) (f : Frame) : Bool := s.sup.sup == .serving || bankRuns s f.bank

/-- `KP_RECOVER_WRITE`: P1; `nvOk` says that the MRAM write verifies. -/
def execKpRecoverWrite (f : Frame) (nvOk : Bool) (s : State) : Host.Outcome State Fault Refusal :=
  let n := f.payload.length - 8
  let o := f.arg 4 4
  .next (kpServe 0x8010 f
    { p1 := true, recovery := true, wrong := recoverWrong s f, logs := true, nvOk := nvOk
      bad := f.payload.length < 9 || 1 < f.bank || o % 8 != 0 || 4194304 < o + n }
    (fun s =>
      kpAnswer 0x8010 f .ok [] { s with nv := { s.nv with sup := vmod s.nv.sup f.bank fun m => Mem.writeBytes 0 m o (f.payload.drop 8) }
                                        keep := { s.keep with recovered := vmod s.keep.recovered f.bank (· + n) }
                                        sup := { s.sup with otherChecked := false } }) s)

/-- `KP_RECOVER_DIGEST`: P1. -/
def execKpRecoverDigest (f : Frame) (s : State) : Host.Outcome State Fault Refusal :=
  let n := f.arg 4 4
  .next (kpServe 0x8011 f
    { p1 := true, recovery := true, wrong := recoverWrong s f, bad := f.payload.length != 8 || 1 < f.bank || n = 0 || 4194304 < n }
    (fun s => kpAnswer 0x8011 f .ok (sha256 (Mem.readBytes 0 (vget s.nv.sup f.bank) 0 n)) s) s)

/-- The bank becomes the preferred one, and the module restarts as by `KP_RESET`. -/
def recoverBoot (f : Frame) (s : State) : State :=
  let b := f.bank
  let s1 := journal 0x000B 2 (leBytes 1 b ++ leBytes 4 (vget s.keep.recovered b) ++ [1#8]) (kpAnswer 0x8012 f .ok [] s)
  enterShut .recoverBoot { s1 with sup := { s1.sup with prefer := b == 1 }, keep := { s1.keep with recovered := vset s1.keep.recovered b 0 } }

/-- `KP_RECOVER_BOOT`: P1. -/
def execKpRecoverBoot (f : Frame) (s : State) : Host.Outcome State Fault Refusal :=
  .next (kpServe 0x8012 f
    { p1 := true, logs := true, recovery := true, wrong := recoverWrong s f || !canShut s, bad := f.payload.length != 1 || 1 < f.bank } (recoverBoot f) s)

/-! ### The line (R367, R369) -/

/-- `SIDEBAND_FRAME_DISCARD`. -/
def execSidebandFrameDiscard (s : State) : Host.Outcome State Fault Refusal := .next (if keeperHears s then discard s else s)

/-- `SIDEBAND_BYTE_TIMEOUT`: more than 2 ms between two bytes of a frame. -/
def execSidebandByteTimeout (s : State) : Host.Outcome State Fault Refusal := .next (if keeperHears s then discard s else s)

/-- `SIDEBAND_REPEAT_REQUEST`: a request with tag, command and CRC of the last accepted one is answered with the stored response. -/
def sidebandRepeat (tag cmd crc : Half) (s : State) : State :=
  if !keeperHears s || s.keep.lastReq != some (tag, cmd.toNat, crc) then s
  else
    let s0 := { s with keep := { s.keep with baudAt := none } }
    if s.keep.waiting.isSome then discard s0 else { s0 with keep := { s0.keep with sent := s0.keep.sent + 1 } }

/-- `SIDEBAND_REPEAT_REQUEST`. -/
def execSidebandRepeatRequest (tag cmd crc : Half) (s : State) : Host.Outcome State Fault Refusal := .next (sidebandRepeat tag cmd crc s)

/-! ### Keeper firmware (R442) -/

/-- The switch in progress ends with a version; its command completes. -/
def keeperSwitched (ver : Half) (s : State) : State :=
  let s1 := { s with keep := { s.keep with fwVer := ver, fwSwitchDue := none, fwSwitchReq := none }, md := { s.md with ledHold := none } }
  match s.keep.fwSwitchReq with | some q => answer 0x0606 q (le2 ver.toNat) s1 | none => s1

/-- `KEEPER_FW_READY`: the new firmware is ready within 2 s. -/
def keeperReady (s : State) : State :=
  match s.keep.fwSwitchDue with
  | none => s
  | some d => if d < now s then s
      else keeperSwitched s.keep.fwNewVer (journal 0x000C 2 (leBytes 2 s.keep.fwVer.toNat ++ leBytes 2 s.keep.fwNewVer.toNat) s)

/-- `KEEPER_FW_READY`. -/
def execKeeperFwReady (s : State) : Host.Outcome State Fault Refusal := .next (keeperReady s)

/-- `KEEPER_SWITCH_TIMEOUT`: the hardware watchdog starts the old bank. -/
def keeperTimeout (s : State) : State :=
  match s.keep.fwSwitchDue with | none => s | some d => keeperSwitched s.keep.fwVer (advanceTo d s)

/-- `KEEPER_SWITCH_TIMEOUT`. -/
def execKeeperSwitchTimeout (s : State) : Host.Outcome State Fault Refusal := .next (keeperTimeout s)

/-! ### Presence (R416 to R419) -/

/-- The presence inputs as sampled; during a keeper firmware switch they are not (R442). -/
def samplePins (p : Pins) (s : State) : State :=
  if !keeperHears s then s
  else { s with sess := { s.sess with pressed := p.pressed, cfgPin := p.cfg, sealed := p.sealed, released := s.sess.released || !p.pressed } }

/-- Is every source that G3 requires present (R402)? -/
def sourcesOk (s : State) : Bool := (!reqCfg s || s.sess.cfgPin) && (!reqSeal s || !s.sess.sealed)

/-- A window that has run out and is not closed yet closes now. -/
def closeExpired (s : State) : State := if s.sess.winOpen && !windowOpen s then closeWindow 0 s else s

/-- Ticks of the window length. -/
def winTicks (s : State) : Nat := winMin s * 960000000

/-- `PRESENCE` has been held for the hold time: a window opens, or its length restarts (R417); `released` says that the button was read
released since the last opening. -/
def presenceOpen (p : Pins) (released : Bool) (s0 : State) : State :=
  if !keeperHears s0 then s0
  else
    let s1 := closeExpired s0
    let may := s1.sess.released || released
    let s := samplePins p s1
    if !p.pressed || !may || !sourcesOk s then { s with sess := { s.sess with released := s.sess.released || released } }
    else
      let again := s.sess.winOpen
      let s2 := { s with sess := { s.sess with winOpen := true, winEnd := now s + winTicks s, released := false, fails := if again then s.sess.fails else 0 }
                         md := { s.md with ledWindow := some (now s) } }
      journal 0x0005 2 (leBytes 1 (if again then 2 else 1) ++ leBytes 1 (presenceBits s2) ++ [0xFF#8]) s2

/-- `PRESENCE_WINDOW_OPEN`. -/
def execPresenceWindowOpen (p : Pins) (released : Bool) (s : State) : Host.Outcome State Fault Refusal := .next (presenceOpen p released s)

/-- `PRESENCE_WINDOW_CLOSE`: at once when a required source is missing, else when the window's length has passed (R418). -/
def presenceClose (p : Pins) (s0 : State) : State :=
  let s := samplePins p (closeExpired s0)
  if !s.sess.winOpen then s
  else if keeperHears s && !sourcesOk s then closeWindow 3 s
  else closeWindow 0 (advanceTo s.sess.winEnd s)

/-- `PRESENCE_WINDOW_CLOSE`. -/
def execPresenceWindowClose (p : Pins) (s : State) : Host.Outcome State Fault Refusal := .next (presenceClose p s)

end Sys2Proof.Machine
end

