-- ==== Sys2Proof/Machine/Dispatch.lean ====
section
/-! DEFINITION. What a command does to everything but the queue: one arm per constructor, each a direct call of its meaning. -/

namespace Sys2Proof.Machine

def exec (i : Instr) (s : State) : Host.Outcome State Fault Refusal :=
  match i with
  | .nop q => Sys2Proof.Machine.execNop q s
  | .identGet q => Sys2Proof.Machine.execIdentGet q s
  | .stateGet q => Sys2Proof.Machine.execStateGet q s
  | .sessionOpen q => Sys2Proof.Machine.execSessionOpen q s
  | .sessionClose q => Sys2Proof.Machine.execSessionClose q s
  | .cfgStage q => Sys2Proof.Machine.execCfgStage q s
  | .cfgCheck q => Sys2Proof.Machine.execCfgCheck q s
  | .sessionCommit q => Sys2Proof.Machine.execSessionCommit q s
  | .passwdSet q => Sys2Proof.Machine.execPasswdSet q s
  | .changelogRead q => Sys2Proof.Machine.execChangelogRead q s
  | .changelogHead q => Sys2Proof.Machine.execChangelogHead q s
  | .imgWrite q => Sys2Proof.Machine.execImgWrite q s
  | .imgCheck q => Sys2Proof.Machine.execImgCheck q s
  | .progQualify q => Sys2Proof.Machine.execProgQualify q s
  | .progStatus q => Sys2Proof.Machine.execProgStatus q s
  | .progHandover q => Sys2Proof.Machine.execProgHandover q s
  | .progAbort q => Sys2Proof.Machine.execProgAbort q s
  | .progLoad q => Sys2Proof.Machine.execProgLoad q s
  | .streamOpen q => Sys2Proof.Machine.execStreamOpen q s
  | .streamClose q => Sys2Proof.Machine.execStreamClose q s
  | .streamInfo q => Sys2Proof.Machine.execStreamInfo q s
  | .diagSummary q => Sys2Proof.Machine.execDiagSummary q s
  | .bistResults q => Sys2Proof.Machine.execBistResults q s
  | .hold q => Sys2Proof.Machine.execHold q s
  | .holdAck q => Sys2Proof.Machine.execHoldAck q s
  | .quietEnter q => Sys2Proof.Machine.execQuietEnter q s
  | .quietExit q => Sys2Proof.Machine.execQuietExit q s
  | .groupAck q => Sys2Proof.Machine.execGroupAck q s
  | .restart q => Sys2Proof.Machine.execRestart q s
  | .loupeOpen q => Sys2Proof.Machine.execLoupeOpen q s
  | .loupeRead q faults => Sys2Proof.Machine.execLoupeRead q faults s
  | .loupeClose q => Sys2Proof.Machine.execLoupeClose q s
  | .logStatus q => Sys2Proof.Machine.execLogStatus q s
  | .logClear q => Sys2Proof.Machine.execLogClear q s
  | .supFwWrite q => Sys2Proof.Machine.execSupFwWrite q s
  | .supFwCheck q => Sys2Proof.Machine.execSupFwCheck q s
  | .supFwSwitch q => Sys2Proof.Machine.execSupFwSwitch q s
  | .ucodeWrite q => Sys2Proof.Machine.execUcodeWrite q s
  | .ucodeRoll q => Sys2Proof.Machine.execUcodeRoll q s
  | .keeperFwWrite q => Sys2Proof.Machine.execKeeperFwWrite q s
  | .keeperFwSwitch q => Sys2Proof.Machine.execKeeperFwSwitch q s
  | .laneStatus q => Sys2Proof.Machine.execLaneStatus q s
  | .prismEnter q => Sys2Proof.Machine.execPrismEnter q s
  | .prismExit q => Sys2Proof.Machine.execPrismExit q s
  | .llReseed q => Sys2Proof.Machine.execLlReseed q s
  | .laneRotate q => Sys2Proof.Machine.execLaneRotate q s
  | .ringDiscover q => Sys2Proof.Machine.execRingDiscover q s
  | .nodeList q => Sys2Proof.Machine.execNodeList q s
  | .adopt q => Sys2Proof.Machine.execAdopt q s
  | .nfwStore q => Sys2Proof.Machine.execNfwStore q s
  | .nfwSend q => Sys2Proof.Machine.execNfwSend q s
  | .fwActivate q => Sys2Proof.Machine.execFwActivate q s
  | .nfwStatus q => Sys2Proof.Machine.execNfwStatus q s
  | .calRead q => Sys2Proof.Machine.execCalRead q s
  | .calStage q => Sys2Proof.Machine.execCalStage q s
  | .paramRead q => Sys2Proof.Machine.execParamRead q s
  | .paramStage q => Sys2Proof.Machine.execParamStage q s
  | .mmRealign q => Sys2Proof.Machine.execMmRealign q s
  | .regRead q => Sys2Proof.Machine.execRegRead q s
  | .regWrite q => Sys2Proof.Machine.execRegWrite q s
  | .timeGet q => Sys2Proof.Machine.execTimeGet q s
  | .utcSet q => Sys2Proof.Machine.execUtcSet q s
  | .tmrSetup q => Sys2Proof.Machine.execTmrSetup q s
  | .xlStatus q => Sys2Proof.Machine.execXlStatus q s
  | .xlStop q => Sys2Proof.Machine.execXlStop q s
  | .xlStopRelease q => Sys2Proof.Machine.execXlStopRelease q s
  | .pairAdopt q x => Sys2Proof.Machine.execPairAdopt q x s
  | .fuseRead q => Sys2Proof.Machine.execFuseRead q s
  | .fuseProg q env => Sys2Proof.Machine.execFuseProg q env s
  | .fuseLock q env => Sys2Proof.Machine.execFuseLock q env s
  | .lcAdvance q env => Sys2Proof.Machine.execLcAdvance q env s
  | .kpStatus f => Sys2Proof.Machine.execKpStatus f s
  | .kpBaud f => Sys2Proof.Machine.execKpBaud f s
  | .kpJournalInfo f => Sys2Proof.Machine.execKpJournalInfo f s
  | .kpJournalRead f => Sys2Proof.Machine.execKpJournalRead f s
  | .kpHold f => Sys2Proof.Machine.execKpHold f s
  | .kpHoldAck f => Sys2Proof.Machine.execKpHoldAck f s
  | .kpShutdown f => Sys2Proof.Machine.execKpShutdown f s
  | .kpReset f => Sys2Proof.Machine.execKpReset f s
  | .kpSupRestart f => Sys2Proof.Machine.execKpSupRestart f s
  | .kpPresenceClose f => Sys2Proof.Machine.execKpPresenceClose f s
  | .kpRecoverWrite f nvOk => Sys2Proof.Machine.execKpRecoverWrite f nvOk s
  | .kpRecoverDigest f => Sys2Proof.Machine.execKpRecoverDigest f s
  | .kpRecoverBoot f => Sys2Proof.Machine.execKpRecoverBoot f s
  | .sidebandFrameDiscard => Sys2Proof.Machine.execSidebandFrameDiscard s
  | .sidebandByteTimeout => Sys2Proof.Machine.execSidebandByteTimeout s
  | .sidebandRepeatRequest tag cmd crc => Sys2Proof.Machine.execSidebandRepeatRequest tag cmd crc s
  | .baudRevert => Sys2Proof.Machine.execBaudRevert s
  | .registerWrite a be v => Sys2Proof.Machine.execRegisterWrite a be v s
  | .ringEnable r => Sys2Proof.Machine.execRingEnable r s
  | .ringDisable r => Sys2Proof.Machine.execRingDisable r s
  | .doorbell r v => Sys2Proof.Machine.execDoorbell r v s
  | .hrst => Sys2Proof.Machine.execHrst s
  | .commit => Sys2Proof.Machine.execCommit s
  | .hpWdogWrite v => Sys2Proof.Machine.execHpWdogWrite v s
  | .sconsWrite j v => Sys2Proof.Machine.execSconsWrite j v s
  | .arm n => Sys2Proof.Machine.execArm n s
  | .disarm n => Sys2Proof.Machine.execDisarm n s
  | .cntClr n => Sys2Proof.Machine.execCntClr n s
  | .intNow n => Sys2Proof.Machine.execIntNow n s
  | .cmpLoWrite n v => Sys2Proof.Machine.execCmpLoWrite n v s
  | .intPreLoWrite n v => Sys2Proof.Machine.execIntPreLoWrite n v s
  | .cntLoRead n => Sys2Proof.Machine.execCntLoRead n s
  | .capLoRead n onEdge => Sys2Proof.Machine.execCapLoRead n onEdge s
  | .tbaseLoRead => Sys2Proof.Machine.execTbaseLoRead s
  | .cycNumLoRead => Sys2Proof.Machine.execCycNumLoRead s
  | .intActLoRead n => Sys2Proof.Machine.execIntActLoRead n s
  | .laneMisRead => Sys2Proof.Machine.execLaneMisRead s
  | .memLastRead => Sys2Proof.Machine.execMemLastRead s
  | .xlOfsLoRead => Sys2Proof.Machine.execXlOfsLoRead s
  | .commandEntryFetch r entry ibuf inErr dmaErr => Sys2Proof.Machine.execCommandEntryFetch r entry ibuf inErr dmaErr s
  | .completionPost err => Sys2Proof.Machine.execCompletionPost err s
  | .eventPosting => Sys2Proof.Machine.execEventPosting s
  | .interruptCoalesceTimeout r => Sys2Proof.Machine.execInterruptCoalesceTimeout r s
  | .hostWdogExpire => Sys2Proof.Machine.execHostWdogExpire s
  | .hostPortReset perst => Sys2Proof.Machine.execHostPortReset perst s
  | .d3hotEnter => Sys2Proof.Machine.execD3hotEnter s
  | .busMasterDisable => Sys2Proof.Machine.execBusMasterDisable s
  | .dmaError t => Sys2Proof.Machine.execDmaError t s
  | .pushRecordComplete j => Sys2Proof.Machine.execPushRecordComplete j s
  | .pullRecordRead j ws => Sys2Proof.Machine.execPullRecordRead j ws s
  | .supervisorStop k => Sys2Proof.Machine.execSupervisorStop k s
  | .supervisorServing => Sys2Proof.Machine.execSupervisorServing s
  | .supSwitchTimeout => Sys2Proof.Machine.execSupSwitchTimeout s
  | .keeperSwitchTimeout => Sys2Proof.Machine.execKeeperSwitchTimeout s
  | .laneWake missed => Sys2Proof.Machine.execLaneWake missed s
  | .freeze d stop => Sys2Proof.Machine.execFreeze d stop s
  | .laneMismatch j m => Sys2Proof.Machine.execLaneMismatch j m s
  | .checkerError k bit => Sys2Proof.Machine.execCheckerError k bit s
  | .runComplete j found => Sys2Proof.Machine.execRunComplete j found s
  | .commitPoint late msg => Sys2Proof.Machine.execCommitPoint late msg s
  | .guardTimeout => Sys2Proof.Machine.execGuardTimeout s
  | .p3End finds => Sys2Proof.Machine.execP3End finds s
  | .quietWake pllTk => Sys2Proof.Machine.execQuietWake pllTk s
  | .tclkRestart wait => Sys2Proof.Machine.execTclkRestart wait s
  | .laneRotationDue => Sys2Proof.Machine.execLaneRotationDue s
  | .laneBistDone k pass step => Sys2Proof.Machine.execLaneBistDone k pass step s
  | .observerTimeout => Sys2Proof.Machine.execObserverTimeout s
  | .mmSample faults => Sys2Proof.Machine.execMmSample faults s
  | .mmRotationDue => Sys2Proof.Machine.execMmRotationDue s
  | .mmUnitBistDone u pass => Sys2Proof.Machine.execMmUnitBistDone u pass s
  | .ciEdge k level tick fine => Sys2Proof.Machine.execCiEdge k level tick fine s
  | .ciQualityReturn k => Sys2Proof.Machine.execCiQualityReturn k s
  | .filterAccept n samples => Sys2Proof.Machine.execFilterAccept n samples s
  | .testPulseStart k => Sys2Proof.Machine.execTestPulseStart k s
  | .testPulseWindowEnd k low obs foreign => Sys2Proof.Machine.execTestPulseWindowEnd k low obs foreign s
  | .inputCalCheck c => Sys2Proof.Machine.execInputCalCheck c s
  | .vfBandChange g band vf => Sys2Proof.Machine.execVfBandChange g band vf s
  | .outputTestWindow e => Sys2Proof.Machine.execOutputTestWindow e s
  | .readbackFault n coil => Sys2Proof.Machine.execReadbackFault n coil s
  | .shortIdentify k low => Sys2Proof.Machine.execShortIdentify k low s
  | .outputOverload n => Sys2Proof.Machine.execOutputOverload n s
  | .toOverloadRetry k still => Sys2Proof.Machine.execToOverloadRetry k still s
  | .openLoad n ua => Sys2Proof.Machine.execOpenLoad n ua s
  | .groupOvercurrent g => Sys2Proof.Machine.execGroupOvercurrent g s
  | .ecoPhaseEnd b => Sys2Proof.Machine.execEcoPhaseEnd b s
  | .masterDriveLoss g => Sys2Proof.Machine.execMasterDriveLoss g s
  | .sclkFault => Sys2Proof.Machine.execSclkFault s
  | .ringPeriodStart k => Sys2Proof.Machine.execRingPeriodStart k s
  | .connectionExpire g => Sys2Proof.Machine.execConnectionExpire g s
  | .inputContainerReceive p fr => Sys2Proof.Machine.execInputContainerReceive p fr s
  | .ringFrameDrop p fcs => Sys2Proof.Machine.execRingFrameDrop p fcs s
  | .pdelayReqReceive p turn => Sys2Proof.Machine.execPdelayReqReceive p turn s
  | .mgmtRespReceive p fr => Sys2Proof.Machine.execMgmtRespReceive p fr s
  | .mgmtTimeout k => Sys2Proof.Machine.execMgmtTimeout k s
  | .ringBringup k => Sys2Proof.Machine.execRingBringup k s
  | .portLinkChange p speed eee => Sys2Proof.Machine.execPortLinkChange p speed eee s
  | .discoveryPeriodic k => Sys2Proof.Machine.execDiscoveryPeriodic k s
  | .scheduleFrameReceive p fr => Sys2Proof.Machine.execScheduleFrameReceive p fr s
  | .ringMasterTakeover k => Sys2Proof.Machine.execRingMasterTakeover k s
  | .xlSlot svc => Sys2Proof.Machine.execXlSlot svc s
  | .xlContainerReceive slot clb ws => Sys2Proof.Machine.execXlContainerReceive slot clb ws s
  | .clsyncEdge m at_ => Sys2Proof.Machine.execClsyncEdge m at_ s
  | .clsyncTimeout => Sys2Proof.Machine.execClsyncTimeout s
  | .xlJoin => Sys2Proof.Machine.execXlJoin s
  | .joinTimeout => Sys2Proof.Machine.execJoinTimeout s
  | .clstopDetect => Sys2Proof.Machine.execClstopDetect s
  | .killReceive => Sys2Proof.Machine.execKillReceive s
  | .killRelease incoming => Sys2Proof.Machine.execKillRelease incoming s
  | .toTakeover k => Sys2Proof.Machine.execToTakeover k s
  | .tmrMatch n => Sys2Proof.Machine.execTmrMatch n s
  | .tmrCapture n => Sys2Proof.Machine.execTmrCapture n s
  | .tmrWrap n => Sys2Proof.Machine.execTmrWrap n s
  | .eventPost code inst data => Sys2Proof.Machine.execEventPost code inst data s
  | .recordWrite w => Sys2Proof.Machine.execRecordWrite w s
  | .recordRewrite w => Sys2Proof.Machine.execRecordRewrite w s
  | .coalesceExpire => Sys2Proof.Machine.execCoalesceExpire s
  | .scrubPeriodEnd bank => Sys2Proof.Machine.execScrubPeriodEnd bank s
  | .mramScrub raw syn => Sys2Proof.Machine.execMramScrub raw syn s
  | .presenceWindowOpen p released => Sys2Proof.Machine.execPresenceWindowOpen p released s
  | .presenceWindowClose p => Sys2Proof.Machine.execPresenceWindowClose p s
  | .keeperSelfCheck ok => Sys2Proof.Machine.execKeeperSelfCheck ok s
  | .tbaseMark => Sys2Proof.Machine.execTbaseMark s
  | .holdupTest cap r => Sys2Proof.Machine.execHoldupTest cap r s
  | .powerOn unpowered r => Sys2Proof.Machine.execPowerOn unpowered r s
  | .startupStep e => Sys2Proof.Machine.execStartupStep e s
  | .startupComplete => Sys2Proof.Machine.execStartupComplete s
  | .vlogLow r => Sys2Proof.Machine.execVlogLow r s
  | .vlogDip r => Sys2Proof.Machine.execVlogDip r s
  | .vlogRecover r => Sys2Proof.Machine.execVlogRecover r s
  | .shutdownTrigger r => Sys2Proof.Machine.execShutdownTrigger r s
  | .huLow r => Sys2Proof.Machine.execHuLow r s
  | .nvInhibit r => Sys2Proof.Machine.execNvInhibit r s
  | .keeperReset r => Sys2Proof.Machine.execKeeperReset r s
  | .vcoreFault r => Sys2Proof.Machine.execVcoreFault r s
  | .xoFail => Sys2Proof.Machine.execXoFail s
  | .xoRestart ok => Sys2Proof.Machine.execXoRestart ok s
  | .lclkUnlock locked => Sys2Proof.Machine.execLclkUnlock locked s
  | .supUnlock locked => Sys2Proof.Machine.execSupUnlock locked s
  | .fllUnlock d => Sys2Proof.Machine.execFllUnlock d s
  | .supPllWake => Sys2Proof.Machine.execSupPllWake s
  | .shutdownEnter => Sys2Proof.Machine.execShutdownEnter s
  | .shutdownBistEnd bad => Sys2Proof.Machine.execShutdownBistEnd bad s
  | .shutdownComplete r => Sys2Proof.Machine.execShutdownComplete r s
  | .ciIndeterminateLevel k => Sys2Proof.Machine.execCiIndeterminateLevel k s
  | .ecoOffPhaseCheck b low vf => Sys2Proof.Machine.execEcoOffPhaseCheck b low vf s
  | .ringFrameForward p fr => Sys2Proof.Machine.execRingFrameForward p fr s
  | .earlierWake => Sys2Proof.Machine.execEarlierWake s
  | .perstRelease => Sys2Proof.Machine.execPerstRelease s
  | .busMasterEnable => Sys2Proof.Machine.execBusMasterEnable s
  | .nvInhibitClear r => Sys2Proof.Machine.execNvInhibitClear r s
  | .vfOvervoltage g vf => Sys2Proof.Machine.execVfOvervoltage g vf s
  | .supPllIdleStop => Sys2Proof.Machine.execSupPllIdleStop s
  | .keeperFwReady => Sys2Proof.Machine.execKeeperFwReady s

end Sys2Proof.Machine
end

