-- ==== Sys2Proof/Safety.lean ====
section
/-! DEFINITION. What counts as safe, and the terms in which the statements speak of frames and of supervisor commands. -/

namespace Sys2Proof.Machine

/-! ### Safe states -/

/-- No group master is closed, so no output of the module can be energised (R195, R197). -/
def mastersOpen (s : State) : Bool := vall s.out.grps fun x => !x.master

/-- Every owned output cell is committed 0 (R19, R484). -/
def ownedZero (s : State) : Bool := (allOwned s).all fun c => Mem.read 0 s.cyc.committed c == 0

/-- Every bit that one cell array reads as 1 under a reference, another reads as 1 under it too (R397). -/
def FuseCells.within (x y : FuseCells) : Prop := x.mh &&& y.mh = x.mh ∧ x.n &&& y.n = x.n ∧ x.ml &&& y.ml = x.ml

/-- No cell of either array has lost a bit (R397). -/
def FuseBlk.keeps (f g : FuseBlk) : Prop := f.a.within g.a ∧ f.b.within g.b

/-- The byte memories of the block: host memory, the regions of the MRAM that hold files, what the session has staged, what the transfer
channel has received. -/
def State.files (s : State) : List (Mem 8) :=
  [s.hp.mem, s.nv.ucode, s.nv.kfw, s.nv.nodeFw, s.xl.rxBytes] ++ s.nv.img.toList ++ s.nv.sup.toList ++ (s.nv.cfg.toList ++ s.nv.cal.toList).map (·.file) ++
  s.sess.cfg.toList ++ s.sess.cal.toList

/-- The addressed memories of the block are in canonical form: the byte memories and the committed output cells. -/
def State.canon (s : State) : Prop := (∀ m ∈ s.files, Mem.wf 0 m = true) ∧ Mem.wf 0 s.cyc.committed = true

/-! ### Frames -/

/-- The blocks of the state. -/
inductive Blk where
  | pending | free | rdata | md | time | cyc | lane | sup | sess | log | hp | keep | evr | nv | inp | mm | out | pwr | xl | ring | tmr | mem | fuse | image
deriving DecidableEq, Repr

/-- Is a block the same in two states? -/
def Blk.same (s t : State) : Blk → Prop
  | .pending => t.pending = s.pending | .free => t.free = s.free | .rdata => t.rdata = s.rdata | .md => t.md = s.md | .time => t.time = s.time
  | .cyc => t.cyc = s.cyc | .lane => t.lane = s.lane | .sup => t.sup = s.sup | .sess => t.sess = s.sess | .log => t.log = s.log | .hp => t.hp = s.hp
  | .keep => t.keep = s.keep | .evr => t.evr = s.evr | .nv => t.nv = s.nv | .inp => t.inp = s.inp | .mm => t.mm = s.mm | .out => t.out = s.out
  | .pwr => t.pwr = s.pwr | .xl => t.xl = s.xl | .ring => t.ring = s.ring | .tmr => t.tmr = s.tmr | .mem => t.mem = s.mem | .fuse => t.fuse = s.fuse
  | .image => t.image = s.image

/-- Every block outside a list is the same in two states. -/
def onlyChanges (l : List Blk) (s t : State) : Prop := ∀ b, b ∉ l → b.same s t

/-! ### Keeper commands -/

/-- The keeper hears a request to this module, answers no other, has not accepted it before, and none of its conditions fails (R364 to R369,
R371, R375). -/
def KpReady (cmd : Nat) (f : Frame) (n : KpNeeds) (s : State) : Prop :=
  keeperHears s = true ∧ f.mine cmd s = true ∧ s.keep.waiting = none ∧ f.payload.length ≤ 1024 ∧ s.keep.lastReq ≠ some (f.tag, cmd, f.crc cmd) ∧
  n.refuse (kpHeard cmd f s) = none

/-- The state in which a keeper command of class P1 acts: accepted, its change-log entry written (R332, R423, R426). -/
def kpEntered (cmd : Nat) (f : Frame) (s : State) : State := kpLog cmd f (kpHeard cmd f s)

/-- The state with the response of a keeper command sent and stored: command, tag, status, results (R365, R369, R371); none to a broadcast
(R368). -/
def kpSent (cmd : Nat) (f : Frame) (st : Status) (res : List Byte) (s : State) : State :=
  if f.addr = 8#8 then s
  else { s with keep := { s.keep with resp := some { addr := BitVec.ofNat 8 (0x80 + s.xl.mid), tag := f.tag, cmd := cmd, payload := leBytes 2 st.code ++ res }
                                      sent := s.keep.sent + 1, waiting := none } }

/-! ### Changes of state -/

/-- What entry to `SHUTTING_DOWN` leaves (R19, R197, R330, R418, R484): state and kind, masters open, outputs 0, no session and no window, no
cycle running, nothing scheduled; the fuses, the image in force, the change log, the inputs and the rings stay. -/
def ShutBegun (k : ShutKind) (s t : State) : Prop :=
  t.md.mstate = .shuttingDown ∧ t.md.cause = 0 ∧ t.md.shut = some k ∧ t.md.shutReq = none ∧ t.md.shutAt = now s ∧ mastersOpen t = true ∧
  (s.canon → ownedZero t = true) ∧ t.sess.owner = none ∧ t.sess.winOpen = false ∧ t.cyc.running = false ∧ t.sup.acts = [] ∧ t.md.holdPend = [] ∧
  onlyChanges [.cyc, .evr, .hp, .keep, .lane, .md, .mem, .mm, .nv, .out, .pwr, .sess, .sup, .time, .xl] s t

/-- What entry to `FAULT` leaves (R19, R39, R197): state and cause, masters open, outputs 0, no cycle running. -/
def FaultEntered (c : Byte) (s t : State) : Prop :=
  t.md.mstate = .fault ∧ t.md.cause = c ∧ mastersOpen t = true ∧ (s.canon → ownedZero t = true) ∧ t.cyc.running = false ∧
  onlyChanges [.cyc, .evr, .hp, .keep, .lane, .md, .mem, .out, .pwr, .sup, .time, .xl] s t

/-! ### The host port -/

/-- What a host-port reset leaves (R316): every ring stopped with its pointers 0, every stream closed, the commit buffer and the watchdog 0, the
interrupt registers and the MSI-X table as at reset, no completion and no output buffer waiting; the command records of its rings stay without a place to complete to.
Host memory, the event flags and the staging window stay. -/
def PortReset (s t : State) : Prop :=
  (∀ r < 128, vget t.hp.rings r = { vget s.hp.rings r with en := false, head := 0, tail := 0, err := 0 }) ∧
  (∀ i < 32, (vget t.hp.streams i).open_ = false ∧ (vget t.hp.streams i).inFlight = none ∧ (vget t.hp.streams i).reading = false) ∧
  t.hp.commit = Vector.replicate 256 0 ∧ t.hp.wdog = 0 ∧ t.hp.wdogExpired = false ∧ t.hp.msix = Vector.replicate 64 {} ∧ t.hp.pba = 0 ∧ t.hp.ipend = 0 ∧
  t.hp.imask = 0xFFFFFFFFFFFFFFFF#64 ∧ t.hp.ien = false ∧ t.hp.evtRing = 64 ∧ t.hp.evtLost = 0 ∧ t.hp.cpls = [] ∧ t.hp.outWait = [] ∧ t.hp.mem = s.hp.mem ∧ t.hp.evt = s.hp.evt ∧
  t.hp.stage = s.hp.stage ∧ t.hp.events = s.hp.events ∧ t.sup = { s.sup with taken := t.sup.taken } ∧ onlyChanges [.hp, .sup] s t

/-- Host memory once the output buffers that waited for DMA are written, oldest first (R316). -/
def HpBlk.flushed (h : HpBlk) : Mem 8 := h.outWait.foldl (fun m p => Mem.writeBytes 0 m p.1 p.2) h.mem

/-- What a stop of mailbox ring `r` leaves (R306, R307): it is not enabled, what was on its way to it or came from it is not written, and its
commands complete nowhere. -/
def RingStopped (r : Nat) (s t : State) : Prop :=
  (vget t.hp.rings r).en = false ∧ (∀ k < 128, k ≠ r → vget t.hp.rings k = vget s.hp.rings k) ∧
  t.hp.cpls = s.hp.cpls.filter (fun c => c.ring != r && c.src != r) ∧ (∀ x ∈ t.sup.taken, ∀ k : Fin 64, x.src = .ring k → k.val = r → x.mute = true) ∧
  t.sup = { s.sup with taken := t.sup.taken } ∧ t.hp.mem = s.hp.mem ∧ t.hp.streams = s.hp.streams ∧ t.hp.commit = s.hp.commit ∧ onlyChanges [.hp, .sup] s t

/-! ### Supervisor commands -/

/-- Did the ring of a taken command stop since, so that its completion is not written (R306)? -/
def isMuted (q : Req) (s : State) : Bool := s.sup.taken.any fun t => t.isOf q && t.mute

/-- The completion that a command ring's command posts (R311): none where the ring was stopped (R306) or `QUIET_OK` suppresses `OK` (R309). -/
def postedBy (q : Req) (r : Fin 64) (st : Status) (res : List Byte) (buf : Option (List Byte)) (s : State) : List Cpl :=
  let d := vget s.hp.rings r.val
  if !d.en || isMuted q s || (q.flag 3 && st == .ok) then []
  else [{ ring := d.cpl.toNat, src := r.val, tag := q.tag, status := st, rlen := match buf with | some b => b.length | none => min res.length 51
          chead := d.head.toNat, result := res.take 51, inbuf := buf.isSome, restart := false }]

/-- `t` is `s` with the command completed and nothing else changed: over a ring, its completion posted, its bytes in the output buffer and no
other byte of host memory changed, or waiting for DMA to run (R316), one command less in flight (R308, R311); over the sideband, its response sent
(R370). -/
def Done (q : Req) (op : Nat) (st : Status) (res : List Byte) (buf : Option (List Byte)) (s t : State) : Prop :=
  match q.src with
  | .ring r =>
    let a := leAt q.param 0x10 8
    let left := if s.sup.taken.any (fun t => t.isOf q && !t.mute) then vmod s.hp.rings r.val fun d => { d with inflight := d.inflight - 1 } else s.hp.rings
    ∃ m w, t = { s with sup := { s.sup with taken := s.sup.taken.filter fun t => !t.isOf q },
                        hp := { s.hp with rings := left, cpls := s.hp.cpls ++ postedBy q r st res buf s, mem := m, outWait := w } } ∧
      (buf = none → m = s.hp.mem ∧ w = s.hp.outWait) ∧
      ∀ b, buf = some b →
        (dmaOn s = false → m = s.hp.mem ∧ w = s.hp.outWait ++ [(a, b)]) ∧
        (dmaOn s = true → w = s.hp.outWait ∧ (Mem.wf 0 s.hp.mem = true →
          Mem.readBytes 0 m a b.length = b ∧ ∀ x, x < a ∨ a + b.length ≤ x → Mem.read 0 m x = Mem.read 0 s.hp.mem x))
  | .sideband =>
    let data := buf.getD res
    t = { s with sup := { s.sup with taken := s.sup.taken.filter fun t => !t.isOf q },
                 keep := { s.keep with resp := some { addr := BitVec.ofNat 8 (0x80 + s.xl.mid), tag := q.tag, cmd := (s.keep.waiting.map (·.2)).getD op,
                                                      payload := leBytes 2 st.code ++ leBytes 2 data.length ++ data }
                                       sent := s.keep.sent + 1, waiting := none } }

/-- The command completes `OK` with its result data: in the output buffer with `OBUF`, else inline. -/
def Answered (q : Req) (op : Nat) (res : List Byte) (s t : State) : Prop :=
  if q.flag 1 then Done q op .ok [] (some res) s t else Done q op .ok res none s t

/-- The command stands taken with its authority judged as sufficient, the supervisor serves, it is its turn (R310), its input buffer could be
read (R337), and none of its conditions fails (R333). `q` is the entry that was taken. -/
def Ready (cls : Cls) (op : Nat) (q : Req) (n : Needs) (s : State) : Prop :=
  s.sup.sup = .serving ∧ entryOf op q s = q ∧ (∃ t, takenOf s op q = some t ∧ t.refusal = none) ∧ mayStart op q s = true ∧
  (q.flag 0 && q.inErr) = false ∧ n.refuse op q (n.logs && cls.sup (raiseOf s (op / 256)) != .p0) s = none

/-- The state after the change-log entry that a command above P0 writes before it acts (R332). -/
def entered (cls : Cls) (op : Nat) (q : Req) (s : State) : State :=
  if cls.sup (raiseOf s (op / 256)) = .p0 then s
  else logCmd op q .ok ((takenOf s op q).elim (now s) (·.at_)) s

/-- The command answers with these results, and leaves beside its completion the state `b`. -/
def Answers (i : Instr) (op : Nat) (q : Req) (res : List Byte) (b s : State) : Prop := ∃ t, exec i s = .next t ∧ Answered q op res b t

/-- The command leaves a change for the next cycle boundary (R335), and nothing else but `b`. -/
def Schedules (i : Instr) (q : Req) (k : BKind) (b s : State) : Prop :=
  exec i s = .next { b with sup := { b.sup with acts := b.sup.acts ++ [{ kind := k, q := some q, since := s.cyc.num }] } }

/-- Opcode and entry of the rows that are supervisor commands (R338 to R362). -/
def supOf : Instr → Option (Nat × Req)
  | .nop q => some (0x0000, q)
  | .identGet q => some (0x0001, q)
  | .stateGet q => some (0x0002, q)
  | .sessionOpen q => some (0x0100, q)
  | .sessionClose q => some (0x0101, q)
  | .cfgStage q => some (0x0102, q)
  | .cfgCheck q => some (0x0103, q)
  | .sessionCommit q => some (0x0104, q)
  | .passwdSet q => some (0x0105, q)
  | .changelogRead q => some (0x0106, q)
  | .changelogHead q => some (0x0107, q)
  | .imgWrite q => some (0x0200, q)
  | .imgCheck q => some (0x0201, q)
  | .progQualify q => some (0x0202, q)
  | .progStatus q => some (0x0203, q)
  | .progHandover q => some (0x0204, q)
  | .progAbort q => some (0x0205, q)
  | .progLoad q => some (0x0206, q)
  | .streamOpen q => some (0x0300, q)
  | .streamClose q => some (0x0301, q)
  | .streamInfo q => some (0x0302, q)
  | .diagSummary q => some (0x0400, q)
  | .bistResults q => some (0x0401, q)
  | .hold q => some (0x0402, q)
  | .holdAck q => some (0x0403, q)
  | .quietEnter q => some (0x0404, q)
  | .quietExit q => some (0x0405, q)
  | .groupAck q => some (0x0406, q)
  | .restart q => some (0x0407, q)
  | .loupeOpen q => some (0x0500, q)
  | .loupeRead q _ => some (0x0501, q)
  | .loupeClose q => some (0x0502, q)
  | .logStatus q => some (0x0503, q)
  | .logClear q => some (0x0504, q)
  | .supFwWrite q => some (0x0600, q)
  | .supFwCheck q => some (0x0601, q)
  | .supFwSwitch q => some (0x0602, q)
  | .ucodeWrite q => some (0x0603, q)
  | .ucodeRoll q => some (0x0604, q)
  | .keeperFwWrite q => some (0x0605, q)
  | .keeperFwSwitch q => some (0x0606, q)
  | .laneStatus q => some (0x0700, q)
  | .prismEnter q => some (0x0701, q)
  | .prismExit q => some (0x0702, q)
  | .llReseed q => some (0x0703, q)
  | .laneRotate q => some (0x0704, q)
  | .ringDiscover q => some (0x0800, q)
  | .nodeList q => some (0x0801, q)
  | .adopt q => some (0x0802, q)
  | .nfwStore q => some (0x0803, q)
  | .nfwSend q => some (0x0804, q)
  | .fwActivate q => some (0x0805, q)
  | .nfwStatus q => some (0x0806, q)
  | .calRead q => some (0x0900, q)
  | .calStage q => some (0x0901, q)
  | .paramRead q => some (0x0902, q)
  | .paramStage q => some (0x0903, q)
  | .mmRealign q => some (0x0904, q)
  | .regRead q => some (0x0A00, q)
  | .regWrite q => some (0x0A01, q)
  | .timeGet q => some (0x0B00, q)
  | .utcSet q => some (0x0B01, q)
  | .tmrSetup q => some (0x0B02, q)
  | .xlStatus q => some (0x0C00, q)
  | .xlStop q => some (0x0C01, q)
  | .xlStopRelease q => some (0x0C02, q)
  | .pairAdopt q _ => some (0x0C03, q)
  | .fuseRead q => some (0x0D00, q)
  | .fuseProg q _ => some (0x0D01, q)
  | .fuseLock q _ => some (0x0D02, q)
  | .lcAdvance q _ => some (0x0D03, q)
  | _ => none

end Sys2Proof.Machine
end

