-- ==== Sys2Proof/Certificates/Slice0/Obligations.lean ====
section
/-! DEFINITION. The statements for the provers, by the files of the spec they come from. -/

open Sys2Proof Sys2Proof.Machine

/-! ## The queue -/

/-- A step takes the command at the front of the queue and runs it with the queue's rest. -/
def Obligations.StepRunsFront : Prop :=
  ∀ (c : Instr) (r : List Instr) (s : State), s.pending = c :: r → step s = exec c { s with pending := r }

/-- Every command of the table has a next state, and a step takes nothing but the front command from the queue. On an empty queue one clock edge passes (the model's choice, notes/assumptions/1.md): TBASE counts one, 32 ticks to an SCLK edge (R282, R284);
while TCLK is stopped SCLK alone counts on (R297), and no timer channel moves. Nothing else changes. TBASE passes on to an instant ahead (R282), whatever the channels do on the way; one that lies in the past changes nothing. -/
def Obligations.EveryCommandCompletesAndTimePasses : Prop :=
  (∀ (c : Instr) (s : State), ∃ t, exec c s = .next t ∧ t.pending = s.pending) ∧
  (∀ s : State, s.pending = [] → ∃ t, step s = .next t ∧ t = { s with time := t.time, tmr := t.tmr } ∧
    (s.time.tclkRun = true → s.time.phase < 32 → t.time = { s.time with tbase := (s.time.tbase + 1) % 2 ^ 64, sclk := s.time.sclk + (s.time.phase + 1) / 32
                                                                        phase := (s.time.phase + 1) % 32 }) ∧
    (s.time.tclkRun = false → s.time.phase < 32 → t.tmr = s.tmr ∧ t.time = { s.time with sclk := s.time.sclk + 1, phase := 0 })) ∧
  (∀ (t : Nat) (s : State), s.time.tclkRun = true →
    (t ≤ s.time.tbase → advanceTo t s = s) ∧
    (s.time.tbase ≤ t → t < 2 ^ 64 → now (advanceTo t s) = t ∧ (advanceTo t s).time.tclkRun = true ∧ onlyChanges [.tmr, .time] s (advanceTo t s)))

/-! ## Supervisor commands: taking, turn, refusal (12 R308 to R311, 13 R327 to R337) -/

/-- A command that waits on a command ring and can be taken is taken, with its authority judged then, and served as one that stands taken
(R308, R329); one that cannot be taken waits with nothing changed. A taken command waits while an earlier one of its ring has not started, or has yet to complete and is of its group or comes before a
`FENCE` (R310), and while the supervisor does not serve (R315): nothing changes. A command whose authority did not suffice when it was taken completes with the status judged then and no side effect (R327 to R329, R336).
Where the spec leaves a point open the model's choices hold (notes/assumptions: 12, 14, 109). -/
def Obligations.CommandsAreTakenJudgedAndServed : Prop :=
  (∀ (i : Instr) (op : Nat) (q : Req) (r : Fin 64) (s : State), supOf i = some (op, q) → q.src = .ring r → takenOf s op q = none →
    (canTake q s = false → exec i s = .next s) ∧
    (canTake q s = true → ∃ c, baseCls op q s = some c ∧
      exec i s = exec i { s with
        sup := { s.sup with taken := s.sup.taken ++ [{ src := q.src, tag := q.tag, opcode := op, fence := q.flag 2, at_ := now s, refusal := judge (c.sup (raiseOf s (op / 256))) op q.src s }] }
        pwr := { s.pwr with supPllOff := false, supLock := s.pwr.supLock || s.pwr.supPllOff }
        hp := { s.hp with rings := vmod s.hp.rings r.val fun d => { d with inflight := d.inflight + 1 } } })) ∧
  (∀ (i : Instr) (op : Nat) (q : Req) (s : State) (t : Taken), supOf i = some (op, q) → entryOf op q s = q → takenOf s op q = some t →
    (s.sup.sup ≠ .serving ∨ mayStart op q s = false) → exec i s = .next s) ∧
  (∀ (i : Instr) (op : Nat) (q : Req) (s : State) (t : Taken) (st : Status), supOf i = some (op, q) → entryOf op q s = q → takenOf s op q = some t →
    t.refusal = some st → st ≠ .authFailed → s.sup.sup = .serving → mayStart op q s = true → (q.flag 0 && q.inErr) = false →
    ∃ u, exec i s = .next u ∧ Done q op st (judgeData st s) none s u)

/-- Authority as it is judged (R327, R330, R331): every class above P0 needs an open presence window, P1S a session of this requester, P2 one
opened with the password. Without a password record a P2 command fails its authority. -/
def Obligations.AuthorityByClass : Prop :=
  ∀ (op : Nat) (r : Requester) (s : State), op ≠ 0x0100 →
    judge .p0 op r s = none ∧
    (windowOpen s = false → judge .p1 op r s = some .noPresence ∧ judge .p1s op r s = some .noPresence ∧ judge .p2 op r s = some .noPresence) ∧
    (windowOpen s = true →
      judge .p1 op r s = none ∧
      (s.sess.owner = none → judge .p1s op r s = some .noSession ∧ judge .p2 op r s = some .noSession) ∧
      (∀ o, s.sess.owner = some o → o ≠ r → judge .p1s op r s = some .sessionHeld ∧ judge .p2 op r s = some .sessionHeld) ∧
      (s.sess.owner = some r → judge .p1s op r s = none ∧
        (pwRecord s ≠ none → (s.sess.level = .p2 → judge .p2 op r s = none) ∧ (s.sess.level ≠ .p2 → judge .p2 op r s = some .noSession)) ∧
        (pwRecord s = none → judge .p2 op r s = some .authFailed)))

/-- The change-log entry that a command above P0 writes before it acts (R332, R423): one entry more, numbered n + 1, stamped with the tick of its
taking, with its opcode, requester, session and link to the head before; nothing else changes. -/
def Obligations.ChangeLogEntryIsChained : Prop :=
  ∀ (op : Nat) (q : Req) (st : Status) (at_ : Nat) (s : State), ∃ e,
    logCmd op q st at_ s = { s with log := { s.log with entries := (logCmd op q st at_ s).log.entries, n := s.log.n + 1, head := sha256 (s.log.head ++ e.bytes),
                                                        anchorHash := (logCmd op q st at_ s).log.anchorHash } } ∧
    (logCmd op q st at_ s).log.entries.getLast? = some e ∧
    e.idx = s.log.n + 1 ∧ e.tbase = at_ ∧ e.opcode = op ∧ e.status = st.code ∧ e.req = q.src.code ∧ e.link = s.log.head.take 8 ∧
    (s.sess.owner = some q.src → e.level = s.sess.level.code ∧ e.session = s.sess.id) ∧ (s.sess.owner ≠ some q.src → e.level = 0 ∧ e.session = 0)

/-! ## Supervisor commands: queries -/

/-- The queries without parameters answer what the state says and change nothing but their completion (R338, R340, R341, R344 to R346, R349, R351,
R359, R360). -/
def Obligations.PlainQueriesAnswer : Prop :=
  ∀ (q : Req) (s : State),
    (Ready .p0 0x0000 q {} s → Answers (.nop q) 0x0000 q [] s s) ∧
    (Ready .p0 0x0001 q { out := 44 } s → Answers (.identGet q) 0x0001 q (identData s) s s) ∧
    (Ready .p0 0x0002 q { out := 24 } s → Answers (.stateGet q) 0x0002 q (stateData s) s s) ∧
    (Ready .p0 0x0107 q { out := 36, logs := false } s → Answers (.changelogHead q) 0x0107 q (leBytes 4 s.log.n ++ padTo 32 s.log.head) s s) ∧
    (Ready .p0 0x0203 q { out := 15, logs := false } s → Answers (.progStatus q) 0x0203 q (progData s) s s) ∧
    (Ready .p0 0x0400 q { out := 44, logs := false } s → Answers (.diagSummary q) 0x0400 q (diagData s) s s) ∧
    (Ready .p0 0x0401 q { out := 29, logs := false } s → Answers (.bistResults q) 0x0401 q (bistData s) s s) ∧
    (Ready .p0 0x0503 q { out := 22, logs := false } s → Answers (.logStatus q) 0x0503 q (logStatusData s) s s) ∧
    (Ready .p0 0x0700 q { out := 32, logs := false } s →
      Answers (.laneStatus q) 0x0700 q (words ([laneMap s, laneRegion s] ++ (List.range 5).map (lanePl s) ++ [laneRot s])) s s) ∧
    (Ready .p0 0x0806 q { out := 12, logs := false } s → Answers (.nfwStatus q) 0x0806 q (nfwData s) s s) ∧
    (Ready .p0 0x0B00 q { out := 17, logs := false } s →
      Answers (.timeGet q) 0x0B00 q (leBytes 8 (now s) ++ leBytes 8 (ofSigned 64 s.keep.utc) ++ leBytes 1 (b2n s.keep.utcSet)) s s) ∧
    (Ready .p0 0x0C00 q { out := 16, logs := false } s → Answers (.xlStatus q) 0x0C00 q (words [xlWord 0x00 s, xlWord 0x04 s, xlWord 0x0C s, xlWord 0x10 s]) s s)

/-- The queries with parameters answer for what they name, and change nothing but their completion (R343, R350, R352, R353, R361, R425): with
`OBUF`, lists go to the output buffer with their count inline.
Where the spec leaves a point open the model's choices hold (notes/assumptions: 20, 23, 27). -/
def Obligations.SelectingQueriesAnswer : Prop :=
  ∀ (q : Req) (s : State),
    (Ready .p0 0x0106 q { defs := [(8, 4), (0x0C, 2)], bad := [(q.arg 0x0C 2 < 1 || 512 < q.arg 0x0C 2, 0x0C)], obuf := true, out := 64 * q.arg 0x0C 2, logs := false } s →
      ∃ t, exec (.changelogRead q) s = .next t ∧
        Done q 0x0106 .ok (leBytes 2 (logFrom (q.arg 8 4) (q.arg 0x0C 2) s).length) (some (logFrom (q.arg 8 4) (q.arg 0x0C 2) s).flatten) s t) ∧
    (Ready .p0 0x0302 q { defs := [(8, 1)], bad := [(31 < q.arg 8 1, 8)], out := 16, logs := false } s →
      Answers (.streamInfo q) 0x0302 q (streamData (vget s.hp.streams (q.arg 8 1))) s s) ∧
    (Ready .p0 0x0801 q { defs := [(8, 1)], bad := [(1 < q.arg 8 1, 8)], obuf := true, out := 16 * (ringOf s (q.arg 8 1)).found.length, logs := false } s →
      ∃ t, exec (.nodeList q) s = .next t ∧
        Done q 0x0801 .ok (leBytes 2 (ringOf s (q.arg 8 1)).found.length) (some ((ringOf s (q.arg 8 1)).found.flatMap nodeEntry)) s t) ∧
    (Ready .p0 0x0900 q { defs := [(8, 1)], bad := [(1 < q.arg 8 1, 8)], obuf := true, out := (calBytes s (q.arg 8 1)).length, logs := false } s →
      ∃ t, exec (.calRead q) s = .next t ∧ Done q 0x0900 .ok (leBytes 4 (calBytes s (q.arg 8 1)).length) (some (calBytes s (q.arg 8 1))) s t) ∧
    (Ready .p0 0x0902 q { defs := [(8, 1), (0x0A, 2)], bad := [(3 < q.arg 8 1, 8), ((parEntry s (q.arg 8 1) (q.arg 0x0A 2)).isNone, 0x0A)], out := 9, logs := false } s →
      Answers (.paramRead q) 0x0902 q (parData s (q.arg 8 1) (q.arg 0x0A 2)) s s) ∧
    (Ready .p0 0x0D00 q { defs := [(8, 1)], bad := [(7 < q.arg 8 1, 8)], out := if q.flag 1 then grpLen (q.arg 8 1) / 8 else 8, logs := false } s →
      ∃ t, exec (.fuseRead q) s = .next t ∧
        Done q 0x0D00 .ok (fuseData s (q.arg 8 1)) (if q.flag 1 then some (leBytes (grpLen (q.arg 8 1) / 8) (grpOf s.fuse.shadow (q.arg 8 1))) else none) s t)

/-- Where the fields of the fixed results stand (R338, R341, R359): `STATE_GET` delivers the module state at 0, its cause at 1, the session owner at 4,
the cycle number at 8; `IDENT_GET` the UID at 0, the life-cycle state at 21; `PROG_STATUS` the state at 0 and the counts at 4 and 8. Where the fields of `KP_STATUS` stand (R372): state 0, cause 1, supervisor 2, presence 3, window 4, supplies 6 to 13, temperature 14, TBASE 16,
journal number 24. Where the fields of a completion stand (R311): tag 0, status 2, source 4, length 6, head 8, inline results from 12. -/
def Obligations.ResultLayouts : Prop :=
  (∀ s : State,
    (stateData s).length = 24 ∧ leAt (stateData s) 0 1 = s.md.mstate.code ∧ leAt (stateData s) 1 1 = s.md.cause.toNat ∧
    leAt (stateData s) 4 1 = (s.sess.owner.map Requester.code).getD 0xFF ∧ leAt (stateData s) 5 1 = s.sess.level.code ∧
    leAt (stateData s) 8 8 = s.cyc.num % 2 ^ 64 ∧ leAt (stateData s) 16 8 = s.cyc.lastT0 % 2 ^ 64 ∧
    (identData s).length = 44 ∧ leAt (identData s) 0 8 = moduleUid s % 2 ^ 64 ∧ leAt (identData s) 21 1 = s.fuse.lc % 256 ∧
    leAt (identData s) 22 1 = s.xl.mid % 256 ∧ leAt (identData s) 24 2 = s.sup.ver.toNat ∧
    (progData s).length = 15 ∧ leAt (progData s) 0 1 = s.lane.qual.state % 256 ∧ leAt (progData s) 4 4 = s.lane.qual.counted % 2 ^ 32 ∧
    leAt (progData s) 8 4 = s.lane.qual.noAgree % 2 ^ 32 ∧ leAt (progData s) 14 1 = s.lane.qual.endReason % 256) ∧
  (∀ s : State, (kpStatusData s).length = 32 ∧ leAt (kpStatusData s) 0 1 = s.md.mstate.code ∧ leAt (kpStatusData s) 1 1 = s.md.cause.toNat ∧
    leAt (kpStatusData s) 2 1 = s.sup.sup.code ∧ leAt (kpStatusData s) 3 1 = presenceBits s ∧ leAt (kpStatusData s) 4 2 = min 65535 (windowLeft s) ∧
    leAt (kpStatusData s) 6 2 = s.pwr.vlog.toNat ∧ leAt (kpStatusData s) 8 2 = s.pwr.vhu.toNat ∧ leAt (kpStatusData s) 14 1 = s.pwr.tj.toNat ∧
    leAt (kpStatusData s) 16 8 = now s % 2 ^ 64 ∧ leAt (kpStatusData s) 24 4 = s.keep.seq % 2 ^ 32) ∧
  (∀ c : Cpl, c.src < 256 → c.result.length ≤ 51 →
    (padTo 63 c.body).length = 63 ∧ leAt c.body 0 2 = c.tag.toNat ∧ leAt c.body 2 2 = c.status.code % 65536 ∧ leAt c.body 4 1 = c.src ∧ leAt c.body 6 2 = c.rlen % 65536 ∧
    leAt c.body 8 2 = c.chead % 65536 ∧ (c.body.drop 12).take c.result.length = c.result)

/-! ## Supervisor commands: session and stored files -/

/-- `SESSION_OPEN` (R330, R331, R420): without a password a new session opens at P1 with the next identifier; with one that verifies, at P2, and the
count of failures ends; a requester that holds the session keeps it. `SESSION_CLOSE` ends it and discards what it staged (R330).
Where the spec leaves a point open the model's choices hold (notes/assumptions: 17). -/
def Obligations.SessionsOpenAndClose : Prop :=
  ∀ (q : Req) (s : State),
    (Ready .p1 0x0100 q { defs := [(8, 1), (0x0C, 32)], bad := (q.arg 8 1 != 0 && (q.arg 8 1 < 8 || 32 < q.arg 8 1), 8) :: q.pwTail, out := 5, logs := false, nv := true } s →
      let id := (s.keep.sessionCounter + 1) % 2 ^ 32
      let at_ := (takenOf s 0x0100 q).elim (now s) (·.at_)
      (q.arg 8 1 = 0 → s.sess.owner ≠ some q.src →
        Answers (.sessionOpen q) 0x0100 q (leBytes 4 id ++ leBytes 1 1)
          (logCmd 0x0100 q .ok at_ { s with sess := { s.sess with owner := some q.src, level := .p1, id := id, lost := false }, keep := { s.keep with sessionCounter := id } }) s) ∧
      (q.arg 8 1 = 0 → s.sess.owner = some q.src →
        Answers (.sessionOpen q) 0x0100 q (leBytes 4 s.sess.id ++ leBytes 1 s.sess.level.code) (logCmd 0x0100 q .ok at_ s) s) ∧
      (q.arg 8 1 ≠ 0 → pwVerifies s q.pw = true → s.sess.owner ≠ some q.src →
        Answers (.sessionOpen q) 0x0100 q (leBytes 4 id ++ leBytes 1 2)
          (logCmd 0x0100 q .ok at_ { s with sess := { s.sess with owner := some q.src, level := .p2, id := id, lost := false, fails := 0 }
                                            keep := { s.keep with sessionCounter := id } }) s)) ∧
    (Ready .p1s 0x0101 q {} s → s.sess.commitWait = false →
      Answers (.sessionClose q) 0x0101 q []
        { entered .p1s 0x0101 q s with
            sess := { s.sess with owner := none, level := .none, id := 0, lost := false, cfg := none, cfgChecked := false, cal := none, params := [], tmr := [] } } s)

/-- A chunk command writes its data at its offset into its object, and into nothing else (R325, R340, R342, R348, R351, R353): the session's staged
configuration or calibration, the inactive image region, the supervisor bank that does not run, the staged microcode and keeper firmware, the node
firmware repository. A staged item that had been checked is unchecked. A part of a node image that a chunk completes is judged then (notes/assumptions/86.md). A chunk reads back as it
was written, and no other byte of the object changes; memories are in canonical form (MemoriesStayCanonical). -/
def Obligations.ChunksAreStoredAndReadBack : Prop :=
  (∀ (q : Req) (s : State),
    let o := leAt q.ibuf 0 4
    let sel := leAt q.ibuf 4 4
    let d := q.ibuf.drop 8
    let put (m : Mem 8) : Mem 8 := Mem.writeBytes 0 m o d
    (Ready .p1s 0x0102 q { chunk := true, bad := q.chunkBad 1048576 (sel == 0) } s →
      Answers (.cfgStage q) 0x0102 q [] { entered .p1s 0x0102 q s with sess := { s.sess with cfg := some (put (s.sess.cfg.getD [])), cfgChecked := false, lost := false } } s) ∧
    (Ready .p1s 0x0200 q { chunk := true, bad := q.chunkBad 4194304 (sel == 0), nv := true } s → (llOf s 4).lane = none →
      Answers (.imgWrite q) 0x0200 q []
        { entered .p1s 0x0200 q s with nv := { s.nv with img := vmod s.nv.img (1 - s.nv.actImg) put }, sess := { s.sess with imgChecked := none } } s) ∧
    (Ready .p1s 0x0600 q { chunk := true, bad := q.chunkBad 4194304 (sel == 0), nv := true } s →
      Answers (.supFwWrite q) 0x0600 q []
        { entered .p1s 0x0600 q s with nv := { s.nv with sup := vmod s.nv.sup (b2n (!s.sup.bank)) put }, sup := { s.sup with otherChecked := false } } s) ∧
    (Ready .p1s 0x0603 q { chunk := true, bad := q.chunkBad 262144 (sel == 0), nv := true } s →
      Answers (.ucodeWrite q) 0x0603 q [] { entered .p1s 0x0603 q s with nv := { s.nv with ucode := put s.nv.ucode } } s) ∧
    (Ready .p1s 0x0605 q { chunk := true, bad := q.chunkBad 262144 (sel == 0), nv := true } s →
      Answers (.keeperFwWrite q) 0x0605 q [] { entered .p1s 0x0605 q s with nv := { s.nv with kfw := put s.nv.kfw } } s) ∧
    (Ready .p1s 0x0901 q { chunk := true, bad := q.chunkBad 262144 (sel == 0) } s →
      Answers (.calStage q) 0x0901 q [] { entered .p1s 0x0901 q s with sess := { s.sess with cal := some (put (s.sess.cal.getD [])), lost := false } } s) ∧
    (Ready .p1s 0x0803 q { chunk := true, bad := q.chunkBad (4194304 - sel) (sel % 4096 == 0), nv := true, own := nfwStoreRefuse q s } s →
      Answers (.nfwStore q) 0x0803 q [] { entered .p1s 0x0803 q s with nv := { s.nv with nodeFw := Mem.writeBytes 0 s.nv.nodeFw (sel + o) d } } s)) ∧
  (∀ (m : Mem 8) (a : Nat) (l : List Byte), Mem.wf 0 m = true → Mem.readBytes 0 (Mem.writeBytes 0 m a l) a l.length = l ∧
    ∀ x, x < a ∨ a + l.length ≤ x → Mem.read 0 (Mem.writeBytes 0 m a l) x = Mem.read 0 m x)

/-- The checks mark what passed (R340, R342, R348): the configuration, the staged image, the other supervisor bank; they answer its check word or
version, and write no change-log entry. `SESSION_COMMIT` (R339, R426): with nothing staged it answers cycle number, check word and its last change-log index; else the copies are written
and the boundary is awaited. `PASSWD_SET` writes the new record into both copies, with a salt that is drawn (R421). `PARAM_STAGE` stages one value
per cell (R353). `UTC_SET` records UTC at TBASE 0 (R359).
Where the spec leaves a point open the model's choices hold (notes/assumptions: 6, 18, 28). -/
def Obligations.SessionChecksAndWrites : Prop :=
  (∀ (q : Req) (s : State),
    (Ready .p1s 0x0103 q { bad := [((stagedCheck s).isBad, 0xFFFF)], own := (stagedCheck s).refuse, out := 4, logs := false } s →
      Answers (.cfgCheck q) 0x0103 q (leBytes 4 (readCfg (stagedFile s)).chk.toNat) { s with sess := { s.sess with cfgChecked := true } } s) ∧
    (∀ im, Ready .p1s 0x0201 q { own := none, out := 9, logs := false } s → stagedAccept s = .ok im →
      Answers (.imgCheck q) 0x0201 q (leBytes 4 im.id.toNat ++ leBytes 4 im.ver.toNat ++ leBytes 1 ((List.range 6).map fun g => at1 (im.graph g).present g).sum)
        { s with sess := { s.sess with imgChecked := some im } } s) ∧
    (Ready .p1s 0x0601 q { out := 2, logs := false } s → Config.supSigned (vget s.nv.sup (b2n (!s.sup.bank))) = true →
      supMin s ≤ (Config.supVersion (vget s.nv.sup (b2n (!s.sup.bank)))).toNat →
      Answers (.supFwCheck q) 0x0601 q (leBytes 2 (Config.supVersion (vget s.nv.sup (b2n (!s.sup.bank)))).toNat) { s with sup := { s.sup with otherChecked := true } } s)) ∧
  (∀ (q : Req) (s : State),
    (Ready .p2 0x0104 q { wrong := s.sess.lost, out := 16, logs := false } s → stagesAny s = false →
      Answers (.sessionCommit q) 0x0104 q (leBytes 8 s.cyc.num ++ leBytes 4 s.nv.inForce.chk.toNat ++ leBytes 4 (logIndexOf 0x0104 s)) s s) ∧
    (Ready .p2 0x0104 q { wrong := s.sess.lost || clashes s .commit, busy := switching s, out := 16, nv := true,
                            bad := [((stagesCfg s && (stagedCheck s).isBad) || !calFits s, 0xFFFF)], own := if stagesCfg s then (stagedCheck s).refuse else none } s →
      stagesAny s = true → s.sess.commitWait = false →
      Schedules (.sessionCommit q) q .commit
        { entered .p2 0x0104 q s with
            nv := { s.nv with cfg := if stagesCfg s then vset s.nv.cfg (inactiveCopy s.nv.cfg) { file := stagedFile s, commit := (inForceCopy s s.nv.cfg).commit + 1, pw := (pwRecord s).getD {} } else s.nv.cfg
                              cal := vset s.nv.cal (inactiveCopy s.nv.cal) { file := buildCal (stagedCal s) ((inForceCopy s s.nv.cal).commit + 1), commit := (inForceCopy s s.nv.cal).commit + 1 } }
            sess := { s.sess with commitWait := true, commitCfg := stagesCfg s }
            cyc := { s.cyc with tcycNext := if stagesCfg s then some (readCfg (stagedFile s)).tcyc else none
                                qtcycNext := if stagesCfg s then some (readCfg (stagedFile s)).qtcyc else none } } s) ∧
    (Ready (if (pwRecord s).isNone then .p1s else .p2) 0x0105 q
        { defs := [(8, 1), (0x0C, 32)], bad := [(q.arg 8 1 < 8 || 32 < q.arg 8 1, 8)] ++ q.pwTail ++ [(!pwRules s q.pw, 0x0C)], nv := true } s →
      let b := entered (if (pwRecord s).isNone then .p1s else .p2) 0x0105 q s
      let salt := leBytes 16 (Config.salt s.free).toNat
      Answers (.passwdSet q) 0x0105 q []
        { b with nv := { s.nv with cfg := s.nv.cfg.map fun c => { c with pw := { salt := salt, iter := 100000, dk := pbkdf2 q.pw salt 100000, setSeq := b.log.n, crcOk := true } } }
                 free := s.free + 1 } s) ∧
    (let x : ParamCh := { graph := q.arg 8 1, cell := q.arg 0x0A 2, value := BitVec.ofNat 32 (q.arg 0x0C 4) };
      let l := (s.sess.params.filter fun p => !(p.graph == x.graph && p.cell == x.cell)) ++ [x];
      Ready .p1s 0x0903 q
        { defs := [(8, 1), (0x0A, 6)], out := 2
          bad := [(3 < x.graph, 8), (!(match parEntry s x.graph x.cell with | some e => e.calib | none => false) || ((stagedPar s x.graph x.cell).isNone && 256 ≤ s.sess.params.length), 0x0A),
                  (!parFits s x, 0x0C)] } s →
      Answers (.paramStage q) 0x0903 q (leBytes 2 l.length) { entered .p1s 0x0903 q s with sess := { s.sess with params := l, lost := false } } s) ∧
    (Ready .p1 0x0B01 q { defs := [(8, 16)], out := 8, nv := true } s →
      let u := utcAtZero (toSigned 64 (q.arg 8 8)) (q.arg 0x10 8)
      Answers (.utcSet q) 0x0B01 q (leBytes 8 (ofSigned 64 u)) { entered .p1 0x0B01 q s with keep := { s.keep with utc := u, utcSet := true } } s))

/-! ## Supervisor commands: changes at a boundary and running state -/

/-- Commands that change the running program, its state or its streams are accepted for the next cycle boundary (R335, R341, R343, R345, R349, R350,
R353): beside the change-log entry, with which an adoption keeps the old and the new UID (R252), nothing changes yet. State commands (R344, R345): `HOLD` in `RUN` or `QUIET` finds cause 0x13 and waits for the commit point; `QUIET_ENTER` and `QUIET_EXIT`
are accepted for the boundary; `GROUP_ACK` of a group that needs its master test waits for it; `LANE_ROTATE` sets `LANE_ROT.DUE`; `RESTART` over a
ring that takes its completion completes first.
Where the spec leaves a point open the model's choices hold (notes/assumptions: 31, 36, 38). -/
def Obligations.StateAndBoundaryCommands : Prop :=
  (∀ (q : Req) (s : State),
    let g := q.arg 8 1
    (let n := q.arg 0x0C 4;
      Ready .p1s 0x0202 q
        { defs := [(8, 1), (0x0C, 4)], bad := [(3 < g, 8), (s.sess.imgChecked.isSome && n < (s.sess.imgChecked.getD {}).qualMin, 0x0C)], out := 8
          wrong := s.sess.imgChecked.isNone || !((s.sess.imgChecked.getD {}).graph g).present || (spares s).isEmpty || (llOf s 4).lane.isSome || s.md.mstate != .run ||
            s.image.isNone || clashes s (.qualify g n)
          busy := s.sess.commitWait || switching s, own := qualRefuse s g } s →
      Schedules (.progQualify q) q (.qualify g n) (entered .p1s 0x0202 q s) s) ∧
    (Ready .p2 0x0204 q
        { defs := [(8, 1)], bad := [(3 < g, 8)], out := 8, nv := true, busy := s.sess.commitWait
          wrong := s.lane.qual.state != 2 || s.lane.qual.graph != g || (llOf s 4).lane.isNone || clashes s (.handover g) } s →
      Schedules (.progHandover q) q (.handover g) (entered .p2 0x0204 q s) s) ∧
    (Ready .p1 0x0205 q { wrong := (llOf s 4).lane.isNone || clashes s .progAbort } s → Schedules (.progAbort q) q .progAbort (entered .p1 0x0205 q s) s) ∧
    (Ready .p2 0x0206 q { out := 8, nv := true, wrong := s.md.mstate != .safeHold || s.sess.imgChecked.isNone || clashes s .progLoad, busy := s.sess.commitWait } s →
      Schedules (.progLoad q) q .progLoad (entered .p2 0x0206 q s) s) ∧
    (Ready .p0 0x0300 q { defs := [(8, 0x15), (0x20, 32)], bad := (q.flag 0 || q.flag 1, 4) :: streamBad q s, own := streamBudgetRefuse q s } s →
      Schedules (.streamOpen q) q .streamOpen (entered .p0 0x0300 q s) s) ∧
    (Ready .p0 0x0301 q { defs := [(8, 1)], bad := [(31 < g, 8)], out := 8, wrong := !(vget s.hp.streams g).open_ } s →
      Schedules (.streamClose q) q .streamClose (entered .p0 0x0301 q s) s) ∧
    (Ready .p1 0x0403 q { wrong := s.md.mstate != .safeHold || !causesGone s || clashes s .holdAck } s →
      Schedules (.holdAck q) q .holdAck (entered .p1 0x0403 q s) s) ∧
    (Ready .p1 0x0701 q { out := 8, wrong := noPrism s || (spares s).isEmpty || !hasPrism s || clashes s .prismEnter } s →
      Schedules (.prismEnter q) q .prismEnter (entered .p1 0x0701 q s) s) ∧
    (Ready .p0 0x0702 q { out := 8, wrong := (laneIn s .prism).isNone || clashes s .prismExit } s → Schedules (.prismExit q) q .prismExit (entered .p0 0x0702 q s) s) ∧
    (Ready .p1 0x0703 q { defs := [(8, 1)], bad := [(3 < g, 8)], out := 8, wrong := !(llOf s g).stateFault || clashes s (.reseed g), test := llTest s g } s →
      Schedules (.llReseed q) q (.reseed g) (entered .p1 0x0703 q s) s) ∧
    (let h := 256 * g + q.arg 9 1;
      Ready .p1 0x0802 q
        { defs := [(8, 2), (0x10, 8)], bad := [(1 < g, 8)], out := 8, own := adoptRefuse s g (q.arg 9 1) (q.arg 0x10 8)
          wrong := !((nodeOf s h).conn == 1 || (nodeOf s h).conn == 6) || uidConfigured s (q.arg 0x10 8) || clashes s (.adopt h (q.arg 0x10 8)) } s →
      let b := entered .p1 0x0802 q s
      Schedules (.adopt q) q (.adopt h (q.arg 0x10 8)) { b with log := { b.log with adopted := s.log.adopted ++ [(b.log.n, h, (nodeOf s h).uid, q.arg 0x10 8)] } } s) ∧
    (Ready .p1 0x0904 q { defs := [(8, 1)], bad := [(15 < g, 8)], out := 8, wrong := clashes s (.realign g) } s →
      Schedules (.mmRealign q) q (.realign g) (entered .p1 0x0904 q s) s)) ∧
  (∀ (q : Req) (s : State),
    (Ready .p0 0x0402 q {} s → s.md.mstate = .run ∨ s.md.mstate = .quiet → 0x13#8 ∉ s.md.holdPend →
      exec (.hold q) s = .next { entered .p0 0x0402 q s with md := { s.md with holdPend := s.md.holdPend ++ [0x13#8] }, sup := { s.sup with waitHold := s.sup.waitHold ++ [q] } }) ∧
    (Ready .p0 0x0404 q { out := 8, wrong := s.md.mstate != .run || (s.xl.joined && !s.xl.acting) || clashes s .quietEnter } s →
      Schedules (.quietEnter q) q .quietEnter { entered .p0 0x0404 q s with xl := { s.xl with quietReq := onCarrier s } } s) ∧
    (Ready .p0 0x0405 q { out := 8, wrong := s.md.mstate != .quiet || clashes s .quietExit } s →
      Schedules (.quietExit q) q .quietExit { entered .p0 0x0405 q s with md := { s.md with quietExit := true } } s) ∧
    (Ready .p1 0x0406 q { defs := [(8, 1)], bad := [(1 < q.arg 8 1, 8)], out := 4, wrong := !ackReady s (q.arg 8 1) } s →
      4 ∈ (vget s.out.grps (q.arg 8 1)).latches ∨ (vget s.out.grps (q.arg 8 1)).startOk = false →
      exec (.groupAck q) s = .next { entered .p1 0x0406 q s with sup := { s.sup with waitAck := s.sup.waitAck ++ [(q.arg 8 1, q)] } }) ∧
    (Ready .p1 0x0704 q { out := 1 } s →
      let b := { entered .p1 0x0704 q s with lane := { s.lane with rotDue := true } }
      Answers (.laneRotate q) 0x0704 q (leBytes 1 ((nextRelieved b).getD 7)) b s) ∧
    (∀ r, Ready .p1 0x0407 q { defs := [(8, 1)], bad := [(q.arg 8 1 != 0, 8)] } s → q.src = .ring r → (vget s.hp.rings r.val).en = true → isMuted q s = false →
      ∃ t, exec (.restart q) s = .next t ∧ t.md = s.md ∧ t.sup.taken = s.sup.taken.filter (fun x => !x.isOf q) ∧
        ∃ c, t.hp.cpls = s.hp.cpls ++ [c] ∧ c.restart = true ∧ c.status = .ok ∧ c.tag = q.tag))

/-- The event recorder's commands (R346, R390, R391): a cursor opens at the position its start code gives, a read without a gap delivers the records from
the cursor on and moves it behind the last one, an overrun cursor answers `CURSOR_OVERRUN` with the oldest number present, a close ends it;
`LOG_CLEAR` empties the circulating operational area and answers how many records it held. -/
def Obligations.LoupeCommands : Prop :=
  ∀ (q : Req) (s : State),
    let i := q.arg 8 1
    let n := q.arg 0x0A 2
    (Ready .p0 0x0500 q { defs := [(8, 3), (0x10, 8)], bad := [(7 < i, 8), (1 < q.arg 9 1, 9), (3 < q.arg 0x0A 1, 0x0A)], out := 4, logs := false } s →
      let p := openPos (q.arg 9 1 == 0) (q.arg 0x0A 1) (q.arg 0x10 8) s
      Answers (.loupeOpen q) 0x0500 q (leBytes 4 p) { s with evr := { s.evr with cursors := vset s.evr.cursors i (some { safety := q.arg 9 1 == 0, pos := p }) } } s) ∧
    (∀ c, Ready .p0 0x0501 q
        { defs := [(8, 1), (0x0A, 2)], bad := [(7 < i, 8), (n < 1 || 32 < n, 0x0A)], obuf := decide (2 ≤ n), out := if q.flag 1 then 32 * n else 36
          wrong := decide (i ≤ 7) && (vget s.evr.cursors i).isNone, logs := false } s →
      vget s.evr.cursors i = some c →
      (∀ fl, c.overrun = true → ∃ t, exec (.loupeRead q fl) s = .next t ∧
        Done q 0x0501 .cursorOverrun (leBytes 4 (oldestSeq c.safety s)) none
          { s with evr := { s.evr with cursors := vset s.evr.cursors i (some { c with pos := oldestSeq c.safety s, overrun := false }) } } t) ∧
      (∀ r, c.overrun = false → (loupeRecs n c s).getLast? = some r → (∀ x ∈ loupeRecs n c s, x.crcBad = false) → q.flag 1 = true →
        ∃ t, exec (.loupeRead q []) s = .next t ∧
          Done q 0x0501 .ok (leBytes 2 (loupeRecs n c s).length) (some ((loupeRecs n c s).flatMap EvRec.bytes))
            { s with evr := { s.evr with cursors := vset s.evr.cursors i (some { c with pos := r.seq + 1 }) } } t)) ∧
    (Ready .p0 0x0502 q { defs := [(8, 1)], bad := [(7 < i, 8)], logs := false } s →
      Answers (.loupeClose q) 0x0502 q [] { s with evr := { s.evr with cursors := vset s.evr.cursors i none } } s) ∧
    (Ready .p1 0x0504 q { defs := [(8, 1)], bad := [(i != 1, 8)], out := 4, nv := true } s → s.evr.flushing = false →
      ∃ t, exec (.logClear q) s = .next t ∧ t.evr.recC = [] ∧ t.evr.recS = s.evr.recS ∧ t.evr.recK = s.evr.recK ∧ t.evr.seqO = s.evr.seqO ∧ t.evr.evt.getLsbD 7 = true ∧
        Answered q 0x0504 (leBytes 4 s.evr.recC.length) (clearLog (entered .p1 0x0504 q s)) t)

/-- Firmware and microcode switches (R347, R348, R441 to R443): `SUP_FW_SWITCH` lets the supervisor leave service towards the other bank, which must
serve within 10 s; `UCODE_ROLL` answers the staged version and begins a roll to it, unless every lane has it; `KEEPER_FW_SWITCH` gives the keeper 2 s, in which the LEDs hold (R502). Ring and node commands (R254, R255, R350, R351): a discovery begins with the next ring period and its command waits; a transfer of a fitting image starts
with its number of blocks; an activation that may happen waits for the node.
Where the spec leaves a point open the model's choices hold (notes/assumptions: 9, 20, 31). -/
def Obligations.FirmwareAndNodeCommands : Prop :=
  (∀ (q : Req) (s : State),
    (Ready .p2 0x0602 q { wrong := !s.sup.otherChecked, busy := s.sess.commitWait || switching s, nv := true } s →
      ∃ t, exec (.supFwSwitch q) s = .next t ∧
        t.sup = { s.sup with sup := .updating, bank := !s.sup.bank, prefer := !s.sup.bank, switchDue := some (now s + 160000000), switchReq := some q, switchFailed := false } ∧
        t.sess.cfg = none ∧ t.sess.cal = none ∧ t.sess.params = [] ∧ t.sess.owner = s.sess.owner ∧ t.hp.evt.getLsbD 1 = true ∧ t.log = (entered .p2 0x0602 q s).log ∧
        onlyChanges [.sup, .sess, .evr, .hp, .keep, .log, .mem] s t) ∧
    (Ready .p2 0x0604 q { out := 1, busy := s.lane.roll.isSome, nv := true, own := fwRefuse (Config.ucodeSigned s.nv.ucode) (Config.ucodeVersion s.nv.ucode).toNat (ucMin s) } s →
      let v := Config.ucodeVersion s.nv.ucode
      Answers (.ucodeRoll q) 0x0604 q (leBytes 1 v.toNat) { entered .p2 0x0604 q s with
        keep := { s.keep with targetUcode := v }
        lane := { s.lane with roll := if (List.range 5).all fun k => (laneOf s k).role == .retired || (laneOf s k).ucodeVer == v then none else some v } } s) ∧
    (Ready .p2 0x0606 q { out := 2, wrong := !keeperMay s, nv := true, busy := (llOf s 4).lane.isSome || s.lane.roll.isSome || s.sess.commitWait || switching s } s →
      exec (.keeperFwSwitch q) s = .next { entered .p2 0x0606 q s with
        keep := { s.keep with fwSwitchDue := some (now s + 32000000), fwSwitchReq := some q, fwNewVer := Config.keeperVersion s.nv.kfw }
        md := { s.md with ledHold := some (leds s) } })) ∧
  (∀ (q : Req) (s : State),
    (let k := q.arg 8 1;
      Ready .p0 0x0800 q { defs := [(8, 1)], bad := [(1 < k, 8)], out := 2, logs := false, wrong := !(ringOf s k).sched || !(ringOf s k).master } s →
      ∃ t, exec (.ringDiscover q) s = .next t ∧ t.sup = { s.sup with waitDisc := s.sup.waitDisc ++ [(k, q)] } ∧
        (ringOf t k).disc = some ((ringOf s k).disc.getD (((ringOf s k).rpn + 1) % 2 ^ 32)) ∧
        ((ringOf s k).disc = none → (ringOf t k).answers = [] ∧ (ringOf t k).nFound = 0 ∧ (ringOf t k).found = (ringOf s k).found.filter fun x => (slotOfUid s k x.uid).isSome) ∧
        (∀ j < 2, j ≠ k → ringOf t j = ringOf s j) ∧ t = { s with sup := t.sup, ring := { s.ring with rings := t.ring.rings } }) ∧
    (∀ ty ver len, Ready .p1s 0x0804 q
        { defs := [(8, 2), (0x0C, 4)], bad := [(511 < q.arg 8 2, 8), (4194304 ≤ q.arg 0x0C 4 || q.arg 0x0C 4 % 4096 != 0, 0x0C)], out := 4
          busy := s.ring.nfw.phase == 1 || s.ring.nfw.phase == 2, own := nfwRefuse s (q.arg 8 2) (q.arg 0x0C 4) } s →
      nfwHeader s.nv.nodeFw (q.arg 0x0C 4) = some (ty, ver, len) →
      Answers (.nfwSend q) 0x0804 q (leBytes 4 ((len + 63) / 64))
        { entered .p1s 0x0804 q s with ring := { s.ring with nfw := { node := q.arg 8 2, start := q.arg 0x0C 4, phase := 1, total := len, ver := ver } } } s) ∧
    (Ready .p1 0x0805 q { defs := [(8, 2)], bad := [(511 < q.arg 8 2, 8)], wrong := !activateMay s (q.arg 8 2) } s →
      exec (.fwActivate q) s = .next { entered .p1 0x0805 q s with sup := { s.sup with waitAct := s.sup.waitAct ++ [(q.arg 8 2, q)] } }))

/-- The register window and the timers (R354 to R359): `REG_READ` answers what reads of the registers give, with their effects; `REG_WRITE` writes one
register and answers what it then reads; `TMR_SETUP` does its register writes on a free channel and answers the channel's status.
Where the spec leaves a point open the model's choices hold (notes/assumptions: 19, 28, 67). -/
def Obligations.RegisterWindowCommands : Prop :=
  ∀ (q : Req) (s : State),
    let w := q.arg 8 1
    let n := q.arg 0x0A 2
    let o := q.arg 0x0C 4
    let v := BitVec.ofNat 32 (q.arg 0x10 4)
    (Ready .p0 0x0A00 q
        { defs := [(8, 1), (0x0A, 6)], out := 4 * n, test := rangeTest s w o n, logs := false
          bad := [(winSize w = 0, 8), (n < 1 || (if q.flag 1 then 4096 else 12) < n, 0x0A), (o % 4 != 0 || winSize w < o + 4 * n, 0x0C)] } s →
      Answers (.regRead q) 0x0A00 q (words (readRegs w o n s).1) (readRegs w o n s).2 s) ∧
    (Ready (regTarget q s).cls 0x0A01 q
        { defs := [(8, 1), (0x0C, 8)], out := 4, bad := [(winSize w = 0, 8), (o % 4 != 0 || winSize w < o + 4, 0x0C)]
          prot := if (regTarget q s).protected (holds s q.src) then some (.protectedReg, []) else none } s →
      let b := writeReg w o v (entered (regTarget q s).cls 0x0A01 q s)
      Answers (.regWrite q) 0x0A01 q (leBytes 4 (readReg w o b).1) b s) ∧
    (Ready .p0 0x0B02 q
        { defs := [(8, 1), (0x0C, 0x15)], out := 4, prot := if (vget s.tmr.chans w).own then some (.protectedReg, []) else none
          bad := [(31 < w, 8), (cfgReserved w (BitVec.ofNat 32 o &&& cfgMask), 0x0C), (q.arg 0x16 2 != 0, 0x16), (0x8000 ≤ q.arg 0x1C 4, 0x1C), (4 ≤ q.arg 0x20 1, 0x20)] } s →
      let b := timerSetup q w (entered .p0 0x0B02 q s)
      Answers (.tmrSetup q) 0x0B02 q (leBytes 4 (vget b.tmr.chans w).stat) b s)

/-- Cross-link and fuse commands (R268, R281, R360 to R362, R399): `XL_STOP` and its release set and clear the stop command; `PAIR_ADOPT` starts the
transfer once G7 of the new module is locked, and stays in progress until then (notes/assumptions/104.md); fuse commands with pulses that all program under every reference (R361, R362, R399, R409, R414): `FUSE_PROG` answers how many bits it set, every bit that it was asked
for then reads 1, and no cell of another bit changes; `FUSE_LOCK` does so for the group's lock bit; the advance to `SCRAPPED` sets every bit of its step field and
overwrites the stored files with zeros.
Where the spec leaves a point open the model's choices hold (notes/assumptions: 29, 30). -/
def Obligations.CrossLinkAndFuseCommands : Prop :=
  (∀ (q : Req) (s : State),
    (Ready .p0 0x0C01 q { wrong := !s.xl.stopDrv.getLsbD 2 } s → Answers (.xlStop q) 0x0C01 q [] { entered .p0 0x0C01 q s with xl := { s.xl with stopCmd := true } } s) ∧
    (Ready .p1 0x0C02 q {} s → Answers (.xlStopRelease q) 0x0C02 q [] { entered .p1 0x0C02 q s with xl := { s.xl with stopCmd := false } } s) ∧
    (∀ x, Ready .p2 0x0C03 q { defs := [(8, 8)], wrong := !pairAdoptMay s (q.arg 8 8) x } s →
      (x.g7Locks = true → Answers (.pairAdopt q x) 0x0C03 q [] { entered .p2 0x0C03 q s with xl := { s.xl with xferObj := 1, xferOfs := 0 } } s) ∧
      (x.g7Locks = false → exec (.pairAdopt q x) s = .next (entered .p2 0x0C03 q s)))) ∧
  (∀ (q : Req) (env : FuseEnv) (s : State), (∀ p ∈ env.pulses, 2000 ≤ p.vlog ∧ 0 ≤ p.tj ∧ p.tj ≤ 70 ∧ p.level = 3) →
    let g := q.arg 8 1
    let reads (t : State) (b : Nat) : Bool := Prog.reads { f := t.fuse } b
    let rest (l : List Nat) (t : State) : Prop := ∀ b, b ∉ l →
      t.fuse.a.ml.getLsbD b = s.fuse.a.ml.getLsbD b ∧ t.fuse.a.n.getLsbD b = s.fuse.a.n.getLsbD b ∧ t.fuse.a.mh.getLsbD b = s.fuse.a.mh.getLsbD b ∧
      t.fuse.b.ml.getLsbD b = s.fuse.b.ml.getLsbD b ∧ t.fuse.b.n.getLsbD b = s.fuse.b.n.getLsbD b ∧ t.fuse.b.mh.getLsbD b = s.fuse.b.mh.getLsbD b
    (Ready .p2 0x0D01 q
        { life := lifeRefuse s g, defs := [(8, 1), (0x0A, 4), (0x10, 32)], out := 2, nv := true, prot := lockRefuse s g, wrong := s.fuse.shadowMis, supply := takenStop s
          bad := [(7 < g, 8), (grpLen g < q.arg 0x0A 2 + q.arg 0x0C 2, 0x0A), (q.arg 0x0C 2 < 1 || 256 < q.arg 0x0C 2, 0x0C), ((progBits q).any fun b => !progAllowed g (b - grpLo g), 0x10)] } s →
      ∃ t u, exec (.fuseProg q env) s = .next t ∧ Answered q 0x0D01 (leBytes 2 ((progBits q).filter fun b => !reads s b).length) u t ∧ (∀ b ∈ progBits q, reads t b = true) ∧ rest (progBits q) t ∧ (vget t.fuse.grps g).pend = true ∧ t.log.n = s.log.n + 1) ∧
    (Ready .p2 0x0D02 q
        { life := lifeRefuse s g, defs := [(8, 1)], bad := [(7 < g, 8)], prot := lockRefuse s g, wrong := s.fuse.shadowMis, supply := takenStop s, nv := true
          own := if (lockCheck s.fuse g).1 then none else some (.checkFailed, leBytes 2 (lockCheck s.fuse g).2) } s →
      ∃ t u, exec (.fuseLock q env) s = .next t ∧ Answered q 0x0D02 [] u t ∧ reads t (grpLo g + grpLen g - 1) = true ∧ rest [grpLo g + grpLen g - 1] t ∧ t.log.n = s.log.n + 1) ∧
    (Ready .p2 0x0D03 q { defs := [(8, 1)], bad := [(g != s.fuse.lc + 1, 8)], out := 1, wrong := s.fuse.shadowMis, supply := takenStop s, nv := true } s → s.fuse.lc = 3 →
      s.fuse.lcDefault = false →
      ∃ t, exec (.lcAdvance q env) s = .next t ∧ (∀ i, i < 16 → reads t (2048 + 128 + 48 + i) = true) ∧
        t.nv.cfg = Vector.replicate 2 {} ∧ t.nv.cal = Vector.replicate 2 {} ∧ t.nv.img = Vector.replicate 2 [] ∧
        (t.fuse.lc = if (lifeOf t.fuse).1 = 4 then 4 else 3) ∧ ((lifeOf t.fuse).1 = 4 → ∃ u, Answered q 0x0D03 (leBytes 1 4) u t)))

/-! ## Keeper commands (14 R363 to R378) -/

/-- The keeper's reading commands answer and change nothing else (R364, R372, R374, R378): `KP_STATUS`, `KP_JOURNAL_INFO`, `KP_JOURNAL_READ` with the
records from the one asked for on, `KP_RECOVER_DIGEST` with the SHA-256 of a bank's first bytes; `KP_BAUD` answers at the old rate and then takes the
new one, which must be confirmed. The keeper's acting commands (R345, R373, R374, R418): the response goes first. `KP_HOLD` finds cause 0x13; `KP_HOLD_ACK` waits for the boundary;
`KP_SHUTDOWN`, `KP_RESET` and `KP_RECOVER_BOOT` begin a shut-down, the last with its bank preferred; `KP_SUP_RESTART` restarts the supervisor alone;
`KP_PRESENCE_CLOSE` closes the window; `KP_RECOVER_WRITE` writes into its bank. Each of class P1 that changes anything first writes its change-log entry, with requester 0x41, level 1,
session 0 and the hash of command code and payload (R332, R423, R426).
Where the spec leaves a point open the model's choices hold (notes/assumptions: 13, 49, 50, 108). -/
def Obligations.KeeperCommands : Prop :=
  (∀ (f : Frame) (s : State),
    (KpReady 0x8000 f { always := true, bad := f.payload.length != 0 } s →
      exec (.kpStatus f) s = .next (kpSent 0x8000 f .ok (kpStatusData (kpHeard 0x8000 f s)) (kpHeard 0x8000 f s))) ∧
    (KpReady 0x8001 f { bad := f.payload.length != 1 || 4 < f.arg 0 1 } s →
      let t := kpSent 0x8001 f .ok [] (kpHeard 0x8001 f s)
      exec (.kpBaud f) s = .next { t with keep := { t.keep with oldBaud := s.keep.baud, baud := f.arg 0 1, baudAt := some (now s) } }) ∧
    (KpReady 0x8002 f { always := true, bad := f.payload.length != 0 } s →
      exec (.kpJournalInfo f) s = .next (kpSent 0x8002 f .ok
        (leBytes 4 ((s.keep.journal.head?.map (·.seq)).getD 0) ++ leBytes 4 s.keep.seq ++ leBytes 8 s.keep.mark ++ leBytes 2 s.keep.lost.toNat) (kpHeard 0x8002 f s))) ∧
    (KpReady 0x8003 f { always := true, bad := f.payload.length != 5 || f.arg 4 1 < 1 || 15 < f.arg 4 1 } s →
      let l := (s.keep.journal.filter fun r => f.arg 0 4 ≤ r.seq).take (f.arg 4 1)
      (∀ r ∈ l, r.crcBad = false) →
      exec (.kpJournalRead f) s = .next (kpSent 0x8003 f (if f.arg 0 4 < oldestKrec s && 1 < oldestKrec s then .cursorOverrun else .ok)
        (leBytes 1 l.length ++ [0#8] ++ l.flatMap KRec.bytes) (kpHeard 0x8003 f s))) ∧
    (KpReady 0x8011 f { p1 := true, recovery := true, wrong := recoverWrong s f, bad := f.payload.length != 8 || 1 < f.arg 0 1 || f.arg 4 4 = 0 || 4194304 < f.arg 4 4 } s →
      exec (.kpRecoverDigest f) s = .next (kpSent 0x8011 f .ok (sha256 (Mem.readBytes 0 (vget s.nv.sup (f.arg 0 1)) 0 (f.arg 4 4))) (kpHeard 0x8011 f s)))) ∧
  (∀ (f : Frame) (s : State),
    (KpReady 0x8004 f { bad := f.payload.length != 0, wrong := !(s.md.mstate == .run || s.md.mstate == .quiet || s.md.mstate == .safeHold) } s →
      s.md.mstate ≠ .safeHold → 0x13#8 ∉ s.md.holdPend →
      exec (.kpHold f) s = .next { kpSent 0x8004 f .ok [] (kpHeard 0x8004 f s) with md := { s.md with holdPend := s.md.holdPend ++ [0x13#8] } }) ∧
    (KpReady 0x8005 f { p1 := true, logs := true, bad := f.payload.length != 0, wrong := s.md.mstate != .safeHold || !causesGone s || clashes s .holdAck } s →
      exec (.kpHoldAck f) s = .next { kpSent 0x8005 f .ok [] (kpEntered 0x8005 f s) with
        sup := { s.sup with acts := s.sup.acts ++ [{ kind := .holdAck, q := none, since := s.cyc.num }] } }) ∧
    (KpReady 0x8006 f { p1 := true, logs := true, bad := f.payload.length != 0, wrong := !canShut s } s →
      ∃ t, exec (.kpShutdown f) s = .next t ∧ ShutBegun .kpShutdown (kpEntered 0x8006 f s) t) ∧
    (KpReady 0x8007 f { p1 := true, logs := true, bad := f.payload.length != 0, always := resetWakes s, wrong := !canShut s && !resetWakes s } s →
      ∃ t, exec (.kpReset f) s = .next t ∧ (resetWakes s = false → ShutBegun .kpReset (kpEntered 0x8007 f s) t) ∧
        (resetWakes s = true → t.md.mstate = .starting ∧ t.md.startStep = 1 ∧ t.log = (kpEntered 0x8007 f s).log)) ∧
    (KpReady 0x8008 f { p1 := true, logs := true, bad := f.payload.length != 0, wrong := !(supRuns s || s.sup.sup == .halted) } s →
      ∃ t, exec (.kpSupRestart f) s = .next t ∧ t.sup = { s.sup with sup := .restarting } ∧ onlyChanges [.evr, .hp, .keep, .mem, .sess, .sup] (kpEntered 0x8008 f s) t) ∧
    (KpReady 0x8009 f { bad := f.payload.length != 0 } s → s.sess.winOpen = true →
      ∃ t, exec (.kpPresenceClose f) s = .next t ∧ t.sess.winOpen = false ∧ t.sess.owner = none ∧ t.sess.level = .none ∧ t.sess.fails = 0 ∧
        (s.sess.commitWait = false → t.sess.cfg = none ∧ t.sess.cal = none ∧ t.sess.params = []) ∧ onlyChanges [.keep, .mem, .sess] s t) ∧
    (let n := f.payload.length - 8;
      KpReady 0x8010 f { p1 := true, logs := true, recovery := true, wrong := recoverWrong s f, bad := f.payload.length < 9 || 1 < f.arg 0 1 || f.arg 4 4 % 8 != 0 || 4194304 < f.arg 4 4 + n } s →
      ∃ k, exec (.kpRecoverWrite f true) s = .next { s with
          log := (kpEntered 0x8010 f s).log
          nv := { s.nv with sup := vmod s.nv.sup (f.arg 0 1) fun m => Mem.writeBytes 0 m (f.arg 4 4) (f.payload.drop 8) }
          sup := { s.sup with otherChecked := false }
          keep := { k with recovered := vmod s.keep.recovered (f.arg 0 1) (· + n) } } ∧
        k = (kpSent 0x8010 f .ok [] (kpEntered 0x8010 f s)).keep) ∧
    (KpReady 0x8012 f { p1 := true, logs := true, recovery := true, wrong := recoverWrong s f || !canShut s, bad := f.payload.length != 1 || 1 < f.arg 0 1 } s →
      ∃ t u, exec (.kpRecoverBoot f) s = .next t ∧ ShutBegun .recoverBoot u t ∧ t.sup.prefer = (f.arg 0 1 == 1) ∧ vget t.keep.recovered (f.arg 0 1) = 0 ∧
        onlyChanges [.keep, .mem, .sup] (kpEntered 0x8012 f s) u)) ∧
  (∀ (cmd : Nat) (f : Frame) (s : State),
    (kpEntered cmd f s).log.n = s.log.n + 1 ∧ onlyChanges [.keep, .log] s (kpEntered cmd f s) ∧
    ∃ e, (kpEntered cmd f s).log.entries.getLast? = some e ∧ e.idx = s.log.n + 1 ∧ e.tbase = now s ∧ e.opcode = cmd ∧ e.status = 0 ∧ e.req = 0x41 ∧ e.level = 1 ∧
      e.session = 0 ∧ e.phash = sha256 (leBytes 2 cmd ++ f.payload))

/-- The sideband line and the keeper's firmware (R364, R367, R369, R442): a bad frame and a byte timeout are counted; a repeat of the last accepted request
is answered again and not executed; an unconfirmed rate returns 10 s after the change; a keeper switch ends with the new version when the firmware is
ready in time, and with the old one at its timeout, and the LEDs are held no longer (R502). A keeper command that a condition refuses answers its status and changes nothing else (R371, R373 to R375).
Where the spec leaves a point open the model's choices hold (notes/assumptions: 7, 48, 50). -/
def Obligations.SidebandLine : Prop :=
  (∀ (tag cmd crc : Half) (s : State),
    (keeperHears s = true →
      exec .sidebandFrameDiscard s = .next { s with keep := { s.keep with discarded := satUp s.keep.discarded } } ∧
      exec .sidebandByteTimeout s = .next { s with keep := { s.keep with discarded := satUp s.keep.discarded } } ∧
      (s.keep.lastReq = some (tag, cmd.toNat, crc) → s.keep.waiting = none →
        exec (.sidebandRepeatRequest tag cmd crc) s = .next { s with keep := { s.keep with baudAt := none, sent := s.keep.sent + 1 } }) ∧
      (s.keep.lastReq ≠ some (tag, cmd.toNat, crc) → exec (.sidebandRepeatRequest tag cmd crc) s = .next s)) ∧
    (∀ t, s.keep.baudAt = some t →
      exec .baudRevert s = .next { advanceTo (t + 160000000) s with keep := { s.keep with baud := s.keep.oldBaud, baudAt := none } }) ∧
    (∀ d, s.keep.fwSwitchDue = some d → s.keep.fwSwitchReq = none →
      exec .keeperSwitchTimeout s = .next { advanceTo d s with keep := { s.keep with fwSwitchDue := none, fwSwitchReq := none }, md := { s.md with ledHold := none } } ∧
      (now s ≤ d → ∃ t, exec .keeperFwReady s = .next t ∧ t.keep.fwVer = s.keep.fwNewVer ∧ t.keep.fwSwitchDue = none ∧ keeperHears t = !s.pwr.keeperDown ∧
        t.md = { s.md with ledHold := none } ∧ onlyChanges [.keep, .md, .mem] s t))) ∧
  (∀ (cmd : Nat) (f : Frame) (n : KpNeeds) (act : State → State) (st : Status) (s : State),
    keeperHears s = true → f.mine cmd s = true → s.keep.waiting = none → f.payload.length ≤ 1024 → s.keep.lastReq ≠ some (f.tag, cmd, f.crc cmd) →
    n.refuse (kpHeard cmd f s) = some st →
    (st ≠ .nvFailed → kpServe cmd f n act s = kpSent cmd f st [] (kpHeard cmd f s)) ∧
    (st = .nvFailed → s.pwr.inhibit = true →
      kpServe cmd f n act s = kpSent cmd f st [] { kpHeard cmd f s with mem := { s.mem with inhibited := satUp s.mem.inhibited } }))

/-- The presence window and the keeper's own work (R377, R402, R417 to R419, R461, R493): with every required source a held `PRESENCE` that had been
released opens the window for its length or restarts it; it closes, and at once when a source is missing; a failed
self-check leads to `FAULT` 0x26; the TBASE mark is the next multiple of 2³²; a bank below 1,800 µF sets `HU_WEAK`.
Where the spec leaves a point open the model's choices hold (notes/assumptions: 2, 49). -/
def Obligations.PresenceAndKeeperWork : Prop :=
  ∀ (p : Pins) (cap : BitVec 12) (r : Rails) (s : State),
    (keeperHears s = true → (s.sess.winOpen = true → now s < s.sess.winEnd) → p.pressed = true → s.sess.released = true →
      (reqCfg s = true → p.cfg = true) → (reqSeal s = true → p.sealed = false) →
      ∃ t, exec (.presenceWindowOpen p false) s = .next t ∧
        t.sess = { s.sess with pressed := true, cfgPin := p.cfg, sealed := p.sealed, winOpen := true, winEnd := now s + winMin s * 960000000, released := false
                               fails := if s.sess.winOpen then s.sess.fails else 0 } ∧
        t.md = { s.md with ledWindow := some (now s) } ∧ onlyChanges [.sess, .md, .keep, .mem] s t) ∧
    (s.sess.winOpen = true → ∃ t, exec (.presenceWindowClose p) s = .next t ∧ t.sess.winOpen = false ∧ t.sess.owner = none ∧
      onlyChanges [.sess, .keep, .mem, .time, .tmr] s t ∧
      (keeperHears s = true → now s < s.sess.winEnd → reqCfg s = true → p.cfg = false → t.time = s.time ∧ t.tmr = s.tmr)) ∧
    exec (.keeperSelfCheck true) s = .next s ∧
    (s.md.mstate = .starting ∨ s.md.mstate = .run ∨ s.md.mstate = .quiet ∨ s.md.mstate = .safeHold →
      ∃ t, exec (.keeperSelfCheck false) s = .next t ∧ FaultEntered 0x26 s t) ∧
    (s.pwr.inhibit = false → s.time.tclkRun = true → ∃ t, exec .tbaseMark s = .next t ∧
      t = { advanceTo ((now s + (2 ^ 32 - 1)) / 2 ^ 32 * 2 ^ 32) s with keep := { s.keep with mark := (t.time.tbase / 2 ^ 32 + 1) * 2 ^ 32 } }) ∧
    (2000 ≤ r.vlog.toNat → s.pwr.onHu = false → s.md.mstate = .starting ∨ s.md.mstate = .run ∨ s.md.mstate = .quiet ∨ s.md.mstate = .safeHold →
      ∃ t, exec (.holdupTest cap r) s = .next t ∧ t.pwr.capUf = cap ∧ t.pwr.capAt = some (now s) ∧ t.pwr.huWeak = decide (cap.toNat < 1800) ∧
        (1800 ≤ cap.toNat → t = { s with pwr := t.pwr }) ∧ onlyChanges [.pwr, .evr, .hp, .keep, .mem] s t)

/-! ## The host port (12 R300 to R323) -/

/-- `RING_ENABLE` (R306): a stopped ring that passes its check becomes active with its pointers 0; one that fails has `ERR` = 3 and stays stopped. The
check in PCI Express mode: 16 to 4,096 entries, a base on 4 KiB, and for a command ring a completion ring. A ring stops (R306, R307): by `RING_DISABLE` with its pointers 0, by a doorbell out of range with `ERR` = 1, `HP_EVT` bit 2 and a host event. A doorbell
in range sets the tail of a command ring, the head of a completion ring, and nothing else; one to a stopped ring is counted. -/
def Obligations.RingsStartAndStop : Prop :=
  (∀ (r : Fin 128) (s : State), hostServed s = true → (vget s.hp.rings r.val).en = false →
    (s.hp.qspi = false → (ringCheck s r.val = true ↔
      4 ≤ (vget s.hp.rings r.val).log2.toNat ∧ (vget s.hp.rings r.val).log2.toNat ≤ 12 ∧ (vget s.hp.rings r.val).base.toNat % 4096 = 0 ∧
      (64 ≤ r.val ∨ 64 ≤ (vget s.hp.rings r.val).cpl.toNat))) ∧
    (ringCheck s r.val = true → exec (.ringEnable r) s = .next { s with hp := { s.hp with
      rings := vmod s.hp.rings r.val fun d => { d with en := true, head := 0, tail := 0, err := 0, inflight := 0, lostBefore := false, sinceIrq := 0 } } }) ∧
    (ringCheck s r.val = false → exec (.ringEnable r) s = .next { s with hp := { s.hp with rings := vmod s.hp.rings r.val fun d => { d with err := 3 } } })) ∧
  (∀ (r : Fin 128) (v : Half) (s : State), hostServed s = true →
    let d := vget s.hp.rings r.val
    (d.en = true → ∃ t, exec (.ringDisable r) s = .next t ∧ RingStopped r.val s t ∧ (vget t.hp.rings r.val).head = 0 ∧ (vget t.hp.rings r.val).tail = 0 ∧
      (vget t.hp.rings r.val).err = 0 ∧ t.hp.events = s.hp.events ∧ t.hp.evt = s.hp.evt) ∧
    (d.en = false → exec (.doorbell r v) s = .next { s with hp := { s.hp with pbe := satUp s.hp.pbe } }) ∧
    (d.en = true → r.val < 64 → (v - d.head).toNat ≤ 2 ^ d.log2.toNat → (v - d.tail).toNat ≤ 2 ^ d.log2.toNat →
      exec (.doorbell r v) s = .next { s with hp := { s.hp with rings := vmod s.hp.rings r.val fun d => { d with tail := v } } }) ∧
    (d.en = true → r.val < 64 → ¬((v - d.head).toNat ≤ 2 ^ d.log2.toNat ∧ (v - d.tail).toNat ≤ 2 ^ d.log2.toNat) →
      ∃ t, exec (.doorbell r v) s = .next t ∧ RingStopped r.val s t ∧ (vget t.hp.rings r.val).err = 1 ∧ t.hp.evt = s.hp.evt ||| BitVec.twoPow 32 2 ∧
        t.hp.events = s.hp.events ++ [{ kind := 0x0003, tbase := now s, data := leBytes 1 r.val ++ leBytes 1 1 }]) ∧
    (d.en = true → 64 ≤ r.val → (d.tail - v).toNat ≤ (d.tail - d.head).toNat →
      exec (.doorbell r v) s = .next { s with hp := { s.hp with rings := vmod s.hp.rings r.val fun d => { d with head := v } } }))

/-- A host-port reset by the pins or by `HRST` in Quad-SPI mode (R316); `HRST` in PCI Express mode does nothing; `PERST#`, D3hot and Bus Master Enable
stop DMA without closing anything, and output buffers that waited for it are written when Bus Master Enable lets it run again (R301, R302, R316).
Where the spec leaves a point open the model's choices hold (notes/assumptions: 46). -/
def Obligations.PortResetsAndPowerStates : Prop :=
  ∀ (p : Bool) (s : State),
    (∃ t u, exec (.hostPortReset p) s = .next { t with hp := u } ∧ PortReset s t ∧
      u = { t.hp with perst := p || s.hp.perst, d3hot := false, busMaster := s.hp.busMaster && !p }) ∧
    (s.hp.qspi = true → s.md.mstate ≠ .off → s.hp.disabled = false → ∃ t, exec .hrst s = .next t ∧ PortReset s t) ∧
    (s.hp.qspi = false → exec .hrst s = .next s) ∧
    exec .d3hotEnter s = .next { s with hp := { s.hp with d3hot := !s.hp.qspi } } ∧
    exec .busMasterDisable s = .next { s with hp := { s.hp with busMaster := false } } ∧
    (let b := { s with hp := { s.hp with busMaster := true } };
      exec .busMasterEnable s = .next (if dmaOn b then { b with hp := { b.hp with mem := s.hp.flushed, outWait := [] } } else b)) ∧
    exec .perstRelease s = .next { s with hp := { s.hp with perst := false } } ∧
    (s.hp.qspi = false → dmaOn { s with hp := { s.hp with busMaster := false } } = false ∧ dmaOn { s with hp := { s.hp with d3hot := true } } = false)

/-- `COMMIT` copies the staging window into the commit buffer, which the next t0 freezes; one on the edge of a t0 belongs to the next freeze; `HP_WDOG_WRITE` restarts the watchdog with its timeout of at most 60,000 ms; its expiry
zeroes the commit buffer, withdraws what pull streams had read, sets `HP_EVT` bit 5 and posts a host event; until the next write to `HP_WDOG` commits
are ignored (R317, R318). A register write of the host (R6, R9, R10): flags written 1 are cleared; a staging cell, the base of a stopped ring and a table entry take their
word; an active ring's base, a read-only and a reserved word take nothing; a write of less than a word is discarded and counted. Each
changes nothing else. In Quad-SPI mode (R303) a write transaction writes word after word, wrapping in its half of 64 KiB; another instruction writes nothing. What BAR0
reads as (R6, R8, R10, R305): its registers, and 0 where it holds none; an unserved port answers nothing.
Where the spec leaves a point open the model's choices hold (notes/assumptions: 106). -/
def Obligations.HostRequestsWatchdogAndRegisters : Prop :=
  (∀ (v : Word) (s : State), hostServed s = true →
    (s.hp.wdogExpired = false → ∃ n, exec .commit s = .next { s with hp := { s.hp with commit := s.hp.stage, commitAt := some (now s),
                                                                                                    commitOld := if s.hp.commitAt = some (now s) then s.hp.commitOld else s.hp.commit, hrqPending := true, hrqShadowed := n } } ∧
      ((∀ i < 32, ¬((vget s.hp.streams i).open_ = true ∧ (vget s.hp.streams i).pull = true)) → n = s.hp.hrqShadowed)) ∧
    (s.hp.wdogExpired = true → exec .commit s = .next s) ∧
    (∀ t0 t, s.hp.wdogExpired = false → exec .commit s = .next t → commitLate { s with cyc := { s.cyc with lastT0 := t0 } } = false →
      (t0 ≤ now s → hrqCells { t with cyc := { t.cyc with lastT0 := t0 } } = hrqCells { s with cyc := { s.cyc with lastT0 := t0 } }) ∧
      (now s < t0 → (∀ i < 32, ¬((vget s.hp.streams i).open_ = true ∧ (vget s.hp.streams i).pull = true)) →
        ∀ i < 256, (0x29C0 + i, vget s.hp.stage i) ∈ hrqCells { t with cyc := { t.cyc with lastT0 := t0 } })) ∧
    (v.toNat % 65536 ≤ 60000 →
      exec (.hpWdogWrite v) s = .next { s with hp := { s.hp with wdogAt := now s, wdogExpired := false, wdog := v.setWidth 16 } }) ∧
    (s.hp.wdog ≠ 0 → s.hp.wdogExpired = false → ∃ t, exec .hostWdogExpire s = .next t ∧
      t.hp.wdogExpired = true ∧ t.hp.commit = Vector.replicate 256 0 ∧ t.hp.hrqPending = false ∧ (∀ i < 32, (vget t.hp.streams i).pulled = none) ∧
      t.hp.evt = s.hp.evt ||| BitVec.twoPow 32 5 ∧ t.hp.rings = s.hp.rings ∧ t.hp.mem = s.hp.mem ∧
      (∃ e, t.hp.events = s.hp.events ++ [e] ∧ e.kind = 0x0007 ∧ e.data = leBytes 2 s.hp.wdog.toNat) ∧ onlyChanges [.hp, .time, .tmr] s t)) ∧
  (∀ (v : Word) (be : BitVec 4) (o : Nat) (i : Fin 256) (r : Fin 128) (s : State), hostServed s = true → s.hp.qspi = false →
    exec (.registerWrite (.bar0 0x10) 15 v) s = .next { s with hp := { s.hp with evt := s.hp.evt &&& ~~~v } } ∧
    (be ≠ 15 ∨ o % 4 ≠ 0 → exec (.registerWrite (.bar0 o) be v) s = .next { s with hp := { s.hp with pbe := satUp s.hp.pbe } } ∧
      exec (.registerWrite (.bar2 o) be v) s = .next { s with hp := { s.hp with pbe := satUp s.hp.pbe } }) ∧
    exec (.registerWrite (.bar0 (0x400 + 4 * i.val)) 15 v) s = .next { s with hp := { s.hp with stage := vset s.hp.stage i.val v } } ∧
    ((vget s.hp.rings r.val).en = false → exec (.registerWrite (.bar0 (0x1000 + 32 * r.val)) 15 v) s =
      .next { s with hp := { s.hp with rings := vmod s.hp.rings r.val fun d => { d with base := d.base.extractLsb' 32 32 ++ v } } }) ∧
    ((vget s.hp.rings r.val).en = true → exec (.registerWrite (.bar0 (0x1000 + 32 * r.val)) 15 v) s = .next s) ∧
    (s.hp.pba = 0 → ∀ k < 64, exec (.registerWrite (.bar2 (16 * k)) 15 v) s =
      .next { s with hp := { s.hp with msix := vmod s.hp.msix k fun e => { e with addrLo := v } } }) ∧
    (s.hp.pba = 0 → exec (.registerWrite .functionMask 15 v) s = .next { s with hp := { s.hp with fmask := v.getLsbD 0 } }) ∧
    exec (.registerWrite (.bar0 0) 15 v) s = .next s ∧ exec (.registerWrite (.bar0 0x8000) 15 v) s = .next s) ∧
  (∀ (op : Byte) (a : Nat) (v w : Word) (ws : List Word) (be : BitVec 4) (i : Fin 256) (s : State), hostServed s = true → s.hp.qspi = true →
    let spi (op : Byte) (a : Nat) (v : Word) (ws : List Word) (be : BitVec 4) (s : State) := exec (.registerWrite (.spi op a ws) be v) s
    (op ≠ 0xB2 ∨ 0x20000 ≤ a → spi op a v ws be s = .next s) ∧
    (a < 0x20000 → a % 4 ≠ 0 ∨ (be ≠ 15 ∧ ws = []) → spi 0xB2 a v ws be s = .next { s with hp := { s.hp with pbe := satUp s.hp.pbe } }) ∧
    spi 0xB2 (0x400 + 4 * i.val) v [] 15 s = .next { s with hp := { s.hp with stage := vset s.hp.stage i.val v } } ∧
    (0x10000 ≤ a → a < 0x20000 → a % 4 = 0 →
      spi 0xB2 a v [] 15 s = .next { s with hp := { s.hp with mem := Mem.writeBytes 0 s.hp.mem (a - 0x10000) (leBytes 4 v.toNat) } }) ∧
    (a < 0x20000 → a % 4 = 0 → ∃ t, spi 0xB2 a v [] 15 s = .next t ∧
      (hostServed t = true → t.hp.qspi = true → spi 0xB2 a v (w :: ws) 15 s = spi 0xB2 (a / 65536 * 65536 + (a + 4) % 65536) w ws 15 t)) ∧
    exec (.registerWrite (.bar0 a) be v) s = .next s ∧ exec (.registerWrite (.bar2 a) be v) s = .next s ∧ exec (.registerWrite .functionMask be v) s = .next s) ∧
  (∀ (a : HostAddr) (i : Fin 256) (r : Fin 128) (j : Fin 32) (s : State),
    let word (o : Nat) : Nat := ((hostRead s (.bar0 o)).map BitVec.toNat).getD 0
    let d := vget s.hp.rings r.val
    (hostServed s = false → hostRead s a = none) ∧
    (hostServed s = true → s.hp.qspi = false →
      word 0x00 = 0x4800 + 65536 * s.hp.rev.toNat ∧ word 0x08 = s.md.mstate.code + 8 * s.md.cause.toNat + 2048 * s.sup.sup.code ∧
      word 0x0C = (if s.hp.ien then 1 else 0) + 2 * s.hp.evtRing.toNat ∧ word 0x10 = s.hp.evt.toNat ∧ word 0x28 = s.hp.pbe.toNat + 65536 * s.hp.dma.toNat ∧
      word (0x400 + 4 * i.val) = (vget s.hp.stage i.val).toNat ∧ word (0x1000 + 32 * r.val + 0x0C) = d.head.toNat ∧ word (0x1000 + 32 * r.val + 0x10) = d.tail.toNat ∧
      word (0x1000 + 32 * r.val + 8) = (if d.en then 1 else 0) + 2 * d.log2.toNat + 32 * d.cpl.toNat + 4096 * d.vec.toNat + 2 ^ 18 * d.coalCnt.toNat + 2 ^ 26 * d.coalT.toNat ∧
      word (0x3000 + 16 * j.val) = (vget s.hp.streams j.val).stat ∧ word (0x3000 + 16 * j.val + 4) = (vget s.hp.streams j.val).sprod.toNat ∧
      ∀ o ∈ [0x14, 0x18, 0x1C, 0x20, 0x24, 0x34, 0x40, 0x800, 0x2200, 0x3200, 0x8000], word o = 0) ∧
    (hostServed s = true → s.hp.qspi = true → ∀ o, o < 0x10000 → o % 4 = 0 → hostRead s (.spi 0xB1 o []) = some (BitVec.ofNat 32 (bar0Read s o))))

/-- A command entry is read and taken (R308, R309, R310, R329): in PCI Express mode the ring's head goes on by one, the round goes on behind the ring, and the command of the
entry's opcode, tag and flags stands taken last with its authority judged; nothing is read while the supervisor does not serve or the completion ring is full, nor from a ring that is
not due in the round. Of the rings with an entry, the lowest one that is left in the round is due, and ring by ring from the lowest again when none is left: some ring is due
whenever one has an entry.
Where the spec leaves a point open the model's choices hold (notes/assumptions: 109). -/
def Obligations.EntriesAreTakenInOrder : Prop :=
  ∀ (r : Fin 64) (e ib : List Byte) (c : Cls) (s : State),
    let d := vget s.hp.rings r.val
    ((∃ k < 64, hasEntry s k = true) → ∃ k < 64, hasEntry s k = true ∧ ringTurn s k = true ∧ ∀ j < 64, hasEntry s j = true → ringTurn s j = true → j = k) ∧
    (∀ k < r.val, s.hp.roundAt ≤ k → hasEntry s k = true → ringTurn s r.val = false) ∧
    (s.sup.sup ≠ .serving ∨ dmaOn s = false ∨ d.en = false ∨ d.head = d.tail ∨ stalled s r.val = true ∨ ringTurn s r.val = false →
      exec (.commandEntryFetch r e ib false false) s = .next s) ∧
    (let q := entryReq r (padTo 64 e) ib false;
      s.sup.sup = .serving → dmaOn s = true → s.hp.qspi = false → d.en = true → d.head ≠ d.tail → stalled s r.val = false → ringTurn s r.val = true →
      baseCls (leAt (padTo 64 e) 0 2) q s = some c →
      (∀ x ∈ s.sup.taken, x.isOf q = false) →
      ∃ t, exec (.commandEntryFetch r e ib false false) s = .next t ∧ t.md = s.md ∧ t.hp.mem = s.hp.mem ∧ t.hp.cpls = s.hp.cpls ∧ t.hp.roundAt = r.val + 1 ∧
        vget t.hp.rings r.val = { d with head := d.head + 1, inflight := d.inflight + 1 } ∧
        t.sup.taken = s.sup.taken ++ [{ src := .ring r, tag := BitVec.ofNat 16 (leAt (padTo 64 e) 2 2), opcode := leAt (padTo 64 e) 0 2, fence := q.flag 2, at_ := now s
                                        refusal := judge (c.sup (raiseOf s (leAt (padTo 64 e) 0 2 / 256))) (leAt (padTo 64 e) 0 2) (.ring r) s, req := some q }] ∧
        onlyChanges [.hp, .sup, .pwr] s t)

/-- A completion is written to its ring when there is room (R307, R311): its bytes in the slot of the tail with the phase of the pass, the tail on by one,
every other byte of host memory as before, but for output buffers that waited for DMA. A coalescing timeout raises the ring's vector (R314). A host event (R312, R313): posted to its ring while that is active and has room, dropped and counted when it is full, but for a change of the module
state, which waits; an event whose ring is not active is gone.
Where the spec leaves a point open the model's choices hold (notes/assumptions: 45). -/
def Obligations.CompletionsAndEventsArePosted : Prop :=
  (∀ (c : Cpl) (s : State), dmaOn s = true → s.hp.cpls.find? (fun c => (vget s.hp.rings c.ring).en && !(vget s.hp.rings c.ring).full) = some c → c.ring < 128 →
    c.restart = false →
    let d := vget s.hp.rings c.ring
    let a := d.base.toNat + 64 * (d.tail.toNat % 2 ^ d.log2.toNat)
    let b := padTo 63 c.body ++ leBytes 1 (1 - d.tail.toNat / 2 ^ d.log2.toNat % 2 + (if c.inbuf then 4 else 0))
    ∃ t, exec (.completionPost false) s = .next t ∧ b.length = 64 ∧ t.hp.mem = Mem.writeBytes 0 s.hp.flushed a b ∧ t.hp.outWait = [] ∧ t.hp.cpls = dropFirst c s.hp.cpls ∧
      (vget t.hp.rings c.ring).tail = d.tail + 1 ∧ (vget t.hp.rings c.ring).head = d.head ∧ (∀ k < 128, k ≠ c.ring → vget t.hp.rings k = vget s.hp.rings k) ∧
      t.hp.events = s.hp.events ∧ onlyChanges [.hp] s t) ∧
  (∀ (e : HEvent) (l : List HEvent) (s : State), dmaOn s = true → s.hp.events = e :: l → (e.ring.getD s.hp.evtRing.toNat) < 128 →
    let r := e.ring.getD s.hp.evtRing.toNat
    let d := vget s.hp.rings r
    (d.en = false → exec .eventPosting s = .next { s with hp := { s.hp with events := l } }) ∧
    (d.en = true → d.full = true → e.kind ≠ 1 → ∃ t, exec .eventPosting s = .next t ∧ t.hp.events = l ∧ t.hp.evtLost = satUp s.hp.evtLost ∧
      t.hp.evt = s.hp.evt ||| BitVec.twoPow 32 4 ∧ (vget t.hp.rings r).lostBefore = true ∧ t.hp.mem = s.hp.mem ∧ onlyChanges [.hp] s t) ∧
    (d.en = true → d.full = true → e.kind = 1 → l = [] → exec .eventPosting s = .next s) ∧
    (d.en = true → d.full = false → ∃ t, exec .eventPosting s = .next t ∧ t.hp.events = l ∧ (vget t.hp.rings r).tail = d.tail + 1 ∧
      (vget t.hp.rings r).lostBefore = false ∧ t.hp.evtLost = s.hp.evtLost ∧
      (∃ b : List Byte, b.length = 64 ∧ leAt b 0 2 = 0xFFFF ∧ leAt b 2 2 = e.kind % 65536 ∧ leAt b 12 8 = e.tbase % 2 ^ 64 ∧
        t.hp.mem = Mem.writeBytes 0 s.hp.mem (d.base.toNat + 64 * (d.tail.toNat % 2 ^ d.log2.toNat)) b) ∧ onlyChanges [.hp] s t)) ∧
  (∀ (k : Fin 64) (s : State), dmaOn s = true →
    let c := vget s.hp.rings (64 + k.val)
    c.en = true → c.sinceIrq ≠ 0 → c.coalT ≠ 0 → c.coalCnt ≠ 0 →
    ∃ t, exec (.interruptCoalesceTimeout k) s = .next t ∧ vget t.hp.rings (64 + k.val) = { c with sinceIrq := 0 } ∧
      (∀ j < 128, j ≠ 64 + k.val → vget t.hp.rings j = vget s.hp.rings j) ∧ t.hp.mem = s.hp.mem ∧ t.hp.cpls = s.hp.cpls ∧ t.hp.events = s.hp.events ∧
      (s.hp.qspi = true → t.hp.irqs = s.hp.irqs + 1 ∧ t.hp.ipend = s.hp.ipend ||| BitVec.twoPow 64 c.vec.toNat ∧ t.hp.lastVec = some c.vec.toNat) ∧
      (s.hp.qspi = false → s.hp.ien = true →
        if s.hp.fmask || (vget s.hp.msix c.vec.toNat).masked then t.hp.pba = s.hp.pba ||| BitVec.twoPow 64 c.vec.toNat ∧ t.hp.irqs = s.hp.irqs
        else t.hp.pba = s.hp.pba ∧ t.hp.irqs = s.hp.irqs + 1 ∧ t.hp.lastVec = some c.vec.toNat) ∧
      onlyChanges [.hp, .time, .tmr] s t)

/-- Streams (R302, R320 to R322): a push record that completes stands in its slot and is counted; a pull record whose sequence words agree is accepted,
one torn is lost and counted; `SCONS` takes a count within the records written; a DMA error counts, and stops its stream or its active ring.
Where the spec leaves a point open the model's choices hold (notes/assumptions: 47). -/
def Obligations.StreamRecords : Prop :=
  ∀ (j : Fin 32) (b : List Byte) (ws : List Word) (v : Word) (s : State),
    let x := vget s.hp.streams j.val
    (dmaOn s = true → x.inFlight = some b → x.sflags.testBit 1 = false → exec (.pushRecordComplete j) s = .next { s with hp := { s.hp with
      mem := Mem.writeBytes 0 s.hp.mem (x.buf + x.size * (x.sprod.toNat % x.nrec)) b, streams := vmod s.hp.streams j.val fun x => { x with inFlight := none, sprod := x.sprod + 1 } } }) ∧
    (x.reading = true → dmaOn s = true → s.hp.qspi = false → s.hp.wdogExpired = false → x.sflags.testBit 1 = false → lget ws 0 0 = lget ws (x.cells.length + 1) 0 →
      exec (.pullRecordRead j ws) s = .next { s with hp := { s.hp with
        streams := vmod s.hp.streams j.val fun y => { y with reading := false, pulled := some ((ws.drop 1).take x.cells.length), sprod := y.sprod + 1 } } }) ∧
    (x.reading = true → dmaOn s = true → s.hp.qspi = false → x.sflags.testBit 2 = false → lget ws 0 0 ≠ lget ws (x.cells.length + 1) 0 →
      exec (.pullRecordRead j ws) s = .next { s with hp := { s.hp with streams := vmod s.hp.streams j.val fun y => { y with reading := false, slost := satUp y.slost } } }) ∧
    (hostServed s = true → x.open_ = true → x.pull = false → (x.sprod - v).toNat ≤ x.nrec →
      exec (.sconsWrite j v) s = .next { s with hp := { s.hp with streams := vmod s.hp.streams j.val fun x => { x with scons := v } } }) ∧
    (x.open_ = true → x.err = false → ∃ t, exec (.dmaError (.stream j)) s = .next t ∧ (vget t.hp.streams j.val).err = true ∧ (vget t.hp.streams j.val).inFlight = none ∧
      (vget t.hp.streams j.val).zeroed = x.pull ∧ t.hp.dma = satUp s.hp.dma ∧ t.hp.evt = s.hp.evt ||| BitVec.twoPow 32 6 ||| BitVec.twoPow 32 3 ∧ (∀ i < 32, i ≠ j.val → vget t.hp.streams i = vget s.hp.streams i) ∧
      t.hp.mem = s.hp.mem ∧ t.hp.rings = s.hp.rings ∧ onlyChanges [.hp] s t) ∧
    (let e := { s with hp := { s.hp with dma := satUp s.hp.dma, aer := if s.hp.qspi then s.hp.aer else satUp s.hp.aer, evt := s.hp.evt ||| BitVec.twoPow 32 6 } };
      exec (.dmaError .buffer) s = .next e ∧
      ∀ r : Fin 128, if (vget s.hp.rings r.val).en then ∃ t, exec (.dmaError (.ring r)) s = .next t ∧ RingStopped r.val e t ∧ (vget t.hp.rings r.val).err = 2
        else exec (.dmaError (.ring r)) s = .next e)

/-! ## Register reads that latch, timer channels (01 R6, R11; 11 R282 to R299) -/

/-- The reads that latch (R11, R85, R281, R285, R456): each answers the low word, latches the high part of the same value, and changes nothing else;
while TCLK is stopped `TBASE` is made up from the SCLK count, and `TMR_STAT.TCLK_RUN` reads 0. `CNT_LO_READ` and `CAP_LO_READ` (R292, R295): the first latches `CNT_HI`, and with the channel's bit of `LINKLATCH` the counts of its cascade slaves into
their `LAT`; the second latches `CAP_HI` and clears `CAPT`; a capture on the edge of the read is stored after it, with `CAPT` and without `OVR`. -/
def Obligations.RegisterReadsLatch : Prop :=
  (∀ (n : Fin 32) (s : State),
    (let t := if s.time.tclkRun then s.time.tbase else (s.time.capTbase - s.time.capPhase + 32 * (s.time.sclk - s.time.capSclk)) % 2 ^ 64;
      exec .tbaseLoRead s = .next { s with rdata := [BitVec.ofNat 32 t], time := { s.time with tbaseHiLatched := BitVec.ofNat 32 (t / 2 ^ 32) } }) ∧
    (readReg 0x08 0x004 s).1 % 2 = (if s.time.tclkRun then 1 else 0) ∧
    exec .cycNumLoRead s = .next { s with rdata := [BitVec.ofNat 32 s.cyc.num], cyc := { s.cyc with numHiLatched := BitVec.ofNat 32 (s.cyc.num / 2 ^ 32) } } ∧
    (∀ c, c = vget s.tmr.chans n.val →
      exec (.intActLoRead n) s = .next { s with rdata := [c.act.setWidth 32], tmr := { s.tmr with
        chans := vset s.tmr.chans n.val { c with actHi := c.act.extractLsb' 32 16 } } }) ∧
    exec .laneMisRead s = .next { s with
      rdata := [BitVec.ofNat 32 (s.lane.misPl + 8 * s.lane.misLl + (if s.lane.misRerun then 64 else 0) + 256 * s.lane.misField)]
      lane := { s.lane with misLocLatched := BitVec.ofNat 32 (s.lane.misBlock + 16384 * s.lane.misNode) } } ∧
    (∃ w, exec .memLastRead s = .next { s with rdata := [w], mem := { s.mem with lastAddrLatched := s.mem.lastAddr } } ∧ w.toNat % 256 = s.mem.lastInst % 256) ∧
    (0 ≤ s.xl.ofs → s.xl.ofs < 2 ^ 63 → exec .xlOfsLoRead s = .next { s with
      rdata := [BitVec.ofNat 32 s.xl.ofs.toNat], xl := { s.xl with ofsHiLatched := BitVec.ofNat 32 (s.xl.ofs.toNat / 2 ^ 32) } })) ∧
  (∀ (n : Fin 32) (s : State) (c : Chan), c = vget s.tmr.chans n.val →
    (s.tmr.link.getLsbD n.val = false → exec (.cntLoRead n) s = .next { s with rdata := [c.cnt.setWidth 32], tmr := { s.tmr with
      chans := vset s.tmr.chans n.val { c with cntHi := c.cnt.extractLsb' 32 16 } } }) ∧
    (s.tmr.link.getLsbD n.val = true → ∃ t, exec (.cntLoRead n) s = .next t ∧ t.rdata = [c.cnt.setWidth 32] ∧ (vget t.tmr.chans n.val).cntHi = c.cnt.extractLsb' 32 16 ∧
      (∀ k < 32, k ≠ n.val → vget t.tmr.chans k = if k ∈ cascadeOf s.tmr.chans n.val then { vget s.tmr.chans k with lat := (vget s.tmr.chans k).cnt } else vget s.tmr.chans k) ∧
      t = { s with rdata := t.rdata, tmr := { s.tmr with chans := t.tmr.chans } }) ∧
    exec (.capLoRead n false) s = .next { s with rdata := [c.cap.setWidth 32], tmr := { s.tmr with
      chans := vset s.tmr.chans n.val { c with capHi := c.cap.extractLsb' 32 16, capt := false } } } ∧
    (s.time.tclkRun = false → exec (.capLoRead n true) s = exec (.capLoRead n false) s) ∧
    (s.time.tclkRun = true → ∃ t, exec (.capLoRead n true) s = .next t ∧ t.rdata = [c.cap.setWidth 32] ∧ t.time.tbase = (s.time.tbase + 1) % 2 ^ 64 ∧
      (let d := vget t.tmr.chans n.val;
        d.capHi = c.cap.extractLsb' 32 16 ∧ (c.capsrc ≠ 0 → d.capt = true ∧ d.ovr = c.ovr ∧ d.accCapt = true ∧ (c.smode ≠ 2 → d.cap = d.cnt))) ∧
      onlyChanges [.rdata, .tmr, .time] s t))

/-- The writes of a free channel (R286, R289 to R291): each takes the next TCLK edge, lands after the match of that edge, and touches no
block but the channels and the time; while TCLK is stopped no time passes and the write waits for the edge that starts it again. The writes of an owned channel (R16, R288, R358): without a configuration session they do nothing; with one they are staged into it and take no
effect before its commit.
Where the spec leaves a point open the model's choices hold (notes/assumptions: 67). -/
def Obligations.ChannelWrites : Prop :=
  (∀ (n : Fin 32) (v : Word) (s : State), (vget s.tmr.chans n.val).own = false →
    let at_ (t : State) : Chan := vget t.tmr.chans n.val
    let cmp := (at_ s).cmpHi.getD ((at_ s).cmp.extractLsb' 32 16) ++ v
    let pre := (at_ s).preHi.getD ((at_ s).pre.extractLsb' 32 16) ++ v
    (s.time.tclkRun = true →
      let frame (t : State) : Prop := onlyChanges [.tmr, .time] s t ∧ t.tmr.link = s.tmr.link ∧ t.tmr.wait = s.tmr.wait ∧ t.time.tbase = (s.time.tbase + 1) % 2 ^ 64
      (∃ t, exec (.arm n) s = .next t ∧ (at_ t).arm = true ∧ frame t) ∧
      (∃ t, exec (.disarm n) s = .next t ∧ (at_ t).arm = false ∧ frame t) ∧
      (∃ t, exec (.cntClr n) s = .next t ∧ (at_ t).cnt = 0 ∧ frame t) ∧
      (∃ t, exec (.intNow n) s = .next t ∧ (at_ t).act = (at_ s).pre ∧ (at_ t).pre = (at_ s).pre ∧ frame t) ∧
      (∃ t, exec (.cmpLoWrite n v) s = .next t ∧ (at_ t).cmp = cmp ∧ (at_ t).cmpHi = none ∧ frame t) ∧
      (∃ t, exec (.intPreLoWrite n v) s = .next t ∧ (at_ t).pre = pre ∧ (at_ t).preHi = none ∧ frame t)) ∧
    (s.time.tclkRun = false →
      let waits (o : ChOp) (c : Chan) : State := { s with tmr := { s.tmr with wait := s.tmr.wait ++ [(n.val, o)], chans := vset s.tmr.chans n.val c } }
      exec (.arm n) s = .next (waits .arm (at_ s)) ∧ exec (.disarm n) s = .next (waits .disarm (at_ s)) ∧ exec (.cntClr n) s = .next (waits .clear (at_ s)) ∧
      exec (.intNow n) s = .next (waits .intNow (at_ s)) ∧ exec (.cmpLoWrite n v) s = .next (waits (.cmp cmp) { at_ s with cmpHi := none }) ∧
      exec (.intPreLoWrite n v) s = .next (waits (.pre pre) { at_ s with preHi := none }))) ∧
  (∀ (n : Fin 32) (v : Word) (s : State), (vget s.tmr.chans n.val).own = true →
    (s.sess.owner = none → exec (.arm n) s = .next s ∧ exec (.disarm n) s = .next s ∧ exec (.cntClr n) s = .next s ∧ exec (.intNow n) s = .next s ∧
      exec (.cmpLoWrite n v) s = .next s ∧ exec (.intPreLoWrite n v) s = .next s) ∧
    (s.sess.owner ≠ none →
      exec (.arm n) s = .next (stageTmr (0x100 + 0x40 * n.val + 0x3C) 1 s) ∧ exec (.disarm n) s = .next (stageTmr (0x100 + 0x40 * n.val + 0x3C) 2 s) ∧
      exec (.cntClr n) s = .next (stageTmr (0x100 + 0x40 * n.val + 0x3C) 4 s) ∧ exec (.intNow n) s = .next (stageTmr (0x100 + 0x40 * n.val + 0x3C) 8 s) ∧
      exec (.cmpLoWrite n v) s = .next (stageTmr (0x100 + 0x40 * n.val + 0x10) v s) ∧
      exec (.intPreLoWrite n v) s = .next (stageTmr (0x100 + 0x40 * n.val + 0x18) v s)))

/-- A channel that counts TCLK (R286, R289, R292): its next match comes after as many ticks as `CMP` lies ahead, sets `MATCH`, toggles `OUT`, counts in
`MCNT`, and reloads the interval and the compare; its wrap comes at 2^48 with `CARRY`; a capture event on the next edge copies its count. -/
def Obligations.ChannelsMatchWrapAndCapture : Prop :=
  ∀ (n : Fin 32) (s : State), s.time.tclkRun = true →
    let c := vget s.tmr.chans n.val
    let at_ (t : State) : Chan := vget t.tmr.chans n.val
    c.clk = 0 → c.smode = 0 → c.en = true →
    (c.arm = true → c.passed = false → c.pre.toNat < 2 ^ 47 →
      ∃ t, exec (.tmrMatch n) s = .next t ∧ t.time.tbase = (s.time.tbase + (c.cmp - c.cnt).toNat) % 2 ^ 64 ∧ (at_ t).match_ = true ∧ (at_ t).out = !c.out ∧
        (at_ t).mcnt = c.mcnt + 1 ∧ (at_ t).cnt = c.cmp ∧ (at_ t).act = c.pre ∧ (at_ t).cmp = c.cmp + c.pre ∧ (at_ t).arm = (c.pre != 0) ∧ onlyChanges [.tmr, .time] s t) ∧
    (c.arm = false → ∃ t, exec (.tmrWrap n) s = .next t ∧ t.time.tbase = (s.time.tbase + (2 ^ 48 - c.cnt.toNat)) % 2 ^ 64 ∧ (at_ t).cnt = 0 ∧ (at_ t).carry = true ∧
      onlyChanges [.tmr, .time] s t) ∧
    (c.capsrc ≠ 0 → ∃ t, exec (.tmrCapture n) s = .next t ∧ t.time.tbase = (s.time.tbase + 1) % 2 ^ 64 ∧ (at_ t).cap = c.cnt + 1 ∧ (at_ t).capt = true ∧
      (at_ t).ovr = (c.ovr || c.capt) ∧ onlyChanges [.tmr, .time] s t)

/-! ## The safety cycle (02 R27 to R46, R540; 03 R53 to R85) -/

/-- `FREEZE` (R28, R33, R102): with the last cycle ended and TCLK running, a new cycle begins at its t0: its number is one more, its period lies between
its t0 and the next, it is open for a commit, and the image latched holds its number and its t0. `COMMIT_POINT` (R36, R46): the open cycle is committed and its P3 is due; its number and its t0 stay, one committed cycle is
counted. `P3_END` ends it. A command of a phase that is not due changes nothing.
Where the spec leaves a point open the model's choices hold (notes/assumptions: 2, 34). -/
def Obligations.CyclesBeginAndCommit : Prop :=
  (∀ (d : Int) (stop : Bool) (s : State), cyclesRun s = true → s.cyc.open_ = false → s.cyc.p3Due = false → s.time.tclkRun = true →
    ∃ t, exec (.freeze d stop) s = .next t ∧ t.cyc.num = s.cyc.num + 1 ∧ t.cyc.lastT0 = s.cyc.nextT0 ∧ t.cyc.nextT0 = s.cyc.nextT0 + periodTicks t.cyc.period ∧
      t.cyc.open_ = true ∧ Mem.read (inputDflt 0x2982) t.cyc.input 0x2982 = BitVec.ofNat 32 t.cyc.num ∧
      Mem.read (inputDflt 0x2980) t.cyc.input 0x2980 = BitVec.ofNat 32 s.cyc.nextT0 ∧ t.fuse = s.fuse ∧ t.log = s.log) ∧
  (∀ (late : List (Fin 5)) (msg : Option GuardMsg) (finds : List PoolFind) (s : State),
    (cyclesRun s = true → s.cyc.open_ = true → ∃ t, exec (.commitPoint late msg) s = .next t ∧ t.cyc.open_ = false ∧ t.cyc.p3Due = true ∧
      t.cyc.num = s.cyc.num ∧ t.cyc.lastT0 = s.cyc.lastT0 ∧ t.cyc.nextT0 = s.cyc.nextT0 ∧ t.md.committedCycles = s.md.committedCycles + 1 ∧
      t.cyc.input = s.cyc.input ∧ t.image = s.image ∧ t.log = s.log) ∧
    (s.cyc.open_ = false → exec (.commitPoint late msg) s = .next s) ∧
    (cyclesRun s = true → s.cyc.p3Due = true → ∃ t, exec (.p3End finds) s = .next t ∧ t.cyc.p3Due = false ∧ t.cyc.num = s.cyc.num ∧ t.cyc.nextT0 = s.cyc.nextT0 ∧
      ((laneIn s .prism).isNone = true → t.cyc.committed = s.cyc.committed) ∧ t.log = s.log ∧ t.fuse = s.fuse) ∧
    (s.cyc.p3Due = false → exec (.p3End finds) s = .next s))

/-- In `SAFE_HOLD` every owned output point is committed 0 at the commit point, whatever the logical lanes evaluate (R24, R539): over states whose
memories are in canonical form, with no cell waiting to lose its owner and no lane in Prism mode. -/
def Obligations.SafeHoldCommitsOutputsZero : Prop :=
  ∀ (late : List (Fin 5)) (msg : Option GuardMsg) (s t : State), exec (.commitPoint late msg) s = .next t → cyclesRun s = true → s.cyc.open_ = true →
    s.md.mstate = .safeHold → s.canon → s.lane.orphan = [] → laneIn s .prism = none →
    ∀ e ∈ (s.image.getD {}).own, e.owner < 4 → isOutPoint e.cell = true → Mem.read 0 t.cyc.committed e.cell = 0

/-- Runs (R31, R35, R36, R70): a run that ends without a mismatch is agreed, with what it wrote, whatever corrected findings its reads made (R61 to R66); a mismatch, told or shown by the run itself, in a first run starts the rerun and counts, one in a
rerun leaves no agreed result; what the mismatch was stands in the mismatch registers. Committed outputs do not change. `LANE_WAKE` with every comparator flagging its sentinel confirms every lane in use (R30, R67), and changes nothing else of the lanes; `CHECKER_ERROR` marks the comparator
fault, and the first run of the lane has no agreed result (R69).
Where the spec leaves a point open the model's choices hold (notes/assumptions: 44). -/
def Obligations.RunsOfLogicalLanes : Prop :=
  (∀ (j : Fin 5) (l : List Hit) (m : Mis) (k : Nat) (s : State), (llOf s j.val).lane = some k →
    ((llOf s j.val).st = .first ∨ (llOf s j.val).st = .rerun → (llRun s l j.val).mis = none →
      ∃ t, exec (.runComplete j l) s = .next t ∧ (llOf t j.val).st = .agreed ∧ (llOf t j.val).run = llRun s l j.val ∧
        (∀ i < 5, i ≠ j.val → llOf t i = llOf s i) ∧ (∀ i < 5, i ≠ k → laneOf t i = laneOf s i) ∧ t.lane = { s.lane with lls := t.lane.lls, lanes := t.lane.lanes, evt := t.lane.evt } ∧
        onlyChanges [.lane, .evr, .hp, .keep, .mem] s t ∧ (l = [] → t.lane.evt = s.lane.evt ∧ onlyChanges [.lane] s t)) ∧
    (∀ m, (llRun s l j.val).mis = some m →
      ((llOf s j.val).st = .first → ∃ t, exec (.runComplete j l) s = .next t ∧ (llOf t j.val).st = .rerun ∧ (llOf t j.val).mis1 = some m ∧ t.cyc.committed = s.cyc.committed ∧
        onlyChanges [.lane, .cyc, .evr, .hp, .keep, .mem] s t) ∧
      ((llOf s j.val).st = .rerun → ∃ t, exec (.runComplete j l) s = .next t ∧ (llOf t j.val).st = .failed 0 ∧ (llOf t j.val).mis2 = some m ∧
        onlyChanges [.lane, .evr, .hp, .keep, .mem] s t)) ∧
    ((llOf s j.val).st = .first → ∃ t, exec (.laneMismatch j m) s = .next t ∧ (llOf t j.val).st = .rerun ∧ (llOf t j.val).mis1 = some m ∧
      t.cyc.rerunCnt = satUp s.cyc.rerunCnt ∧ t.cyc.evt = s.cyc.evt ||| BitVec.twoPow 32 0 ∧ t.lane.misPl = k ∧ t.lane.misLl = j.val ∧ t.lane.misRerun = false ∧
      t.lane.misBlock = m.block % 16384 ∧ t.cyc.committed = s.cyc.committed ∧ onlyChanges [.lane, .cyc, .evr, .hp, .keep, .mem] s t) ∧
    ((llOf s j.val).st = .rerun → ∃ t, exec (.laneMismatch j m) s = .next t ∧ (llOf t j.val).st = .failed 0 ∧ (llOf t j.val).mis2 = some m ∧
      t.lane.misRerun = true ∧ onlyChanges [.lane] s t) ∧
    ((llOf s j.val).st = .agreed → exec (.laneMismatch j m) s = .next s)) ∧
  (∀ (k : Fin 5) (bit : Fin 89) (s : State),
    (s.cyc.running = true → s.pwr.lclkLock = true → ∃ t, exec (.laneWake []) s = .next t ∧ onlyChanges [.lane, .time, .tmr] s t ∧
      t.lane = { s.lane with sentOk := t.lane.sentOk } ∧
      ∀ i < 5, t.lane.sentOk.getLsbD i = (decide ((laneOf s i).role ∈ [.spare, .safety, .observer, .prism]) || s.lane.sentOk.getLsbD i)) ∧
    (∀ i < 5, (laneOf s k.val).role = .safety → (laneOf s k.val).hosts = some i → s.cyc.open_ = true → (llOf s i).st = .first →
      ∃ t, exec (.checkerError k bit) s = .next t ∧ (laneOf t k.val).cmpFault = true ∧ (llOf t i).st = .failed 1 ∧ t.lane.evt = s.lane.evt ||| BitVec.twoPow 32 5 ∧
        (∀ j < 5, j ≠ i → llOf t j = llOf s j) ∧ onlyChanges [.lane, .evr, .hp, .keep, .mem] s t))

/-- The output guard trips (R43, R45): with no acceptable message in time both masters open with cause 1 latched, the trip is counted, and the guard
resynchronises. While the module state holds the masters open there is no trip (R540). The guard closes the master of a group without a latched cause once it has accepted two messages in a row and the module state permits it, and no other (R44, R197,
R481). -/
def Obligations.OutputGuard : Prop :=
  (∀ s : State, s.cyc.guard.resync = false →
    (masterHeld s = false → ∃ t, exec .guardTimeout s = .next t ∧ mastersOpen t = true ∧ (∀ g < 2, 1 ∈ (vget t.out.grps g).latches) ∧
      t.cyc.guardCnt = satUp s.cyc.guardCnt ∧ t.cyc.guard.resync = true ∧ t.cyc.guardOk = false ∧
      t.cyc.committed = s.cyc.committed ∧ onlyChanges [.cyc, .evr, .hp, .keep, .mem, .out, .time, .tmr] s t) ∧
    (masterHeld s = true → ∃ t, exec .guardTimeout s = .next t ∧ t.out = s.out ∧ t.cyc.guardCnt = s.cyc.guardCnt ∧ t.cyc.guard.resync = true ∧
      t.cyc.guardOk = false ∧ onlyChanges [.cyc, .time, .tmr] s t)) ∧
  (∀ (g : Fin 2) (s : State),
    (masterHeld s = true ∨ s.cyc.guard.run < 2 → ∀ j < 2, (vget (closeMasters s).out.grps j).master = (vget s.out.grps j).master) ∧
    ((vget s.out.grps g.val).latches ≠ [] → (vget (closeMasters s).out.grps g.val).master = (vget s.out.grps g.val).master) ∧
    (masterHeld s = false → 2 ≤ s.cyc.guard.run → (vget s.out.grps g.val).latches = [] → (vget (closeMasters s).out.grps g.val).master = true))

/-- Lanes under test and in observer duty (R75, R76, R78, R80, R82, R443, R487): a passed BIST makes its lane `SPARE`, but `RETIRED` with its second fault in 720 h, a failed one `RETIRED` in the keeper's state too, at shut-down as well. A lane that has received microcode shows
its version once it has passed with it; one that fails on a new version is loaded again with the one it has, and is retired when it fails on that too. `LANE_ROTATION_DUE`
makes a rotation due; `OBSERVER_TIMEOUT` ends observer duty for a rotation that is due.
Where the spec leaves a point open the model's choices hold (notes/assumptions: 42, 85). -/
def Obligations.LaneTestsAndRotation : Prop :=
  ∀ (k : Fin 5) (step : Fin 3) (s : State),
    ((laneOf s k.val).role ≠ .bist → (laneOf s k.val).role ≠ .ucodeLoad → s.md.mstate ≠ .shuttingDown → exec (.laneBistDone k true step) s = .next s ∧ exec (.laneBistDone k false step) s = .next s) ∧
    (s.md.mstate = .shuttingDown → s.md.shutBist = true → (laneOf s k.val).role ≠ .retired → ∀ p, ∃ t, exec (.laneBistDone k p step) s = .next t ∧
      vget t.md.shutLanes k.val = (if p then .pass else .fail) ∧ (laneOf t k.val).bistRes = (if p then 1 else 2) ∧
      (p = false → (laneOf t k.val).role = .retired ∧ vget t.keep.retLanes k.val = true) ∧ (∀ j < 5, j ≠ k.val → laneOf t j = laneOf s j) ∧ onlyChanges [.md, .lane, .evr, .hp, .keep, .mem] s t) ∧
    (2 ≤ laneFaults s k.val → s.md.mstate ≠ .shuttingDown → (laneOf s k.val).role = .bist → (laneOf s k.val).newUcode = none →
      ∃ t, exec (.laneBistDone k true step) s = .next t ∧ (laneOf t k.val).role = .retired ∧ (laneOf t k.val).bistRes = 1 ∧ vget t.keep.retLanes k.val = true ∧
        (∀ j < 5, j ≠ k.val → laneOf t j = laneOf s j) ∧ onlyChanges [.lane, .evr, .hp, .keep, .md, .mem] s t) ∧
    (s.md.mstate ≠ .shuttingDown → (laneOf s k.val).role = .bist → (laneOf s k.val).newUcode = none →
      (laneFaults s k.val < 2 → ∃ t, exec (.laneBistDone k true step) s = .next t ∧ t = { s with lane := { s.lane with lanes := vmod s.lane.lanes k.val fun l =>
        { l with role := .spare, hosts := none, bistRes := 1, suspect := false, lastBist := some (now s) } } }) ∧
      (∃ t, exec (.laneBistDone k false step) s = .next t ∧ (laneOf t k.val).role = .retired ∧ (laneOf t k.val).bistRes = 2 ∧ vget t.keep.retLanes k.val = true ∧
        (∀ j < 5, j ≠ k.val → laneOf t j = laneOf s j) ∧ t.cyc = s.cyc ∧ onlyChanges [.lane, .evr, .hp, .keep, .md, .mem] s t)) ∧
    (∀ v, s.md.mstate ≠ .shuttingDown → (laneOf s k.val).role = .bist ∨ (laneOf s k.val).role = .ucodeLoad → (laneOf s k.val).newUcode = some v →
      (laneFaults s k.val < 2 → ∃ t, exec (.laneBistDone k true step) s = .next t ∧ (laneOf t k.val).role = .spare ∧ (laneOf t k.val).ucodeVer = v ∧ (laneOf t k.val).newUcode = none ∧
        (laneOf t k.val).bistRes = 1 ∧ ((laneOf s k.val).reload = true → t.lane.roll = none ∧ t.keep.targetUcode = v) ∧
        (∀ j < 5, j ≠ k.val → laneOf t j = laneOf s j) ∧ onlyChanges [.lane, .evr, .hp, .keep, .mem] s t) ∧
      ((laneOf s k.val).reload = false → ∃ t, exec (.laneBistDone k false step) s = .next t ∧ (laneOf t k.val).role = .ucodeLoad ∧
        (laneOf t k.val).newUcode = some (laneOf s k.val).ucodeVer ∧ (laneOf t k.val).reload = true ∧ (laneOf t k.val).ucodeVer = (laneOf s k.val).ucodeVer ∧
        (∀ j < 5, j ≠ k.val → laneOf t j = laneOf s j) ∧ onlyChanges [.lane, .evr, .hp, .keep, .mem] s t) ∧
      ((laneOf s k.val).reload = true → ∃ t, exec (.laneBistDone k false step) s = .next t ∧ (laneOf t k.val).role = .retired ∧ vget t.keep.retLanes k.val = true ∧
        (∀ j < 5, j ≠ k.val → laneOf t j = laneOf s j) ∧ onlyChanges [.lane, .evr, .hp, .keep, .md, .mem] s t)) ∧
    (s.lane.rotPeriodH ≠ 0 → s.time.tclkRun = true → s.lane.rotSince + hourTicks s.lane.rotPeriodH.toNat < 2 ^ 64 →
      ∃ t, exec .laneRotationDue s = .next t ∧ t.lane = { s.lane with rotDue := true } ∧ onlyChanges [.lane, .time, .tmr] s t) ∧
    (∀ j, (llOf s 4).lane = some j → j < 5 → s.lane.qual.state = 1 → s.lane.rotDue = true →
      ∃ t, exec .observerTimeout s = .next t ∧ (llOf t 4).lane = none ∧ (laneOf t j).role = .spare ∧ (laneOf t j).hosts = none ∧ t.lane.qual.state = 3 ∧
        t.lane.qual.endReason = 3 ∧ t.cyc = s.cyc ∧ onlyChanges [.lane, .evr, .hp, .keep, .mem, .time, .tmr] s t)

/-- Sleep and wake in `QUIET` (R297, R298, R468, R469): `QUIET_WAKE` starts the clocks; at the restart `TBASE` is made up from the SCLK ticks slept, and the writes that waited for the edge are done (R288);
`EARLIER_WAKE` restarts TCLK for a compare that is due. No t0 is passed here.
Where the spec leaves a point open the model's choices hold (notes/assumptions: 2). -/
def Obligations.QuietWakeAndRestart : Prop :=
  ∀ (pll : Byte) (wait : Half) (s : State),
    (s.md.mstate = .quiet → s.pwr.lclkLock = false → s.cyc.running = true → s.pwr.xoOk = true → pll.toNat ≤ 127 →
      ∃ t, exec (.quietWake pll) s = .next t ∧ t.pwr = { s.pwr with pllTk := pll, lclkLock := true } ∧ (s.time.tclkRun = false → t.time.fllAt = some t.time.sclk) ∧
        onlyChanges [.pwr, .time, .tmr] s t) ∧
    (∀ f, s.time.tclkRun = false → s.time.fllAt = some f → s.time.phase ≤ 31 →
      (let new := s.time.capTbase - s.time.capPhase + 32 * (s.time.sclk + wait.toNat + 1 - s.time.capSclk);
        new % 2 ^ 64 < s.cyc.nextT0 →
        ∃ t, exec (.tclkRestart wait) s = .next t ∧ t.time.tclkRun = true ∧ t.time.fllLock = true ∧ t.time.tbase = new % 2 ^ 64 ∧ t.time.phase = 0 ∧
          t.time.sclk = s.time.sclk + wait.toNat + 1 ∧ t.tmr.wait = [] ∧ t.pwr.asleep = false ∧ onlyChanges [.pwr, .time, .tmr] s t)) ∧
    (∀ d, s.time.tclkRun = false → s.time.phase ≤ 31 → s.md.mstate = .quiet → nextWake s = some d → max (now s) (s.time.capTbase + d) + 1000 < s.cyc.nextT0 →
      ∃ t, exec .earlierWake s = .next t ∧ t.time.tclkRun = true ∧ onlyChanges [.pwr, .time, .tmr] s t)

/-- Clock faults (R13, R39, R284, R466, R467): between cycles a lost LCLK lock is counted and held until relock, a TCLK fault makes the next cycle slip; a lost
25 MHz oscillator stops every PLL, halts the supervisor and drops the rings' links, and its restart brings the PLLs back and the supervisor to a restart; a lost
SCLK leads to `FAULT` 0x24.
Where the spec leaves a point open the model's choices hold (notes/assumptions: 58). -/
def Obligations.ClockFaults : Prop :=
  ∀ (d : Int) (s : State),
    (s.cyc.open_ = false → s.pwr.lclkLock = true → exec (.lclkUnlock false) s = .next { s with
      pwr := { s.pwr with lclkLock := false, lclk := satUp s.pwr.lclk, evt := s.pwr.evt ||| BitVec.twoPow 32 7 } }) ∧
    (s.pwr.xoOk = true → s.md.mstate ≠ .fault → exec (.lclkUnlock true) s = .next { s with pwr := { s.pwr with lclkLock := true } }) ∧
    (s.time.tclkRun = true → s.cyc.open_ = false → ∃ t, exec (.fllUnlock d) s = .next t ∧ t.time = { s.time with slipNext := true } ∧
      t.tmr = { s.tmr with evt := s.tmr.evt ||| 3#32 } ∧ onlyChanges [.time, .tmr, .evr, .hp, .keep, .mem] s t) ∧
    (s.pwr.xoOk = true → ∃ t, exec .xoFail s = .next t ∧ t.pwr.xoOk = false ∧ t.pwr.lclkLock = false ∧ t.pwr.supLock = false ∧ t.pwr.phyLock = false ∧
      t.pwr.xo = satUp s.pwr.xo ∧ t.pwr.evt = s.pwr.evt ||| BitVec.twoPow 32 6 ∧ t.sup.sup = .halted ∧ (∀ p < 4, (vget t.ring.ports p).link = false) ∧
      t.cyc.committed = s.cyc.committed ∧ onlyChanges [.cyc, .evr, .hp, .keep, .lane, .mem, .pwr, .ring, .sess, .sup] s t) ∧
    (s.pwr.xoOk = false → corePowered s = true → s.sup.sup = .halted → ∃ t, exec (.xoRestart true) s = .next t ∧ t.pwr.xoOk = true ∧ t.pwr.supLock = true ∧
      t.pwr.phyLock = true ∧ t.sup = { s.sup with sup := .restarting } ∧ onlyChanges [.evr, .hp, .keep, .mem, .pwr, .sup] s t) ∧
    (s.md.mstate = .starting ∨ s.md.mstate = .run ∨ s.md.mstate = .quiet ∨ s.md.mstate = .safeHold → ∃ t, exec .sclkFault s = .next t ∧ FaultEntered 0x24 s t ∧
      t.pwr.goscOk = false)

/-- The supervisor's states (R14, R315, R422, R441, R470): it stops while the data path goes on, and what it had staged is lost; a stop and a start are
told by `HP_EVT` bit 1 and a host event; when it serves again nothing is left taken; a new bank that does not serve in time is left for the old one;
its clock stops in `QUIET` without work and starts on a request; a lost lock halts it until relock.
Where the spec leaves a point open the model's choices hold (notes/assumptions: 31, 32). -/
def Obligations.SupervisorStates : Prop :=
  ∀ (k : StopKind) (s : State),
    (s.sup.sup = .serving → ∃ t, exec (.supervisorStop k) s = .next t ∧ t.sup = { s.sup with sup := k.state } ∧ t.sess.cfg = none ∧ t.sess.cal = none ∧
      t.sess.params = [] ∧ t.sess.owner = s.sess.owner ∧ t.evr.cursors = Vector.replicate 8 none ∧ t.hp.evt.getLsbD 1 = true ∧ t.hp.cpls = s.hp.cpls ∧
      t.hp.rings = s.hp.rings ∧ t.hp.streams = s.hp.streams ∧ onlyChanges [.evr, .hp, .keep, .mem, .sess, .sup] s t) ∧
    (s.sup.sup ≠ .serving → supRuns s = true → ∃ t, exec .supervisorServing s = .next t ∧ t.sup.sup = .serving ∧ t.sup.taken = [] ∧ t.sup.committed = [] ∧
      t.sup.switchDue = none ∧ t.hp.evt.getLsbD 1 = true ∧ t.cyc.committed = s.cyc.committed ∧ onlyChanges [.cyc, .evr, .hp, .keep, .mem, .nv, .sess, .sup] s t) ∧
    (∀ d, s.sup.switchDue = some d → ∃ t, exec .supSwitchTimeout s = .next t ∧ t.sup = { s.sup with
      sup := .restarting, bank := !s.sup.bank, prefer := !s.sup.bank, switchDue := none, switchFailed := true, otherChecked := false } ∧
      onlyChanges [.evr, .hp, .keep, .mem, .sup, .time, .tmr] s t) ∧
    (s.md.mstate = .quiet → s.sup.sup = .serving → s.sup.taken = [] → s.pwr.supLock = true →
      exec .supPllIdleStop s = .next { s with pwr := { s.pwr with supPllOff := true, supLock := false } }) ∧
    (s.pwr.supPllOff = true → exec .supPllWake s = .next { s with pwr := { s.pwr with supPllOff := false, supLock := s.pwr.xoOk } }) ∧
    (s.pwr.supLock = true → ∃ t, exec (.supUnlock false) s = .next t ∧ t.sup = { s.sup with sup := .halted } ∧
      t.pwr = { s.pwr with supLock := false, evt := s.pwr.evt ||| BitVec.twoPow 32 8 } ∧ onlyChanges [.evr, .hp, .keep, .mem, .pwr, .sess, .sup] s t) ∧
    (s.pwr.supLock = false → s.pwr.xoOk = true → s.sup.sup = .halted → ∃ t, exec (.supUnlock true) s = .next t ∧ t.sup = { s.sup with sup := .restarting } ∧
      t.pwr = { s.pwr with supLock := true, supPllOff := false } ∧ onlyChanges [.evr, .hp, .keep, .mem, .pwr, .sup] s t)

/-! ## Motion monitors, inputs, outputs (06 R143 to R169; 07 R170 to R193; 08 R194 to R218; 19 R463, R464) -/

/-- Motion units (R148, R160, R162, R163): `MM_SAMPLE` samples every monitor in use and gives one that is not in use its fixed words; with the units' two computations equal no hand-over is asked for, a mismatch
that the repeat does not show is told and the sample counts, one that it shows asks for the hand-over; a due rotation starts a shadow of the
unit tested longest ago, which computes from what the monitor is seeded with; a passed BIST makes its unit `SPARE`, but `RETIRED` with its second fault in 720 h; a failed one retires it in the keeper's state too, at shut-down as well.
Where the spec leaves a point open the model's choices hold (notes/assumptions: 6, 65, 93). -/
def Obligations.MonitorSamplesAndUnits : Prop :=
  ∀ (u : Fin 18) (n : Fin 16) (l : List UnitFault) (f : UnitFault) (s : State),
    (∃ t, exec (.mmSample l) s = .next t ∧ t.free = s.free + 32 ∧ t.mm.units = s.mm.units ∧
      ((vget s.mm.mons n.val).used = false → (vget t.mm.mons n.val).res = List.replicate 24 0 ++ [0x1F01#32]) ∧
      ((vget s.mm.mons n.val).used = true → (vget t.mm.mons n.val).res.length = 25 ∧ (vget t.mm.mons n.val).unit = (vget s.mm.mons n.val).unit ∧
        (vget t.mm.mons n.val).used = true ∧ (l = [] → (vget t.mm.mons n.val).handReq = false)) ∧
      onlyChanges [.mm, .free, .evr, .hp, .keep, .md, .mem, .time, .tmr] s t) ∧
    ((vget s.mm.mons n.val).used = true → (vget s.mm.mons n.val).unit = some f.unit.val → f.word < 25 → f.first ≠ 0 →
      ∃ t, exec (.mmSample [f]) s = .next t ∧ t.mm.evt.getLsbD 2 = true ∧ (vget t.mm.mons n.val).handReq = (f.again != 0) ∧
        (f.again ≠ 0 → 2 ≤ (vget t.mm.mons n.val).cause ∧ (vget t.mm.mons n.val).cause ≤ 11)) ∧
    (s.mm.periodH ≠ 0 → (∀ i < 16, (vget s.mm.mons i).shadow = none) → spareUnit s = some u.val → nextUnit s = some (17 - u.val) →
      (vget s.mm.units (17 - u.val)).hosts = some n.val →
      ∃ t, exec .mmRotationDue s = .next t ∧ t.mm.due = true ∧ (vget t.mm.mons n.val).shadow = some u.val ∧ (vget t.mm.units u.val).role = .shadow ∧
        (vget t.mm.units u.val).hosts = some n.val ∧ t.mm.shadowMon = some (n.val, (vget s.mm.mons n.val).emptied) ∧ onlyChanges [.mm, .time, .tmr] s t) ∧
    ((vget s.mm.units u.val).role = .bist → s.md.mstate ≠ .shuttingDown → s.mm.due = false →
      (unitFaults s u.val < 2 → exec (.mmUnitBistDone u true) s = .next { s with mm := { s.mm with units := vmod s.mm.units u.val fun x =>
        { x with role := .spare, bistRes := 1, lastBist := some (now s) } } }) ∧
      (∀ p, p = false ∨ 2 ≤ unitFaults s u.val → ∃ t, exec (.mmUnitBistDone u p) s = .next t ∧ (vget t.mm.units u.val).role = .retired ∧
        (vget t.mm.units u.val).bistRes = (if p then 1 else 2) ∧
        vget t.keep.retUnits u.val = true ∧ (∀ v < 18, v ≠ u.val → vget t.mm.units v = vget s.mm.units v) ∧ t.mm.mons = s.mm.mons ∧
        onlyChanges [.mm, .evr, .hp, .keep, .mem] s t)) ∧
    (s.md.mstate = .shuttingDown → s.md.shutBist = true → (vget s.mm.units u.val).role ≠ .retired → ∀ p, ∃ t, exec (.mmUnitBistDone u p) s = .next t ∧
      vget t.md.shutUnits u.val = (if p then .pass else .fail) ∧ (vget t.mm.units u.val).bistRes = (if p then 1 else 2) ∧
      (p = false → (vget t.mm.units u.val).role = .retired ∧ vget t.keep.retUnits u.val = true) ∧ onlyChanges [.md, .mm, .evr, .hp, .keep, .mem] s t)

/-- Counting inputs (R181, R182): an edge to the other level counts one and takes the level, and one less than 0.5 µs after the last is code 0x8; a level between the thresholds takes quality 0 with code 0x2;
each condition ends 10 ms after its last occurrence, the one that ends first with each `CI_QUALITY_RETURN`. The filter (R172, R174 to R178): a band that the samples show for the filter time without interruption becomes the filtered band, a shorter one
does not; the first band after a start gives no edge; a change of value
stamps the edge with the comparator transition that began the run, or with the last one; in a window samples are shown but not filtered (R188). The edge flags of the other inputs change at a t0 alone (R178).
Where the spec leaves a point open the model's choices hold (notes/assumptions: 66, 94). -/
def Obligations.LocalInputs : Prop :=
  let same (i : Nat) (s t : State) : Prop := ∃ e o, vget t.inp.inps i = { vget s.inp.inps i with e := e, ovr := o }
  (∀ (k : Fin 8) (level : Bool) (tick : Nat) (fine : Fin 16) (s : State),
    let x := vget s.inp.cis k.val
    let others (t : State) : Prop := (∀ j < 8, j ≠ k.val → vget t.inp.cis j = vget s.inp.cis j) ∧ ∀ i < 32, same i s t
    (∃ t, exec (.ciEdge k level tick fine) s = .next t ∧ others t ∧ onlyChanges [.inp, .mm, .evr, .hp, .keep, .mem, .time, .tmr] s t ∧
      (x.lvl = level → vget t.inp.cis k.val = x) ∧
      (x.lvl ≠ level → (vget t.inp.cis k.val).lvl = level ∧ (vget t.inp.cis k.val).cnt = x.cnt + 1 ∧ (vget t.inp.cis k.val).last = some (125 * tick + 8 * fine.val) ∧
        (vget t.inp.cis k.val).rate = (x.rate || (x.last.map fun l => decide (125 * tick + 8 * fine.val < l + 1000)).getD false))) ∧
    (∃ t, exec (.ciIndeterminateLevel k) s = .next t ∧ vget t.inp.cis k.val = { x with indet := true, indetAt := instant s } ∧
      ciView t k.val = (false, 2) ∧ others t ∧ onlyChanges [.inp, .evr, .hp, .keep, .mem] s t) ∧
    (∃ t, exec (.ciQualityReturn k) s = .next t ∧ others t ∧ onlyChanges [.inp, .evr, .hp, .keep, .mem, .time, .tmr] s t ∧
      (x.rate = false → x.indet = false → t = s) ∧
      (∀ e, x.ends.min? = some e → s.time.tclkRun = true → e < 2 ^ 64 →
        vget t.inp.cis k.val = { x with rate := x.rate && decide (max (now s) e < x.rateAt + msTicks 10), indet := x.indet && decide (max (now s) e < x.indetAt + msTicks 10) }))) ∧
  (∀ (n : Fin 32) (m : Meas) (a b edge : Nat) (s : State),
    let x := vget s.inp.inps n.val
    let r := x.bandOf m
    let stamp := if x.comp = (r == .on) then x.compAt else edge
    x.used = true → x.run = none → x.srcBad = false → inpCut s n.val x = false → s.time.tclkRun = true → now s ≤ a → a ≤ b → b < 2 ^ 64 → x.sampled ≤ a →
    s.cyc.running = false ∨ b < s.cyc.nextT0 →
    ∃ t, exec (.filterAccept n [{ at_ := a, meas := m, edge := edge }, { at_ := b, meas := m, edge := edge }]) s = .next t ∧
      let y := vget t.inp.inps n.val
      y.raw = r ∧ y.iMeas = BitVec.ofNat 12 (min ((x.adjust m).i / 10) 4095) ∧ now t = b ∧ y.win = x.win ∧ y.sampled = b ∧
      (x.win.isSome = true ∨ x.fband = some r → y.fband = x.fband ∧ y.run = none ∧ y.stamp = x.stamp ∧ y.e = x.e ∧ y.ovr = x.ovr) ∧
      (x.win = none → x.fband ≠ some r → b < a + x.tf → y.fband = x.fband ∧ y.run = some { band := r, start := a, stamp := stamp } ∧ y.stamp = x.stamp ∧ y.e = x.e ∧ y.ovr = x.ovr) ∧
      (x.win = none → x.fband ≠ some r → a + x.tf ≤ b → y.fband = some r ∧ y.run = none ∧
        (x.fband = none ∨ bandVal x.fband = bandVal (some r) → y.stamp = x.stamp ∧ y.e = x.e ∧ y.ovr = x.ovr) ∧
        (x.fband ≠ none → bandVal x.fband ≠ bandVal (some r) → y.stamp = stamp ∧ y.e = true ∧ y.ovr = x.e)) ∧
      (∀ j < 32, j ≠ n.val → vget t.inp.inps j = vget s.inp.inps j) ∧ t.inp.cis = s.inp.cis ∧ onlyChanges [.inp, .evr, .hp, .keep, .mem, .time, .tmr] s t)

/-- Raw bands (R172), in mV and µA, with the normalised current I × 24.0 V / V_src: `ON` from 11.0 V and 2.0 mA for both kinds of source; an external source is `OFF` below 5.0 V,
or below 1.5 mA and 11.0 V, and never broken; a measured one is `OFF` from 0.45 mA to 1.40 mA normalised and broken below 0.30 mA. A measured source of 0 V has no normalised
current (notes/assumptions/21.md). -/
def Obligations.RawBandsByMeasurement : Prop :=
  ∀ (x : Bool) (m : Meas),
    let on := 11000 ≤ m.v ∧ 2000 ≤ m.i
    (rawBand x m = .on ↔ on) ∧
    (rawBand true m = .off ↔ ¬on ∧ (m.v < 5000 ∨ (m.i < 1500 ∧ m.v < 11000))) ∧ rawBand true m ≠ .wireBreak ∧
    (0 < m.src →
      (rawBand false m = .off ↔ ¬on ∧ 450 * m.src ≤ m.i * 24000 ∧ m.i * 24000 ≤ 1400 * m.src) ∧
      (rawBand false m = .wireBreak ↔ ¬on ∧ m.i * 24000 < 300 * m.src))

/-- Test pulses and calibration (R183, R186, R188, R190): a running test output goes dark at its next instant and its inputs open their windows, at which the band before the pulse is kept; at the window end its terminal is
judged and the windows close; the second own pulse in a row that an input misses is code 0x4 and the second in a row that it sees ends it; the second drop in a row with the pulses of one other test output is code 0x3. The reference
check goes round the inputs every 10 ms: a deviation of at most 50 µA clears the trim, up to 150 µA asks for a trim at the next boundary, above it sets `OUT` of its `INP_CAL`.
Where the spec leaves a point open the model's choices hold (notes/assumptions: 66, 95). -/
def Obligations.TestPulsesAndCalibration : Prop :=
  ∀ (k : Fin 16) (low : Bool) (obs : List PulseObs) (foreign : List Drop) (c : CalCheck) (s : State),
    let io := [Blk.inp, .out, .evr, .hp, .keep, .mem, .time, .tmr]
    let o := vget s.out.tos k.val
    (pulsing s k.val = true → o.dark = false →
      ∃ t a, exec (.testPulseStart k) s = .next t ∧ vget t.out.tos k.val = { o with dark := true, darkAt := a } ∧ instant s ≤ a ∧ (s.time.tclkRun = true → a < 2 ^ 64 → now t = a) ∧
        (∀ j < 16, j ≠ k.val → vget t.out.tos j = vget s.out.tos j) ∧
        (∀ i < 32, (vget t.inp.inps i).before = (vget s.inp.inps i).raw ∧ (vget t.inp.inps i).raw = (vget s.inp.inps i).raw ∧
          (vget t.inp.inps i).win = if (vget s.inp.inps i).used ∧ (vget s.inp.inps i).src.toNat = k.val ∧ bandOf s (grpIn i) ≤ 1 then some a else (vget s.inp.inps i).win) ∧
        onlyChanges io s t) ∧
    (pulsing s k.val = false ∨ o.dark = true → exec (.testPulseStart k) s = .next s) ∧
    (o.dark = false → exec (.testPulseWindowEnd k low obs foreign) s = .next s) ∧
    (o.dark = true → ∃ t, exec (.testPulseWindowEnd k low obs foreign) s = .next t ∧ (vget t.out.tos k.val).dark = false ∧
      (vget t.out.tos k.val).rbFail = !low ∧ (low = true → (vget t.out.tos k.val).miss = 0) ∧
      (low = false → (vget t.out.tos k.val).miss = o.miss + 1 ∧ (1 ≤ o.miss → (vget t.out.tos k.val).short = true)) ∧
      (∀ i < 32, (vget s.inp.inps i).used = true → (vget s.inp.inps i).src.toNat = k.val → (vget t.inp.inps i).win = none) ∧ onlyChanges io s t ∧
      (∀ (i : Fin 32) (p : PulseObs), obs.find? (fun q => q.inp.val == i.val) = some p →
        let x := vget s.inp.inps i.val
        let y := vget t.inp.inps i.val
        x.used = true → x.src.toNat = k.val → x.win.isSome = true → bandOf s (grpIn i.val) ≤ 1 → x.judged = true → x.grace = 0 → o.grace = 0 →
        (x.sees p.dip = false → y.missRow = x.missRow + 1 ∧ y.seenRow = 0 ∧ y.missCnt = satUp x.missCnt ∧ (1 ≤ x.missRow → y.missing = true)) ∧
        (x.sees p.dip = true → y.missRow = 0 ∧ y.seenRow = x.seenRow + 1 ∧ (1 ≤ x.seenRow → y.missing = false))) ∧
      (∀ i : Fin 32,
        let x := vget s.inp.inps i.val
        let y := vget t.inp.inps i.val
        let drop := foreign.any fun d => d.inp.val == i.val && x.foreignDrop o.width.toNat d
        x.src.toNat ≠ k.val → x.win = none → pulseChecked s i.val x = true → x.judged = true →
        y.foreign.getLsbD k.val = drop ∧ y.cross = (x.cross || (drop && x.foreign.getLsbD k.val)) ∧ (drop = true → x.foreign.getLsbD k.val = true → y.foreignTo.toNat = k.val))) ∧
    (s.inp.calNext < 32 → ∃ t, exec (.inputCalCheck c) s = .next t ∧
      let n := s.inp.calNext
      let d := calDev (vget s.inp.inps n) c
      let y := vget t.inp.inps n
      t.inp.calNext = (n + 1) % 32 ∧ y.chBad = !c.selfOk ∧
      (d.natAbs ≤ 50 → y.trimmed = false ∧ y.calOut = false ∧ y.trimPend = (vget s.inp.inps n).trimPend) ∧
      (50 < d.natAbs → d.natAbs ≤ 150 → y.trimmed = true ∧ y.trimPend = some d) ∧
      (150 < d.natAbs → y.trimmed = false ∧ y.calOut = true ∧ y.trimPend = (vget s.inp.inps n).trimPend) ∧
      (∀ j < 32, j ≠ n → ∃ e o, vget t.inp.inps j = { vget s.inp.inps j with e := e, ovr := o }) ∧ onlyChanges [.inp, .evr, .hp, .keep, .mem, .time, .tmr] s t)

/-- Output protection (R196, R206, R207, R210 to R212, R275): each fault acts on its own output or group. An overload latches code 0x8; open load and its end set and clear code 0x1;
a group over its limit opens its master with cause 5, a lost drive its master; a high output committed 0 opens its master with cause 3 and waits for identification, but a brake output without coil current latches off with code 0x9. Identification
names a lost switch when nothing else of the group was on and the terminal now reads LOW, the one other output that was on, the output of the other group whose dark pulse it follows, or a source outside; a partner whose kill removed it leaves nothing latched. Committed values do not change.
Where the spec leaves a point open the model's choices hold (notes/assumptions: 97, 99). -/
def Obligations.OutputProtection : Prop :=
  ∀ (n j : Fin 20) (g : Fin 2) (ua coil : Nat) (s : State),
    let o := vget s.out.outs n.val
    let ev := [Blk.out, .evr, .hp, .keep, .mem]
    let out (t : State) : Out := vget t.out.outs n.val
    let others (t : State) : Prop := ∀ j < 20, j ≠ n.val → vget t.out.outs j = vget s.out.outs j
    (8 ∉ o.latched → ∃ t, exec (.outputOverload n) s = .next t ∧ out t = { o with latched := o.latched ++ [8], ch := false, ecoAct := false, duty := (1, 1), srcOut := 0x1F } ∧
      others t ∧ t.out.grps = s.out.grps ∧ onlyChanges ev s t) ∧
    (8 ∈ o.latched → exec (.outputOverload n) s = .next s) ∧
    (energised s n.val = true → ∃ t, exec (.openLoad n ua) s = .next t ∧ (out t).openLoad = decide (ua < if n.val < 16 then 2000 else 20000) ∧
      (out t).ch = o.ch ∧ others t ∧ t.out.grps = s.out.grps ∧ onlyChanges ev s t) ∧
    (energised s n.val = false → exec (.openLoad n ua) s = .next s) ∧
    (∃ t, exec (.groupOvercurrent g) s = .next t ∧ (vget t.out.grps g.val).master = false ∧ 5 ∈ (vget t.out.grps g.val).latches ∧ 8 ∈ (vget t.out.grps g.val).codes ∧
      vget t.out.grps (1 - g.val) = vget s.out.grps (1 - g.val) ∧ t.out.outs = s.out.outs ∧ onlyChanges ev s t) ∧
    exec (.masterDriveLoss g) s = .next { s with out := { s.out with grps := vmod s.out.grps g.val fun x => { x with drive := false, master := false } } } ∧
    (o.cmd = false → bandOf s (grpOut n.val) ≤ 1 → pairedOff s n.val = true →
      (n.val < 16 ∨ 50 ≤ coil → s.out.ident = [] → o.classified = false →
        ∃ t, exec (.readbackFault n coil) s = .next t ∧ (vget t.out.grps (grpOut n.val)).master = false ∧ 3 ∈ (vget t.out.grps (grpOut n.val)).latches ∧
          t.out.ident.map (fun x => (x.out, x.on)) = [(n.val, (members (grpOut n.val)).filter fun i => i != n.val && (vget s.out.outs i).cmd)] ∧ out t = { o with lowSince := none } ∧ others t ∧
          onlyChanges (ev ++ [.time, .tmr]) s t) ∧
      (16 ≤ n.val → coil < 50 → 9 ∉ o.latched → ∃ t, exec (.readbackFault n coil) s = .next t ∧ (out t).latched = o.latched ++ [9] ∧ (out t).ch = false ∧
        others t ∧ t.out.grps = s.out.grps ∧ onlyChanges (ev ++ [.time, .tmr]) s t)) ∧
    (o.cmd = true ∨ 2 ≤ bandOf s (grpOut n.val) ∨ pairedOff s n.val = false → exec (.readbackFault n coil) s = .next s) ∧
    (∀ x, s.out.ident = [x] → x.out = n.val → s.out.test = none →
      (x.killed = false → ∃ t, exec (.shortIdentify n true) s = .next t ∧ t.out.ident = [] ∧ (out t).classified = true ∧ others t ∧ onlyChanges (ev ++ [.time, .tmr]) s t ∧
        (x.on = [] → 9 ∉ o.latched → (out t).latched = o.latched ++ [9] ∧ (out t).ch = false) ∧
        (x.on ≠ [] → 3 ∉ o.latched → (out t).latched = o.latched ++ [3] ∧ (out t).ch = false) ∧ (∀ i, x.on = [i] → 3 ∉ o.latched → (out t).srcOut = i)) ∧
      (x.killed = true → ∃ t, exec (.shortIdentify n true) s = .next t ∧ t.out.ident = [] ∧ t.out.outs = s.out.outs ∧
        (vget t.out.grps (grpOut n.val)).latches = (vget s.out.grps (grpOut n.val)).latches.erase 3 ∧ onlyChanges [.out, .evr, .hp, .keep, .mem, .time, .tmr] s t) ∧
      (pairedNow s o = false ∨ x.killed = true → (∀ i ∈ members (1 - grpOut n.val), (vget s.out.outs i).cmd = false) → 4 ∉ o.latched →
        ∃ t, exec (.shortIdentify n false) s = .next t ∧ t.out.ident = [] ∧ (out t).latched = o.latched ++ [4] ∧ others t ∧ onlyChanges (ev ++ [.time, .tmr]) s t)) ∧
    (∀ x r, s.out.ident = [x] → x.out = n.val → s.out.test = some r → r.sel = .ident n.val j.val → grpOut j.val ≠ grpOut n.val → 3 ∉ o.latched → 3 ∉ (vget s.out.outs j.val).latched →
      ∃ t, exec (.shortIdentify n true) s = .next t ∧ t.out.ident = [] ∧ t.out.test = none ∧ (out t).latched = o.latched ++ [3] ∧ (out t).srcOut = j.val ∧
        (vget t.out.outs j.val).latched = (vget s.out.outs j.val).latched ++ [3] ∧ (vget t.out.outs j.val).srcOut = n.val ∧ (vget t.out.grps (grpOut j.val)).master = false ∧
        onlyChanges (ev ++ [.time, .tmr]) s t)

/-- Test windows, brakes, test outputs, field bands (R200 to R204, R210, R214, R463, R464): the window of a master's retest opens it for the test's pulse; at its end, which the next `FREEZE` judges if nothing did before, the master closes while its drive toggles and a pass is recorded, a second failure latches its
group with cause 4; a brake that is on changes to economy with the duty that the group voltage gives, and 16 off phases without LOW are a failed dark test, a second time the short condition; an overloaded test output goes off and retries; a group
that enters band 0b11 is cut with cause 2 latched, and leaves it for band 0b00 alone; another band opens no master.
Where the spec leaves a point open the model's choices hold (notes/assumptions: 68, 97). -/
def Obligations.WindowsBrakesAndBands : Prop :=
  ∀ (b band : Fin 4) (k : Fin 16) (g : Fin 2) (vf : BitVec 12) (e : TestEnv) (r : TestRun) (s : State),
    let n := 16 + b.val
    let o := vget s.out.outs n
    let out (t : State) : Out := vget t.out.outs n
    let x := vget s.out.grps g.val
    let grp (t : State) : Grp := vget t.out.grps g.val
    let duty := ecoDuty vf.toNat
    (o.eco = true → o.cmd = true → o.ch = true → ∃ t, exec (.ecoPhaseEnd b) s = .next t ∧ t.out = { s.out with outs := vmod s.out.outs n fun o =>
      { o with ecoAct := true, offPhase := 0, duty := ecoDuty (vget s.out.grps (grpOut n)).vGrp.toNat } } ∧ onlyChanges [.out, .time, .tmr] s t) ∧
    (o.eco = false ∨ o.cmd = false ∨ o.ch = false → exec (.ecoPhaseEnd b) s = .next s) ∧
    (∀ v : Nat, (v ≤ 1200 → ecoDuty v = (1, 1)) ∧ (2400 ≤ v → ecoDuty v = (1, 2)) ∧ (1200 < v → v < 2400 → ecoDuty v = (1200, v))) ∧
    (o.ecoAct = true → bandOf s (b.val / 2) ≤ 1 →
      (∃ t, exec (.ecoOffPhaseCheck b true vf) s = .next t ∧ out t = { o with offPhase := 0, retestDark := false, duty := duty } ∧
        (vget t.out.grps (b.val / 2)).vGrp = vf ∧ onlyChanges [.out] s t) ∧
      (o.offPhase < 15 → ∃ t, exec (.ecoOffPhaseCheck b false vf) s = .next t ∧ out t = { o with offPhase := o.offPhase + 1, duty := duty } ∧ onlyChanges [.out] s t) ∧
      (o.offPhase = 15 → o.retestDark = false → ∃ t, exec (.ecoOffPhaseCheck b false vf) s = .next t ∧ (out t).retestDark = true ∧
        (out t).dtFailCnt = satUp o.dtFailCnt ∧ (out t).offPhase = 0 ∧ onlyChanges [.out] s t) ∧
      (o.offPhase = 15 → o.retestDark = true → o.classified = false → s.out.ident = [] → ∃ t, exec (.ecoOffPhaseCheck b false vf) s = .next t ∧ (out t).retestDark = false ∧
        (vget t.out.grps (b.val / 2)).master = false ∧ 3 ∈ (vget t.out.grps (b.val / 2)).latches ∧ t.out.ident.map (·.out) = [n] ∧ onlyChanges [.out, .evr, .hp, .keep, .mem] s t)) ∧
    (o.ecoAct = false → exec (.ecoOffPhaseCheck b true vf) s = .next s ∧ exec (.ecoOffPhaseCheck b false vf) s = .next s) ∧
    (∃ t, exec (.toOverloadRetry k true) s = .next t ∧ (vget t.out.tos k.val).ovl = true ∧ (vget t.out.tos k.val).ovlBad = true ∧ (vget t.out.tos k.val).dark = false ∧
      t.out.outs = s.out.outs ∧ onlyChanges [.out, .inp, .evr, .hp, .keep, .mem, .time, .tmr] s t) ∧
    (∃ t, exec (.toOverloadRetry k false) s = .next t ∧ (vget t.out.tos k.val).ovl = false ∧
      ((vget s.out.tos k.val).ovl = true → (vget t.out.tos k.val).ovlBad = (vget s.out.tos k.val).ovlBad) ∧
      ((vget s.out.tos k.val).ovl = false → s.time.tclkRun = true → (vget s.out.tos k.val).ovlAt + msTicks 1000 < 2 ^ 64 → (vget t.out.tos k.val).ovlBad = false) ∧
      t.out.outs = s.out.outs ∧ onlyChanges [.out, .inp, .evr, .hp, .keep, .mem, .time, .tmr] s t) ∧
    (x.band ≠ 3 → cutLatches s = true → s.out.test = none → ∃ t, exec (.vfBandChange g 3 vf) s = .next t ∧ (grp t).band = 3 ∧ (grp t).master = false ∧
      2 ∈ (grp t).latches ∧ (∀ j < 20, grpOut j = g.val → (vget t.out.outs j).ch = false) ∧ (∀ j < 20, grpOut j ≠ g.val → vget t.out.outs j = vget s.out.outs j) ∧
      vget t.out.grps (1 - g.val) = vget s.out.grps (1 - g.val) ∧ onlyChanges [.out, .inp, .evr, .hp, .keep, .mem] s t) ∧
    (x.band = band.val ∨ (x.band = 3 ∧ band ≠ 0) → exec (.vfBandChange g band vf) s = .next s) ∧
    (x.band ≠ band.val → band ≠ 3 → x.band ≠ 3 ∨ band = 0 → s.out.test = none → ∃ t, exec (.vfBandChange g band vf) s = .next t ∧ (grp t).band = band.val ∧ (grp t).master = x.master ∧
      (grp t).vGrp = vf ∧ (grp t).latches = x.latches ∧ vget t.out.grps (1 - g.val) = vget s.out.grps (1 - g.val) ∧ onlyChanges [.out, .inp, .evr, .hp, .keep, .mem] s t) ∧
    (∃ t, exec (.vfOvervoltage g vf) s = .next t ∧ grp t = { x with vGrp := vf } ∧ vget t.out.grps (1 - g.val) = vget s.out.grps (1 - g.val) ∧
      (∀ j < 20, vget t.out.outs j = if grpOut j = g.val ∧ (vget s.out.outs j).ecoAct then { vget s.out.outs j with duty := duty } else vget s.out.outs j) ∧
      onlyChanges [.out, .evr, .hp, .keep, .mem] s t) ∧
    (s.out.ident = [] → s.out.test = none → s.sup.waitAck = [] → s.md.mstate = .run → e.rbBad = [] →
      x.mtRetest = true → x.master = true → x.band = 0 → (g.val = 1 → (vget s.out.grps 0).mtRetest = false) →
      ∃ t, exec (.outputTestWindow e) s = .next t ∧ (grp t).master = false ∧
        (∃ y, t.out.test = some y ∧ y.sel = .master g.val ∧ y.pass = e.pass ∧ y.until_ = instant t + 4800) ∧ (vget t.out.grps (1 - g.val)).master = (vget s.out.grps (1 - g.val)).master ∧
        onlyChanges [.out, .time, .tmr] s t) ∧
    (∀ d stop, exec (.freeze d stop) s = exec (.freeze d stop) (settleTest s)) ∧
    (s.out.test = some r → r.sel = .master g.val → r.until_ ≤ instant s → (settleTest s).out.test = none ∧
      (r.pass = true → (grp (settleTest s)).master = x.drive ∧ (grp (settleTest s)).mtRetest = false ∧ (grp (settleTest s)).mtLast = now s) ∧
      (r.pass = false → x.mtRetest = false → (grp (settleTest s)).master = x.drive ∧ (grp (settleTest s)).mtRetest = true) ∧
      (r.pass = false → x.mtRetest = true → (grp (settleTest s)).master = false ∧ 4 ∈ (grp (settleTest s)).latches ∧ ∀ j < 20, grpOut j = g.val → (vget (settleTest s).out.outs j).ch = false) ∧
      onlyChanges [.out, .evr, .hp, .keep, .mem] s (settleTest s))

/-! ## Freven rings and cross-link (09 R219 to R255; 10 R256 to R281) -/

/-- Frames at a ring port (R219 to R223, R229, R241, R243, R248, R276, R277): a dropped frame and a bad FCS are counted; `PDELAY_REQ` is answered with a link-local frame that carries its turnaround; a
link change takes the port's speed, but the ports of a ring without nodes stay powered down, and a ring without a link asks for its bring-up at the first one; 1,024 ring periods after the last one a periodic discovery sends `DISCOVER` from both ports; a schedule frame
that went round the ring is noted at the opposite port; the standby hears the ring master's; in pair mode a frame leaves the other port with `HOP` + 1, but for a link-local one, one of this module's own or to itself, and one with `HOP` of 300 or more.
Where the spec leaves a point open the model's choices hold (notes/assumptions: 62, 77, 103). -/
def Obligations.FramesAtRingPorts : Prop :=
  ∀ (p : Fin 4) (k : Fin 2) (fcs eee : Bool) (speed : Fin 3) (turn : Nat) (fr : List Byte) (s : State), p.val / 2 = k.val →
    let r := vget s.ring.rings k.val
    let x := vget s.ring.ports p.val
    let b := frameBody fr
    let own := moduleMac s.xl.mid k.val
    let ring (f : Ring → Ring) : State := { s with ring := { s.ring with rings := vmod s.ring.rings k.val f } }
    let drop : State := { s with ring := { s.ring with ports := vmod s.ring.ports p.val fun x => { x with drop := satUp x.drop } } }
    exec (.ringFrameDrop p fcs) s = .next (if fcs then { s with ring := { s.ring with ports := vmod s.ring.ports p.val fun x => { x with fcsErr := satUp x.fcsErr } } } else drop) ∧
    (x.link = true → exec (.pdelayReqReceive p turn) s = .next { s with ring := { s.ring with
      ports := vmod s.ring.ports p.val fun x => { x with pdelay := some turn }
      rings := vmod s.ring.rings k.val fun r => { r with tx := r.tx ++
        [(p.val, etherFrame localMac own (frameHead 6 (k.val + 2 * (p.val % 2)) 0 16 r.rpn ++ beBytes 4 turn))] } } }) ∧
    (x.link = false → exec (.pdelayReqReceive p turn) s = .next s) ∧
    (∃ t, exec (.portLinkChange p speed eee) s = .next t ∧
      let sp := if nCfg s k.val = 0 then 0 else speed.val
      vget t.ring.ports p.val = { x with link := sp != 0, speed := BitVec.ofNat 2 sp, eee := eee && sp != 0, lpi := x.lpi && sp != 0 } ∧
      (∀ q < 4, q ≠ p.val → vget t.ring.ports q = vget s.ring.ports q) ∧ t.ring.nodes = s.ring.nodes ∧
      ((vget s.ring.ports (2 * k.val)).link = false → (vget s.ring.ports (2 * k.val + 1)).link = false → sp ≠ 0 → s.md.mstate ≠ .starting ∨ 9 ≤ s.md.startStep →
        (vget t.ring.rings k.val).bring = true ∧ (vget t.ring.rings k.val).sched = false) ∧
      (sp = 1 → r.plan100 = false → t.ring.evt.getLsbD 14 = true) ∧ onlyChanges [.ring, .evr, .hp, .keep, .mem] s t) ∧
    (r.sched = true → r.master = true → ringLive s = true →
      (1024 ≤ (r.rpn + 2 ^ 32 - r.discAt) % 2 ^ 32 → ∃ t, exec (.discoveryPeriodic k) s = .next t ∧
        (vget t.ring.rings k.val).tx = r.tx ++ [(2 * k.val, etherFrame (mcastMac k.val) own (frameHead 7 k.val 0 12 r.rpn)), (2 * k.val + 1, etherFrame (mcastMac k.val) own (frameHead 7 (k.val + 2) 0 12 r.rpn))] ∧
        (vget t.ring.rings k.val).discAt = r.rpn ∧ (vget t.ring.rings k.val).answers = [] ∧ (vget t.ring.rings k.val).nFound = 0 ∧
        vget t.ring.rings (1 - k.val) = vget s.ring.rings (1 - k.val) ∧ t.ring.ports = s.ring.ports ∧ t.ring.nodes = s.ring.nodes ∧ onlyChanges [.ring] s t) ∧
      ((r.rpn + 2 ^ 32 - r.discAt) % 2 ^ 32 < 1024 → exec (.discoveryPeriodic k) s = .next s)) ∧
    (r.sched = false ∨ r.master = false ∨ ringLive s = false → exec (.discoveryPeriodic k) s = .next s) ∧
    (headOk k.val 1 fr = false → exec (.scheduleFrameReceive p fr) s = .next drop) ∧
    (headOk k.val 1 fr = true → frameSrc fr = own →
      exec (.scheduleFrameReceive p fr) s = .next (if (leAt b 2 1).testBit 1 ∧ p.val % 2 = 0 then ring (fun r => { r with schedW := true })
        else if ¬(leAt b 2 1).testBit 1 ∧ p.val % 2 = 1 then ring (fun r => { r with schedE := true }) else s)) ∧
    (headOk k.val 1 fr = true → frameSrc fr ≠ own → pairMode s = false ∨ frameSrc fr ≠ moduleMac (partnerMid s) k.val → exec (.scheduleFrameReceive p fr) s = .next s) ∧
    (headOk k.val 1 fr = true → frameSrc fr ≠ own → pairMode s = true → frameSrc fr = moduleMac (partnerMid s) k.val → ∃ t, exec (.scheduleFrameReceive p fr) s = .next t ∧
      (vget t.ring.rings k.val).heard = true ∧ (r.master = false → (vget t.ring.rings k.val).rpn = beAt b 8 4) ∧ (r.master = true → t = ring fun r => { r with heard := true }) ∧
      t.ring.ports = s.ring.ports ∧ t.cyc = s.cyc ∧ t.out = s.out ∧ t.md = s.md) ∧
    (let goes := pairMode s = true ∧ slice fr 12 2 = [0x88#8, 0xB6#8] ∧ leAt b 0 1 = 1 ∧ frameDst fr ≠ localMac ∧ frameSrc fr ≠ own ∧ frameDst fr ≠ own ∧ beAt b 4 2 < 300;
      (goes → exec (.ringFrameForward p fr) s = .next (ring fun r => { r with tx := r.tx ++
        [(p.val + 1 - 2 * (p.val % 2), fr.take 18 ++ beBytes 2 (beAt b 4 2 + 1) ++ fr.drop 20)] })) ∧
      (¬goes → exec (.ringFrameForward p fr) s = .next s))

/-- Ring periods (R226, R232, R233, R237 to R239, R247, R277): at S_p the ring's period number goes on, every configured slot's age and output sequence too, and the schedule
frames leave both ports, and a discovery's `DISCOVER` in its four periods; a connection whose age has reached W is `EXPIRED`; a standby that heard nothing becomes ring master, and lays that down when it hears the configured ring master. The other ring's nodes do not change.
Where the spec leaves a point open the model's choices hold (notes/assumptions: 62, 100, 101). -/
def Obligations.RingPeriods : Prop :=
  ∀ (k : Fin 2) (g : Fin 512) (s : State),
    let r := vget s.ring.rings k.val
    let n := vget s.ring.nodes g.val
    (pairMode s = false ∨ r.master = false ∨ r.heard = false → ∃ t, exec (.ringPeriodStart k) s = .next t ∧ (vget t.ring.rings k.val).rpn = (r.rpn + 1) % 2 ^ 32 ∧
      (vget t.ring.rings k.val).sp = now t ∧ (vget t.ring.rings k.val).master = r.master ∧ (vget t.ring.rings k.val).heard = false ∧
      (g.val / 256 ≠ k.val → vget t.ring.nodes g.val = n) ∧
      (g.val / 256 = k.val → n.conf = true → (vget t.ring.nodes g.val).seenE = false ∧ (vget t.ring.nodes g.val).seenW = false ∧ (vget t.ring.nodes g.val).accepted = false ∧
        (vget t.ring.nodes g.val).lastE = n.seenE ∧ (vget t.ring.nodes g.val).lastW = n.seenW ∧
        (vget t.ring.nodes g.val).oseq = (if r.master then (n.oseq + 1) % 65536 else n.oseq) ∧
        (n.conn = 4 ∨ n.conn = 5 → (vget t.ring.nodes g.val).age = n.age + 1) ∧
        (r.todo = [] → n.conn = 4 ∨ n.conn = 5 → (vget t.ring.nodes g.val).conn = if n.w ≤ n.age + 1 then 6 else n.conn)) ∧
      (r.master = false ∨ ringLive s = false → (vget t.ring.rings k.val).tx = []) ∧
      (r.master = true → ringLive s = true → r.todo = [] → r.bringing = false →
        let both (dst : List Byte) (body : Nat → List Byte) : List (Nat × List Byte) :=
          [(2 * k.val, etherFrame dst (moduleMac s.xl.mid k.val) (body k.val)), (2 * k.val + 1, etherFrame dst (moduleMac s.xl.mid k.val) (body (k.val + 2)))]
        ((if r.sched then (List.range (schedFrames (nCfg s k.val))).flatMap fun f => both (mcastMac k.val) (schedFrame t k.val f) else []) ++
         (if r.disc.any (fun p => ((r.rpn + 1) % 2 ^ 32 + 2 ^ 32 - p) % 2 ^ 32 < 4) then both (mcastMac k.val) (fun flags => frameHead 7 flags 0 12 ((r.rpn + 1) % 2 ^ 32)) else [])) <+:
          (vget t.ring.rings k.val).tx) ∧
      vget t.ring.rings (1 - k.val) = vget s.ring.rings (1 - k.val) ∧ onlyChanges [.ring, .evr, .hp, .keep, .mem, .sup, .time, .tmr] s t) ∧
    (pairMode s = true → r.master = true → r.heard = true → b2n s.xl.rmRole ≠ roleOf s → s.xl.killOut = false → ∃ t, exec (.ringPeriodStart k) s = .next t ∧
      (vget t.ring.rings k.val).master = false ∧ (vget t.ring.rings k.val).rpn = (r.rpn + 1) % 2 ^ 32 ∧ t.xl.evt.getLsbD 7 = true ∧ t.cyc = s.cyc ∧ t.out = s.out ∧ t.md = s.md) ∧
    (n.conn = 4 ∨ n.conn = 5 → n.age < n.w → (vget s.ring.rings (g.val / 256)).todo = [] → ∃ t, exec (.connectionExpire g) s = .next t ∧
      (vget t.ring.nodes g.val).conn = 6 ∧ (vget t.ring.nodes g.val).wdCnt = satUp n.wdCnt ∧ (vget t.ring.nodes g.val).cref = none ∧ t.ring.evt.getLsbD 3 = true ∧
      (∀ h < 512, h / 256 ≠ g.val / 256 → vget t.ring.nodes h = vget s.ring.nodes h) ∧ t.cyc = s.cyc ∧ t.out = s.out ∧ t.md = s.md) ∧
    (n.conn ≠ 4 → n.conn ≠ 5 → exec (.connectionExpire g) s = .next s) ∧
    (pairMode s = true → r.master = false → r.heard = false → s.md.qualPartner = false → ∃ t, exec (.ringMasterTakeover k) s = .next t ∧
      (vget t.ring.rings k.val).master = true ∧ (vget t.ring.rings k.val).rpn = (r.rpn + 1) % 2 ^ 32 ∧ t.xl.evt.getLsbD 7 = true ∧ t.cyc = s.cyc ∧ t.out = s.out ∧ t.md = s.md) ∧
    (pairMode s = false ∨ r.master = true ∨ r.heard = true ∨ s.md.qualPartner = true → exec (.ringMasterTakeover k) s = .next s)

/-- Input containers (R220, R223, R235, R237, R238): one of the configured node that the source address names, whose CRC is right and whose count lies 1 to W above the reference, is accepted: the age restarts, and in `GOOD`
its contents are used, after 3 counts in a row in `REINTEGRATING` too; one too far ahead, a repeat and a bad CRC are not, and a repeat with other contents is a conflict; an expired connection takes the count as its
reference. A frame from elsewhere, or below the plan speed, does nothing; one with a bad header is dropped. Of the nodes only its own changes. -/
def Obligations.InputContainersByTheirCount : Prop :=
  ∀ (p : Fin 4) (fr : List Byte) (s : State),
    let k := p.val / 2
    let slot := leAt fr 11 1
    let g := 256 * k + slot
    let n := vget s.ring.nodes g
    let b := frameBody fr
    let c := b.drop 12
    let body := c.take 104
    let seq := beAt c 0 2
    let good := beAt c 104 4 = (contCrc (cidOf s k slot n.uid) 0x49 k slot body).toNat
    let d := (seq + 65536 - n.ref.getD 0) % 65536
    let ok := frameSrc fr = nodeMac k slot ∧ (frameDst fr = moduleMac s.xl.mid k ∨ frameDst fr = servedMac s k) ∧
      ((vget s.ring.rings k).plan100 = true ∨ (vget s.ring.ports p.val).speed ≠ 1) ∧ 4 ≤ n.conn
    (headOk k 2 fr = false ∨ b.length ≠ 120 → exec (.inputContainerReceive p fr) s = .next { s with ring := { s.ring with ports := vmod s.ring.ports p.val fun x => { x with drop := satUp x.drop } } }) ∧
    (headOk k 2 fr = true → b.length = 120 → ¬ok → exec (.inputContainerReceive p fr) s = .next s) ∧
    (headOk k 2 fr = true → b.length = 120 → ok →
      ∃ t, exec (.inputContainerReceive p fr) s = .next t ∧
        let m := vget t.ring.nodes g
        (p.val % 2 = 0 → m.seenE = true ∧ m.posE = beAt b 4 2) ∧ (p.val % 2 = 1 → m.seenW = true ∧ m.posE = n.posE) ∧
        (¬good → m.crcCnt = satUp n.crcCnt ∧ m.conn = n.conn ∧ m.ref = n.ref ∧ m.age = n.age ∧ m.used = n.used) ∧
        (good → n.conn = 6 → m.conn = 4 ∧ m.ref = some seq ∧ m.run = 0 ∧ m.used = n.used) ∧
        (good → n.conn ≠ 6 → 0 < d → d ≤ n.w → m.ref = some seq ∧ m.age = 0 ∧ m.last = body ∧ m.accepted = true ∧ m.lost = satAdd n.lost (d - 1) ∧
          (n.conn = 5 → m.conn = 5 ∧ m.used = body) ∧
          (n.conn = 4 → m.run = (if d = 1 then n.run + 1 else 0) ∧ m.conn = (if 3 ≤ m.run then 5 else 4) ∧ m.used = if 3 ≤ m.run then body else n.used)) ∧
        (good → n.conn ≠ 6 → 0 < d → n.w < d → m.seqCnt = satUp n.seqCnt ∧ m.conn = n.conn ∧ m.ref = n.ref ∧ m.age = n.age ∧ m.used = n.used) ∧
        (good → n.conn ≠ 6 → d = 0 → m.conn = n.conn ∧ m.ref = n.ref ∧ m.age = n.age ∧ m.used = n.used ∧
          m.conflict = (n.conflict || body != n.last) ∧ (body ≠ n.last → t.ring.evt.getLsbD 6 = true)) ∧
        (∀ h < 512, h ≠ g → vget t.ring.nodes h = vget s.ring.nodes h) ∧ t.ring.rings = s.ring.rings ∧ t.ring.ports = s.ring.ports ∧
        onlyChanges [.ring, .mm, .evr, .hp, .keep, .mem, .sup] s t)

/-- Bring-up and management (R224, R236, R245, R247, R250, R251, R255): a bring-up leaves every configured slot `ABSENT` and begins a discovery, in the standby `EXPIRED` at once; it ends, and schedule frames start, when discovery and configurations are over;
an unconfigured node that answers is told by `RING_EVT` bit 8, a fitting slot's node waits to be configured, one that does not fit is a mismatch;
the answer to `CONFIG_COMMIT` with the right check word ends a configuration, `EXPIRED` so that its counts begin; one with a wrong word repeats it, the third time the slot is a mismatch; a request without an answer is repeated twice, then given up; a node that accepts its restart completes `FW_ACTIVATE`.
Where the spec leaves a point open the model's choices hold (notes/assumptions: 8, 63, 103). -/
def Obligations.NodesAreConfigured : Prop :=
  (∀ (k : Fin 2) (s : State),
    let r := vget s.ring.rings k.val
    let linked := (vget s.ring.ports (2 * k.val)).link || (vget s.ring.ports (2 * k.val + 1)).link
    let all (c : Nat) (t : State) : Prop := ∀ h < 512, if h / 256 = k.val ∧ (nodeOf s h).conf then
      nodeOf t h = { nodeOf s h with conn := c, ref := none, run := 0, age := 0, cref := none } else nodeOf t h = nodeOf s h
    (r.bring = true → r.bringing = false → linked = true →
      ∃ t, exec (.ringBringup k) s = .next t ∧ all (if r.master then 1 else 6) t ∧ t.ring.ports = s.ring.ports ∧ vget t.ring.rings (1 - k.val) = vget s.ring.rings (1 - k.val) ∧
        vget t.ring.rings k.val = (if r.master then
          { r with found := [], todo := [], mgmt := [], bringing := true, sched := false, disc := some ((r.rpn + 1) % 2 ^ 32), answers := [], nFound := 0 }
          else { r with bring := false, sched := true }) ∧ onlyChanges [.ring] s t) ∧
    (r.bring = false ∨ r.bringing = true ∨ linked = false → exec (.ringBringup k) s = .next s) ∧
    (r.bringing = true → r.disc = none → r.todo = [] → r.mgmt = [] → pairMode s = false → s.md.mstate ≠ .shuttingDown → ∃ t, exec (.ringPeriodStart k) s = .next t ∧
      (vget t.ring.rings k.val).bring = false ∧ (vget t.ring.rings k.val).bringing = false ∧ (vget t.ring.rings k.val).sched = true)) ∧
  (∀ (p : Fin 4) (fr : List Byte) (s : State),
    let k := p.val / 2
    let r := vget s.ring.rings k
    let b := frameBody fr
    let data := b.drop 16
    let x := identOf data (if p.val % 2 = 0 then beAt b 4 2 else 0x1FF)
    let fits (n : Node) : Prop := n.ntype = x.ntype ∧ x.tNin ≤ 100000 ∧ x.tNout ≤ 250000
    let ok := r.master = true ∧ forModule s k fr = true
    let step := exec (.mgmtRespReceive p fr) s
    (headOk k 4 fr = false ∨ b.length < 16 → step = .next { s with ring := { s.ring with ports := vmod s.ring.ports p.val fun x => { x with drop := satUp x.drop } } }) ∧
    (headOk k 4 fr = true → 16 ≤ b.length → ¬ok → step = .next s) ∧
    (headOk k 4 fr = true → 16 ≤ b.length → ok → leAt b 12 1 = 0 → x.uid ≠ 0 → x.uid ≠ 2 ^ 64 - 1 → ∃ t, step = .next t ∧
      (∃ y ∈ (vget t.ring.rings k).found, y.uid = x.uid ∧ y.ntype = x.ntype ∧ y.fwVer = x.fwVer ∧ (p.val % 2 = 0 → x.pos ≠ 0x1FF → y = x)) ∧
      x.uid ∈ (vget t.ring.rings k).answers ∧ (vget t.ring.rings k).nFound = (vget t.ring.rings k).answers.length ∧
      (slotOfUid s k x.uid = none → t.ring.evt = s.ring.evt ||| BitVec.twoPow 32 8 ∧ t.ring.nodes = s.ring.nodes) ∧
      (∀ i, slotOfUid s k x.uid = some i →
        (nodeOf t (256 * k + i)).known = true ∧ (nodeOf t (256 * k + i)).ident.uid = x.uid ∧ (nodeOf t (256 * k + i)).fwVer = x.fwVer ∧
        (fits (nodeOf s (256 * k + i)) → (nodeOf s (256 * k + i)).conn ∉ [3, 4, 5] → i ∈ (vget t.ring.rings k).todo ∧ (nodeOf t (256 * k + i)).tries = 0) ∧
        (fits (nodeOf s (256 * k + i)) → (nodeOf t (256 * k + i)).conn = (nodeOf s (256 * k + i)).conn) ∧
        (¬fits (nodeOf s (256 * k + i)) → (nodeOf t (256 * k + i)).conn = 2 ∧ t.ring.evt.getLsbD 7 = true) ∧
        ∀ h < 512, h ≠ 256 * k + i → nodeOf t h = nodeOf s h) ∧
      onlyChanges [.ring, .evr, .hp, .keep, .mem] s t) ∧
    (∀ i m, headOk k 4 fr = true → 16 ≤ b.length → ok → slotOfMac s k (frameSrc fr) = some i → i < 256 →
      r.mgmt.find? (fun m => m.sent && m.slot == i && m.tag == leAt b 13 1 && m.op == leAt b 12 1) = some m →
      let n := nodeOf s (256 * k + i)
      let right := BitVec.ofNat 32 (beAt data 0 4) = nodeCheck s k i
      (m.op = 3 → right → ∃ t, step = .next t ∧ nodeOf t (256 * k + i) = { n with conn := 6, ref := none, run := 0, age := 0, cref := none, addr := true } ∧
        (vget t.ring.rings k).mgmt = r.mgmt.filter (·.tag != m.tag) ∧ (∀ h < 512, h ≠ 256 * k + i → nodeOf t h = nodeOf s h) ∧ onlyChanges [.ring] s t) ∧
      (m.op = 3 → ¬right → ∃ t, step = .next t ∧ (n.tries < 2 → (nodeOf t (256 * k + i)).tries = n.tries + 1 ∧ (∃ y ∈ (vget t.ring.rings k).mgmt, y.slot = i ∧ y.op = 1 ∧ y.sent = false)) ∧
        (2 ≤ n.tries → (nodeOf t (256 * k + i)).conn = 2 ∧ t.ring.evt.getLsbD 7 = true) ∧ (∀ h < 512, h ≠ 256 * k + i → nodeOf t h = nodeOf s h) ∧ onlyChanges [.ring] s t) ∧
      (∀ q, m.op = 6 → leAt b 14 1 = 0 → s.sup.waitAct = [(256 * k + i, q)] → s.sup.sup = .serving →
        ∃ t, step = .next t ∧ Done q 0x0805 .ok [] none
          { modNode (256 * k + i) (fun n => { n with fwWant := some n.staged, nstate := 6 }) (dropReq k m.tag s) with sup := { s.sup with waitAct := [] } } t))) ∧
  (∀ (k : Fin 2) (m : Mgmt) (s : State), (vget s.ring.rings k.val).mgmt = [m] → m.sent = true → m.slot < 256 →
    (m.repeats < 2 → ∃ t, exec (.mgmtTimeout k) s = .next t ∧ (∃ y ∈ (vget t.ring.rings k.val).mgmt, y.tag = m.tag ∧ y.slot = m.slot ∧ y.op = m.op ∧ y.seg = m.seg ∧
        y.repeats = m.repeats + 1 ∧ y.sent = false) ∧ t.cyc = s.cyc ∧ t.out = s.out ∧ t.md = s.md) ∧
    (2 ≤ m.repeats → ∃ t, exec (.mgmtTimeout k) s = .next t ∧ (∀ x ∈ (vget t.ring.rings k.val).mgmt, x.tag ≠ m.tag) ∧
      (m.op ≤ 3 → (nodeOf t (256 * k.val + m.slot)).conn = 1) ∧ (m.op = 4 ∨ m.op = 5 → t.ring.nfw.phase = 4) ∧ (6 ≤ m.op → ∀ w ∈ t.sup.waitAct, w.1 ≠ 256 * k.val + m.slot) ∧
      t.cyc = s.cyc ∧ t.out = s.out ∧ t.md = s.md)) ∧
  (∀ (k : Fin 2) (s : State), (vget s.ring.rings k.val).mgmt.find? (·.sent) = none → exec (.mgmtTimeout k) s = .next s)

/-- Cross-link containers (R261 to R265): in its slot a module that may send puts a container with its count and CRC on both lanes, its committed transmit
cells in `RUN`, zeros in `SAFE_HOLD`; an accepted copy is kept, one that fails counts for its lane, and two accepted copies that differ are both unused.
Where the spec leaves a point open the model's choices hold (notes/assumptions: 41, 61). -/
def Obligations.CrossLinkContainers : Prop :=
  ∀ (svc clb : Bool) (slot : Fin 16) (ws : List Word) (s : State),
    (xlSends s = true → s.xl.mid < 8 → ∃ t w, exec (.xlSlot svc) s = .next t ∧ xlAccepts (2 * s.xl.mid + b2n svc) s.xl.pcnt true w = true ∧
      (svc = true → t.xl.txSvc = w ∧ t.xl.txData = s.xl.txData) ∧
      (svc = false → t.xl.txData = w ∧ t.xl.txSvc = s.xl.txSvc ∧
        (s.md.mstate = .run → (w.drop 1).take 32 = (List.range 32).map fun i => Mem.read 0 s.cyc.committed (0x4020 + i)) ∧
        (s.md.mstate = .safeHold → (w.drop 1).take 32 = List.replicate 32 0)) ∧
      t.xl.copies = s.xl.copies ++ [{ slot := 2 * s.xl.mid + b2n svc, clb := false, words := w }, { slot := 2 * s.xl.mid + b2n svc, clb := true, words := w }] ∧
      onlyChanges [.xl, .time, .tmr] s t) ∧
    (xlSends s = false → ∃ t, exec (.xlSlot svc) s = .next t ∧ onlyChanges [.time, .tmr] s t) ∧
    (xlAccepts slot.val s.xl.pcnt (onCarrier s) ws = true →
      ((∀ c ∈ s.xl.copies, c.slot = slot.val → c.clb = clb) → exec (.xlContainerReceive slot clb ws) s =
        .next { s with xl := { s.xl with copies := s.xl.copies ++ [{ slot := slot.val, clb := clb, words := ws }] } }) ∧
      (∀ c, s.xl.copies = [c] → c.slot = slot.val → c.clb ≠ clb → c.words ≠ ws → slot.val ∉ s.xl.clash → ∃ t, exec (.xlContainerReceive slot clb ws) s = .next t ∧
        usable t slot.val = none ∧ t.xl.evt = s.xl.evt ||| BitVec.twoPow 32 1 ∧ onlyChanges [.xl, .evr, .hp, .keep, .mem] s t)) ∧
    (ws.length ≠ 34 ∨ lget ws 33 0 ≠ xlCrc slot.val ws → exec (.xlContainerReceive slot clb ws) s = .next { s with xl := { s.xl with
      evt := s.xl.evt ||| BitVec.twoPow 32 0, claErr := if clb then s.xl.claErr else satUp s.xl.claErr, clbErr := if clb then satUp s.xl.clbErr else s.xl.clbErr } })

/-- Master, join, stop and kill (R258 to R260, R268, R269, R271, R274): a follower's next t0 moves by the error of the pulse, at most 32 ticks, and locks within them; a follower that
missed 4 + 4m pulses, or heard none until its join timeout, becomes acting cycle master; a module that has observed and locked for 16 cycles joins, second if its partner is there, and one with a cause does not;
a kill line found low at the join of a pair leads to `FAULT` 0x27; `CLSTOP` low at two t0 is cause 0x14; a kill received in pair mode leads to `FAULT` 0x27, one asserted ends after the partner's absence of 16 cycles, and the line received when the partner releases it; a test output found dark outside the owner's schedule is taken over.
Where the spec leaves a point open the model's choices hold (notes/assumptions: 60, 61, 88, 105). -/
def Obligations.CrossLinkMastersJoinsAndKills : Prop :=
  ∀ (m : Fin 8) (at_ : Nat) (k : Fin 16) (s : State),
    let ev := [Blk.xl, .evr, .hp, .keep, .mem]
    let kill := pairMode s && s.xl.killIn
    let alive := s.md.mstate ∈ [.starting, .run, .quiet, .safeHold]
    (s.xl.acting = true → exec (.clsyncEdge m at_) s = .next s) ∧
    (∀ e : Int, s.xl.acting = false →
      e = (if tickDist at_ s.cyc.nextT0 < tickDist at_ s.cyc.lastT0 then (at_ : Int) - s.cyc.nextT0 else (at_ : Int) - s.cyc.lastT0) →
      ∃ t, exec (.clsyncEdge m at_) s = .next t ∧ t.cyc = { s.cyc with nextT0 := ((s.cyc.nextT0 : Int) + max (-32) (min 32 e)).toNat } ∧
        t.xl.locked = (decide (e.natAbs ≤ 32) && s.cyc.running) ∧ t.xl.stamp = at_ ∧ t.xl.pulse = true ∧ t.xl.absent = 0 ∧ t.xl.actMaster = m.val ∧
        onlyChanges (.cyc :: ev) s t) ∧
    (s.xl.acting = false → s.xl.joined = true ∨ (s.xl.sawSync = true ∧ s.xl.joinFailed = false ∧ kill = false) → 4 + 4 * s.xl.mid ≤ s.xl.absent → s.xl.pulse = false →
      ∃ t, exec .clsyncTimeout s = .next t ∧ t.xl.acting = true ∧ t.xl.joined = true ∧ t.xl.actMaster = s.xl.mid ∧ t.xl.locked = true ∧ onlyChanges ev s t) ∧
    (s.xl.acting = true ∨ s.xl.absent < 4 + 4 * s.xl.mid ∨ s.xl.pulse = true ∨ (s.xl.joined = false ∧ (s.xl.sawSync = false ∨ s.xl.joinFailed = true)) → exec .clsyncTimeout s = .next s) ∧
    (s.xl.acting = false → s.xl.joined = false → s.xl.sawSync = false → s.cyc.running = true →
      (kill = false → ∃ t, exec .joinTimeout s = .next t ∧ t.xl.acting = true ∧ t.xl.joined = true ∧ t.xl.actMaster = s.xl.mid ∧ onlyChanges (.time :: .tmr :: ev) s t) ∧
      (kill = true → alive → ∃ t, exec .joinTimeout s = .next t ∧ t.md.mstate = .fault ∧ t.md.cause = 0x27 ∧ mastersOpen t = true)) ∧
    (s.xl.acting = false → s.xl.joined = false → 16 ≤ s.xl.observed →
      (joinCause s = none → s.xl.locked = true → 16 ≤ s.xl.lockRun →
        (kill = false → ∃ t, exec .xlJoin s = .next t ∧ t.xl = { s.xl with joined := true, joinFailed := false, unlockRun := 0, second := (svcOf s (partnerMid s)).isSome } ∧
          (pairDiffers s = false → t = { s with xl := t.xl }) ∧
          (pairDiffers s = true → s.md.mstate = .run → 0x12#8 ∉ s.md.recorded → 0x12#8 ∈ t.md.holdPend) ∧ onlyChanges (.md :: ev) s t) ∧
        (kill = true → alive → ∃ t, exec .xlJoin s = .next t ∧ t.md.mstate = .fault ∧ t.md.cause = 0x27 ∧ mastersOpen t = true)) ∧
      (∀ c, joinCause s = some c → s.xl.joinFailed = false → ∃ t, exec .xlJoin s = .next t ∧ t.xl = { s.xl with joinFailed := true, evt := s.xl.evt ||| BitVec.twoPow 32 9 } ∧
        (s.md.mstate = .run → c ∈ t.md.holdPend) ∧ onlyChanges (.md :: ev) s t)) ∧
    (s.xl.stopRcv = true → 2 ≤ s.xl.stopRun → s.md.mstate = .run ∨ s.md.mstate = .quiet → 0x14#8 ∉ s.md.holdPend → 0x14#8 ∉ s.md.recorded →
      ∃ t, exec .clstopDetect s = .next t ∧ t.md = { s.md with holdPend := s.md.holdPend ++ [0x14] } ∧ t.xl.evt = s.xl.evt ||| BitVec.twoPow 32 5 ∧ onlyChanges [.md, .xl] s t) ∧
    (s.xl.stopRcv = false ∨ s.xl.stopRun < 2 → exec .clstopDetect s = .next s) ∧
    (pairMode s = false → exec .killReceive s = .next { s with xl := { s.xl with killIn := true } }) ∧
    (pairMode s = true → alive → ∃ t, exec .killReceive s = .next t ∧ FaultEntered 0x27 s t ∧ t.xl.killIn = true) ∧
    exec (.killRelease true) s = .next { s with xl := { s.xl with killIn := false } } ∧
    (s.xl.killOut = true → 16 ≤ s.xl.killGone → exec (.killRelease false) s = .next { s with xl := { s.xl with killOut := false, killGone := 0 } }) ∧
    (s.xl.killOut = false ∨ s.xl.killGone < 16 → exec (.killRelease false) s = .next s) ∧
    (pairMode s = true → s.xl.toMask.getLsbD k.val = false → ∃ t, exec (.toTakeover k) s = .next t ∧
      t.xl = { s.xl with toMask := s.xl.toMask ||| BitVec.twoPow 16 k.val, evt := s.xl.evt ||| BitVec.twoPow 32 8 } ∧ onlyChanges ev s t) ∧
    (pairMode s = false ∨ s.xl.toMask.getLsbD k.val = true → exec (.toTakeover k) s = .next s)

/-! ## Event recorder and memory protection (15 R379 to R394; 18 R445 to R456) -/

/-- Posting (R379, R386, R388): an occurrence with the key of an entry in the front queue merges with it, else with the key of a record written less than 10 s
ago; else it becomes an entry, or, in a full queue in which nothing is less severe, counts in the queue's overflow. No other block changes. Records (R383, R385 to R387, R392, R455): the entry due first is written into a slot that no other record of its area holds, under the next number of its class,
and leaves the queue; a page whose verify fails is remapped to the next spare page; a record with pending repeats is rewritten with them and keeps its number;
10 s after its last occurrence a record leaves the coalescing table; nothing is written while the NV-write inhibit holds.
Where the spec leaves a point open the model's choices hold (notes/assumptions: 51, 52). -/
def Obligations.EventsMergeAndAreWritten : Prop :=
  (∀ (code inst : Half) (data : List Byte) (s : State),
    let key := evKey code.toNat inst.toNat data
    let tab := if key.safety then s.evr.coS else s.evr.coO
    evListed code.toNat = true → s.evr.stopped = false → s.evr.flushing = false → s.md.mstate ≠ .off → (evFirmware code.toNat = true → s.sup.sup = .serving) →
    (∀ pre x post, s.evr.queue = pre ++ x :: post → x.key = key → (∀ e ∈ pre, e.key ≠ key) →
      exec (.eventPost code inst data) s = .next { s with evr := { s.evr with queue := pre ++ { x with rep := x.rep + 1, last := now s } :: post } }) ∧
    ((∀ e ∈ s.evr.queue, e.key ≠ key) →
      (∀ pre c post, tab = pre ++ c :: post → c.key = key → (∀ d ∈ pre, d.key ≠ key) → now s < c.last + 160000000 → lastOfs c.first (now s) ≤ 2 ^ 32 - 1 → s.evr.konly = false →
        ∃ t, exec (.eventPost code inst data) s = .next t ∧ t.evr.queue = s.evr.queue ∧
          (if key.safety then t.evr.coS else t.evr.coO) = pre ++ { c with last := now s, pend := c.pend + 1, firstPend := if c.pend = 0 then now s else c.firstPend } :: post ∧
          t.evr.recS = s.evr.recS ∧ t.evr.recK = s.evr.recK ∧ t.evr.recC = s.evr.recC ∧ onlyChanges [.evr] s t) ∧
      ((∀ c ∈ tab, c.key ≠ key) →
        (s.evr.queue.length < 256 → exec (.eventPost code inst data) s =
          .next { s with evr := { s.evr with queue := s.evr.queue ++ [{ key := key, first := now s, last := now s }] } }) ∧
        (256 ≤ s.evr.queue.length → (∀ e ∈ s.evr.queue, key.sev ≤ e.key.sev) → ∃ t, exec (.eventPost code inst data) s = .next t ∧ t.evr.queue = s.evr.queue ∧
          t.evr.qovf = satAdd s.evr.qovf 1 ∧ t.evr.evt = s.evr.evt ||| 4#32 ∧ onlyChanges [.evr] s t)))) ∧
  (∀ (w : RecWrite) (s : State),
    (∀ x, firstDue s.evr.queue = some x → s.pwr.inhibit = false → s.evr.konly = false → s.evr.sumS = none → s.evr.sumO = none →
      (x.key.safety = true → s.evr.recS.length < 65536 → w.ok = true → ∃ t r, exec (.recordWrite w) s = .next t ∧ t.evr.recS = s.evr.recS ++ [r] ∧ t.evr.seqS = s.evr.seqS + 1 ∧
        r.seq = s.evr.seqS + 1 ∧ r.key = x.key ∧ r.first = x.first ∧ r.lastOfs = lastOfs x.first x.last ∧ r.rep = min x.rep 65535 ∧ (∀ y ∈ s.evr.recS, y.slot ≠ r.slot) ∧
        t.evr.queue = dropEntry x s.evr.queue ∧ t.evr.recK = s.evr.recK ∧ t.evr.recC = s.evr.recC ∧ t.evr.seqO = s.evr.seqO ∧ onlyChanges [.evr, .hp, .time, .tmr] s t) ∧
      (x.key.safety = false → s.evr.recK.length < 16384 → w.ok = true → ∃ t r, exec (.recordWrite w) s = .next t ∧ t.evr.recK = s.evr.recK ++ [r] ∧ t.evr.seqO = s.evr.seqO + 1 ∧
        r.seq = s.evr.seqO + 1 ∧ r.key = x.key ∧ r.first = x.first ∧ (∀ y ∈ s.evr.recK, y.slot ≠ r.slot) ∧ t.evr.queue = dropEntry x s.evr.queue ∧
        t.evr.recS = s.evr.recS ∧ t.evr.seqS = s.evr.seqS ∧ onlyChanges [.evr, .time, .tmr] s t) ∧
      (x.key.safety = true → s.evr.recS.length < 65536 → w.ok = false → w.lost = [] → s.evr.remap.length < 64 → ∃ t r, exec (.recordWrite w) s = .next t ∧ r ∈ t.evr.recS ∧
        r.seq = s.evr.seqS + 1 ∧ r.key = x.key ∧ t.evr.remap = s.evr.remap ++ [(r.slot / 128, s.evr.remap.length)] ∧ t.evr.evt.getLsbD 4 = true ∧
        onlyChanges [.evr, .hp, .keep, .mem, .time, .tmr] s t)) ∧
    (∀ x, firstDue s.evr.queue = some x → s.pwr.inhibit = true → ∃ t, exec (.recordWrite w) s = .next t ∧ t.evr = { s.evr with queue := dropEntry x s.evr.queue } ∧
      t.mem = { s.mem with inhibited := satUp s.mem.inhibited } ∧ onlyChanges [.evr, .mem, .time, .tmr] s t) ∧
    (∀ c, nextRewrite (s.evr.coS ++ s.evr.coO) = some c → w.ok = true → s.pwr.inhibit = false → s.evr.konly = false → c.key.safety = true → ∃ t,
      exec (.recordRewrite w) s = .next t ∧ t.evr.queue = s.evr.queue ∧ t.evr.seqS = s.evr.seqS ∧
      t.evr.recS = s.evr.recS.map (fun r => if r.seq = c.seq then { r with rep := min (c.rep + c.pend) 65535, lastOfs := lastOfs c.first c.last } else r) ∧
      t.evr.recK = s.evr.recK ∧ t.evr.recC = s.evr.recC ∧ onlyChanges [.evr, .time, .tmr] s t) ∧
    (∀ o, oldestCo (s.evr.coS ++ s.evr.coO) = some o → (∀ c ∈ s.evr.coS ++ s.evr.coO, c.pend = 0) → ∃ t, exec .coalesceExpire s = .next t ∧
      t.evr = { s.evr with coS := s.evr.coS.filter (fun c => now t < c.last + 160000000), coO := s.evr.coO.filter (fun c => now t < c.last + 160000000) } ∧
      onlyChanges [.evr, .time, .tmr] s t))

/-- Scrubbing (R447, R451, R452, R456): a scrub step goes to the next MRAM word; a clean word changes nothing else, a corrected one is counted and told with its symbol's position;
a completed pass ends the run of missed periods, and at the end of a period without one the miss counts.
Where the spec leaves a point open the model's choices hold (notes/assumptions: 110). -/
def Obligations.ScrubbingGoesOn : Prop :=
  ∀ (raw : BitVec 44) (syn : Byte) (b : Fin 36) (s : State),
    let w := s.mem.scrubPos.toNat
    (∀ d, rsDecode (foldMram w) raw = .clean d → exec (.mramScrub raw syn) s = .next { s with mem := { s.mem with
      scrubPos := s.mem.scrubPos + 1, scrubPassed := s.mem.scrubPassed || s.mem.scrubPos == BitVec.allOnes 23
      scrubMissed := if s.mem.scrubPos = BitVec.allOnes 23 then 0 else s.mem.scrubMissed } }) ∧
    (∀ d p, rsDecode (foldMram w) raw = .corrected d p → ∃ t, exec (.mramScrub raw syn) s = .next t ∧ t.mem.scrubPos = s.mem.scrubPos + 1 ∧ t.mem.mCorr = satUp s.mem.mCorr ∧
      t.mem.lastInst = mramInst w ∧ t.mem.lastKind = 0 ∧ t.mem.lastPos = p ∧ t.mem.lastAddr = BitVec.ofNat 32 w ∧ t.mem.evt = s.mem.evt ||| 128#32 ∧
      t.mem.banks = s.mem.banks ∧ onlyChanges [.evr, .hp, .keep, .mem] s t) ∧
    ((vget s.mem.banks b.val).passed = true → exec (.scrubPeriodEnd (some b)) s = .next { s with mem := { s.mem with
      banks := vmod s.mem.banks b.val fun k => { k with passed := false, missed := 0 } } }) ∧
    ((vget s.mem.banks b.val).passed = false → ∃ t, exec (.scrubPeriodEnd (some b)) s = .next t ∧
      t.mem.banks = (vmod s.mem.banks b.val fun k => { k with missed := satUp k.missed }) ∧ t.mem.evt = s.mem.evt ||| BitVec.twoPow 32 6 ∧
      onlyChanges [.evr, .hp, .keep, .mem] s t) ∧
    (s.mem.scrubPassed = true → exec (.scrubPeriodEnd none) s = .next { s with mem := { s.mem with scrubPassed := false, scrubMissed := 0 } }) ∧
    (s.mem.scrubPassed = false → ∃ t, exec (.scrubPeriodEnd none) s = .next t ∧ t.mem.scrubMissed = satUp s.mem.scrubMissed ∧ t.mem.scrubPassed = false ∧ t.mem.banks = s.mem.banks ∧
      onlyChanges [.evr, .hp, .keep, .mem] s t)

/-- The symbol code (R445, R447): a word stored with its check symbols reads back clean at its own folded address; with any one of its eleven stored symbols wrong it
reads back corrected, with that symbol's position; at an address that differs in one symbol it is an address error and answers no data. -/
def Obligations.OneWrongSymbolIsCorrected : Prop :=
  ∀ f d e, f < 65536 → d < 2 ^ 32 → 0 < e → e < 16 →
    rsDecode f (rsEncode f d) = .clean d ∧
    (∀ j < 11, rsDecode f (rsEncode f d ^^^ BitVec.ofNat 44 (e * 16 ^ j)) = .corrected d ((j + 3) % 11)) ∧
    ∀ j < 4, rsDecode (f ^^^ (e * 16 ^ j)) (rsEncode f d) = .address

/-! ## Supplies, start-up and shut-down (19 R458 to R462, R473; 20 R474 to R490) -/

/-- Supplies (R458 to R460, R462, R473, R490): each sample enters the power registers; VLOG below 16.8 V and above 33.0 V is told once until it ends; below 15.0 V the core runs from VHU, and
a dip ridden through is counted; a low hold-up bank is told once; the NV-write inhibit holds while VHU or 3V3 is below its threshold; below 2.90 V the keeper is reset and the module is `OFF`; VCORE outside
its window and VLOG below 15.0 V shut the module down.
Where the spec leaves a point open the model's choices hold (notes/assumptions: 10, 56). -/
def Obligations.SuppliesAreJudged : Prop :=
  ∀ (r : Rails) (s : State),
    let v := r.vlog.toNat
    let runs := s.md.mstate ∈ [.starting, .run, .quiet, .safeHold, .fault]
    let sampled (t : State) : Prop := t.pwr.vlog = r.vlog ∧ t.pwr.vhu = r.vhu ∧ t.pwr.v3v3 = r.v3v3 ∧ t.pwr.vcore = r.vcore ∧ t.pwr.tj = r.tj ∧
      t.pwr.vlogOk = decide (1500 < v) ∧ t.pwr.huReady = decide (2700 ≤ r.vhu.toNat)
    let ev := [Blk.pwr, .evr, .hp, .keep, .mem]
    (v < 1680 → s.pwr.vlogLowIn = false → ∃ t, exec (.vlogLow r) s = .next t ∧ sampled t ∧ t.pwr.vlogLowIn = true ∧ t.pwr.evt = s.pwr.evt ||| BitVec.twoPow 32 0 ∧ onlyChanges ev s t) ∧
    (1700 < v → s.pwr.vlogLowIn = true → ∃ t, exec (.vlogLow r) s = .next t ∧ sampled t ∧ t.pwr.vlogLowIn = false ∧ t.pwr.evt = s.pwr.evt ∧ onlyChanges ev s t) ∧
    (3300 < v → s.pwr.vlogLowIn = false → s.pwr.vlogHighIn = false → ∃ t, exec (.vlogLow r) s = .next t ∧ sampled t ∧ t.pwr.vlogHighIn = true ∧
      t.pwr.evt = s.pwr.evt ||| BitVec.twoPow 32 2 ∧ onlyChanges ev s t) ∧
    (1680 ≤ v → v < 3250 → s.pwr.vlogLowIn = false → s.pwr.vlogHighIn = true → ∃ t, exec (.vlogLow r) s = .next t ∧ sampled t ∧ t.pwr.vlogHighIn = false ∧ onlyChanges [.pwr] s t) ∧
    (v < 1500 → s.md.mstate ≠ .off → ∃ t, exec (.vlogDip r) s = .next t ∧ sampled t ∧ t.pwr.onHu = true ∧ t.pwr.dips = s.pwr.dips ∧ onlyChanges [.pwr] s t) ∧
    (1500 < v → s.pwr.onHu = true → s.md.mstate ≠ .shuttingDown → ∃ t, exec (.vlogRecover r) s = .next t ∧ sampled t ∧ t.pwr.onHu = false ∧ t.pwr.dips = satUp s.pwr.dips ∧
      t.pwr.evt = s.pwr.evt ||| BitVec.twoPow 32 1 ∧ onlyChanges ev s t) ∧
    (1500 < v → s.pwr.onHu = false → r.vhu.toNat < 2700 → s.pwr.huLow = false → ∃ t, exec (.huLow r) s = .next t ∧ sampled t ∧ t.pwr.huLow = true ∧
      t.pwr.evt = s.pwr.evt ||| BitVec.twoPow 32 3 ∧ onlyChanges ev s t) ∧
    (1500 < v → s.pwr.onHu = false → 2700 ≤ r.vhu.toNat → ∃ t, exec (.huLow r) s = .next t ∧ sampled t ∧ t.pwr.huLow = false ∧ onlyChanges [.pwr] s t) ∧
    (r.vhu.toNat < 900 ∨ r.v3v3.toNat < 3100 → ∃ t, exec (.nvInhibit r) s = .next t ∧ sampled t ∧ t.pwr.inhibit = true ∧ onlyChanges ev s t) ∧
    (900 ≤ r.vhu.toNat → 3100 ≤ r.v3v3.toNat → ∃ t, exec (.nvInhibitClear r) s = .next t ∧ sampled t ∧ t.pwr.inhibit = false ∧ onlyChanges [.pwr] s t) ∧
    (r.v3v3.toNat < 2900 → ∃ t, exec (.keeperReset r) s = .next t ∧ t.md.mstate = .off ∧ t.pwr.keeperDown = true ∧ t.pwr.inhibit = true ∧ mastersOpen t = true ∧ t.cyc.committed = [] ∧
      t.log = s.log ∧ t.fuse = s.fuse ∧ t.keep.journal = s.keep.journal ∧ t.evr.recS = s.evr.recS ∧ t.nv.img = s.nv.img) ∧
    (runs → v < 1500 ∨ (s.pwr.onHu = true ∧ r.vhu.toNat < 2700) → ∃ t, exec (.shutdownTrigger r) s = .next t ∧ ShutBegun .supply s t) ∧
    (runs → r.vcore.toNat < 855 ∨ 945 < r.vcore.toNat → ∃ t, exec (.vcoreFault r) s = .next t ∧ t.md.mstate = .shuttingDown ∧ t.md.shut = some .vcore ∧ t.md.shutBist = false ∧
      mastersOpen t = true ∧ t.evr.stopped = true ∧ t.pwr.evt.getLsbD 5 = true ∧ t.fuse = s.fuse ∧ t.log = s.log)

/-- Start-up (R19, R283, R475, R476, R481, R489): `POWER_ON` leaves `OFF` for step 1 with TBASE going on, or set to the next multiple of 2^36 above what the keeper recorded; steps 1, 3, 4, 8, 9 and 10 that find no
cause are followed by the next; a failing keeper or no supervisor bank that verifies leads to `FAULT`; `SCRAPPED` stops in step 3; the first t0 belongs to step 8; the t0 at which every condition of step 11
holds leads to `RUN`, or to `SAFE_HOLD` with the first cause found.
Where the spec leaves a point open the model's choices hold (notes/assumptions: 54, 55). -/
def Obligations.StartUpGoesStepByStep : Prop :=
  ∀ (unpowered : Bool) (r : Rails) (e : StepEnv) (s : State),
    (let fresh := unpowered || s.pwr.keeperDown;
      s.md.mstate = .off → 1600 < r.vlog.toNat → fresh = true ∨ s.md.offLatched = false → unpowered = true ∨ 3100 < r.v3v3.toNat → ∃ t, exec (.powerOn unpowered r) s = .next t ∧
        t.md.mstate = .starting ∧ t.md.startStep = 1 ∧ t.cyc.running = false ∧ t.cyc.committed = [] ∧ mastersOpen t = true ∧ t.sess.owner = none ∧ t.image = none ∧
        t.log = s.log ∧ t.fuse.a = s.fuse.a ∧ t.fuse.b = s.fuse.b ∧ t.nv.img = s.nv.img ∧ t.evr.recS = s.evr.recS ∧
        (fresh = true → epochAbove (maxRecorded s) < 2 ^ 64 → now t = epochAbove (maxRecorded s)) ∧ (fresh = false → s.time.tclkRun = false → now t = now s)) ∧
    (s.md.mstate = .starting → s.md.scrapped = false → e.cap = none →
      (s.md.startStep = 1 →
        (e.keeperOk = true → 2700 ≤ e.rails.vhu.toNat → ∃ t, exec (.startupStep e) s = .next t ∧ t.md = { s.md with startStep := 2 } ∧ t.xl = { s.xl with mid := s.xl.strap.toNat } ∧
          t.pwr.goscOk = true ∧ onlyChanges [.md, .xl, .pwr] s t) ∧
        (e.keeperOk = false → ∃ t, exec (.startupStep e) s = .next t ∧ FaultEntered 0x26 s t)) ∧
      (s.md.startStep = 2 → ∃ t, exec (.startupStep e) s = .next t ∧ t.fuse.sensed = true ∧ (t.md.startStep = 3 → inForce t 0 = 1 ∧ inForce t 1 = 1) ∧
        (t.md.startStep ≠ 3 → t.md.mstate = .fault ∧ t.md.cause = 0x26) ∧ t.fuse.a = s.fuse.a ∧ t.fuse.b = s.fuse.b) ∧
      (s.md.startStep = 3 → ∃ t, exec (.startupStep e) s = .next t ∧ t.md = (if s.fuse.lc = 4 then { s.md with scrapped := true } else { s.md with startStep := 4 }) ∧ onlyChanges [.md, .pwr] s t) ∧
      (s.md.startStep = 4 → bankBoots s s.sup.prefer = false → bankBoots s (!s.sup.prefer) = false → ∃ t, exec (.startupStep e) s = .next t ∧ FaultEntered 0x23 s t) ∧
      (s.md.startStep = 4 → bankBoots s s.sup.prefer = true → s.time.tclkRun = false → s.time.phase < 32 → ∃ t, exec (.startupStep e) s = .next t ∧ t.md.startStep = 5 ∧ t.sup.bank = s.sup.prefer ∧ t.sup.sup = .serving ∧
        t.time.tclkRun = true ∧ t.time.phase = 0 ∧ t.pwr.xoOk = true) ∧
      (s.md.startStep = 8 → ∃ t, exec (.startupStep e) s = .next t ∧ t.md.startStep = 9 ∧ t.cyc.running = true ∧ t.cyc.open_ = false ∧
        t.cyc.nextT0 = now t + periodTicks t.cyc.tcyc ∧ t.md.committedCycles = 0 ∧ t.md.mstate = .starting) ∧
      (s.md.startStep = 9 → ∃ t, exec (.startupStep e) s = .next t ∧ t.md = { s.md with startStep := 10 } ∧ t.xl = { s.xl with joinFrom := now s } ∧ onlyChanges [.md, .xl, .pwr] s t) ∧
      (s.md.startStep = 10 → ∃ t, exec (.startupStep e) s = .next t ∧ t.md.startStep = 11 ∧ t.md.mstate = .starting ∧ t.cyc = s.cyc)) ∧
    (cyclesRun s = true → s.cyc.open_ = false → s.cyc.p3Due = false → startReady (advanceTo s.cyc.nextT0 s) = true →
      (s.md.holdPend = [] → ∃ t, exec .startupComplete s = .next t ∧ t.md.mstate = .run ∧ t.md.cause = 0 ∧ t.md.startStep = 12 ∧ t.cyc.committed = s.cyc.committed ∧
        (pairMode s = false → t.md.qualPartner = false) ∧ onlyChanges [.md, .evr, .hp, .keep, .mem, .out, .pwr, .time, .tmr] s t) ∧
      (∀ c l, s.md.holdPend = c :: l → ∃ t, exec .startupComplete s = .next t ∧ t.md.mstate = .safeHold ∧ t.md.cause = c ∧ mastersOpen t = true))

/-- Shut-down (R484, R485, R487 to R489): a shut-down that was asked for begins; its BIST ends with every part that is still running as failed and every pool bank passed unless its march failed; the
sequence ends in `OFF`, with the shut-down record written, or in a new start when VLOG is above 16.0 V, 3V3 above 3.10 V, and it was not `KP_SHUTDOWN`. Fuses, change log and stored images stay.
Where the spec leaves a point open the model's choices hold (notes/assumptions: 59). -/
def Obligations.ShutDownEnds : Prop :=
  ∀ (k : ShutKind) (bad : List (Fin 36)) (r : Rails) (s : State),
    (s.md.shutReq = some k → s.md.mstate ∈ [.starting, .run, .quiet, .safeHold, .fault] → ∃ t, exec .shutdownEnter s = .next t ∧ ShutBegun k s t) ∧
    (s.md.shutBist = true → s.cyc.running = false → ∃ t, exec (.shutdownBistEnd bad) s = .next t ∧ t.md.shutBist = false ∧ t.md.shutRan = true ∧
      (∀ i < 5, (laneOf s i).role ≠ .retired → vget t.md.shutLanes i = if vget s.md.shutLanes i = .none then .fail else vget s.md.shutLanes i) ∧
      (∀ u < 18, (vget s.mm.units u).role ≠ .retired → vget t.md.shutUnits u = if vget s.md.shutUnits u = .none then .fail else vget s.md.shutUnits u) ∧
      (∀ b : Fin 36, vget t.md.shutBanks b.val = if b ∈ bad then .fail else .pass) ∧ t.md.mstate = s.md.mstate ∧ t.md.shut = s.md.shut ∧
      onlyChanges [.md, .pwr, .time, .tmr] s t) ∧
    (s.md.shutBist = false → exec (.shutdownBistEnd bad) s = .next s) ∧
    (s.md.mstate = .shuttingDown → s.md.shut = some k → s.cyc.running = false → ∃ t, exec (.shutdownComplete r) s = .next t ∧
      t.md.mstate = (if k ≠ .kpShutdown ∧ 1600 < r.vlog.toNat ∧ 3100 < r.v3v3.toNat then .starting else .off) ∧ (t.md.mstate = .off → t.md.offLatched = decide (k = .kpShutdown)) ∧
      (s.pwr.inhibit = false → ∃ x ∈ t.keep.journal, x.kind = 3) ∧ mastersOpen t = true ∧ t.cyc.committed = [] ∧
      t.log = s.log ∧ t.fuse.a = s.fuse.a ∧ t.fuse.b = s.fuse.b ∧ t.nv.img = s.nv.img ∧ t.evr.recS = s.evr.recS)

/-! ## The LEDs (21 R500 to R503) -/

/-- The degraded condition is the ten conditions of R500 together. The LEDs (R501 to R503): the patterns by their times; in each state of the module the patterns
of RUN, SAFE and FAULT, and those of the rings by their state; all five are on for 200 ms from start-up step 1, RUN, SAFE and FAULT for 1 s when a presence window opens, and RUN flashes
twice while it stays open; a keeper firmware switch holds them; the supervisor does not matter.
Where the spec leaves a point open the model's choices hold (notes/assumptions: 107). -/
def Obligations.LedsShowTheModule : Prop :=
  (∀ s : State, degraded s = true ↔
    (∃ k < 5, (laneOf s k).role = .retired) ∨ (∃ i < 4, (llOf s i).lane = none ∨ (llOf s i).stateFault = true) ∨
    (∃ u < 18, (vget s.mm.units u).role = .retired) ∨ (∃ n < 16, (vget s.mm.mons n).used = true ∧ (vget s.mm.mons n).unit = none) ∨
    (∃ g < 2, (vget s.out.grps g).latches ≠ []) ∨ (∃ b < 36, (vget s.mem.banks b).degraded = true) ∨ s.evr.konly = true ∨ s.pwr.huWeak = true ∨
    (∃ k < 2, (0 < nCfg s k ∧ (ringOf s k).state ∈ [0, 3, 4]) ∨ ∃ i < 256, (nodeOf s (256 * k + i)).conn = 6) ∨
    (∃ m < 8, s.xl.known.getLsbD m = true ∧ s.xl.present.getLsbD m = false) ∨ s.fuse.shadowMis = true) ∧
  (∀ t : Nat,
    (LedPat.off.lit t = false ∧ LedPat.on.lit t = true) ∧ (LedPat.slow.lit t = true ↔ t % 1000 < 500) ∧ (LedPat.fast.lit t = true ↔ t % 250 < 125) ∧
    (LedPat.flash.lit t = true ↔ t % 1000 < 100) ∧ (LedPat.double.lit t = true ↔ t % 1000 < 100 ∨ (200 ≤ t % 1000 ∧ t % 1000 < 300))) ∧
  (∀ (x : SupBlk) (k : Fin 2) (s : State),
    let l := leds s
    let starts := s.md.mstate ≠ .off ∧ now s < s.md.ledStart + 3200000
    let opens := ∃ t, s.md.ledWindow = some t ∧ now s < t + 16000000
    let held := s.md.mstate = .run ∧ ((∃ g < 2, (vget s.out.grps g).master = false) ∨ s.cyc.llSafe ≠ 0 ∨ ∃ t, s.md.safeSeen = some t ∧ now s < t + 16000000)
    let ring := if k.val = 0 then l.ring0 else l.ring1
    let warn : LedPat := if degraded s then .flash else .off
    leds { s with sup := x } = l ∧
    (∀ y, s.md.ledHold = some y → l = y) ∧
    (s.md.ledHold = none → starts → l = { run := .on, safe := .on, fault := .on, ring0 := .on, ring1 := .on }) ∧
    (s.md.ledHold = none → ¬starts → opens → l.run = .on ∧ l.safe = .on ∧ l.fault = .on) ∧
    (s.md.ledHold = none → ¬starts → ¬opens → l.safe = (match s.md.mstate with
        | .off | .quiet => .off | .starting | .shuttingDown | .fault => .on | .safeHold => .slow | .run => l.safe) ∧
      (s.md.mstate = .run → (held → l.safe = .on) ∧ (¬held → l.safe = .off)) ∧
      l.fault = (match s.md.mstate with
        | .off | .shuttingDown => .off | .starting => if s.md.scrapped then .slow else .off | .run | .quiet | .safeHold => warn | .fault => .on) ∧
      (windowOpen s = true → s.md.mstate ≠ .off → s.md.mstate ≠ .shuttingDown → l.run = .double) ∧
      (windowOpen s = false ∨ s.md.mstate = .off ∨ s.md.mstate = .shuttingDown → l.run = match s.md.mstate with
        | .starting => if s.md.scrapped then .off else .fast | .run => .on | .quiet => .flash | .off | .safeHold | .shuttingDown | .fault => .off)) ∧
    (s.md.ledHold = none → ¬starts → ring = if s.md.mstate = .off then .off else match (ringOf s k.val).state with
      | 0 => if 0 < nCfg s k.val then .fast else .off | 1 => .flash | 2 => .on | 3 => .slow | 4 => .fast | _ => .off))

/-! ## The machine as a whole -/

/-- Registers at reset, as the register tables give them for the fields with a reset value of their own (02 R46, 03 R85, 06 R169, 07 R193, 08 R218, 09 R255, 10 R281, 11 R299, 15 R394, 18 R456,
19 R473), and the state they stand for (R12, R21): `STARTING` in step 1, masters open, outputs 0, no session, no cycle, clocks off, interrupts masked, events to ring 64.
Fields loaded from configuration, fuses and keeper read 0, or what a machine without a configuration has: the model's choice (notes/assumptions/3.md). At reset the memories are in canonical form and both masters are open and the change log is empty, so the invariants below begin.
Where the spec leaves a point open the model's choices hold (notes/assumptions: 22). -/
def Obligations.MachineAtReset : Prop :=
  (let reg (w o : Nat) : Nat := (readReg w o State.reset).1
  let s := State.reset
  (reg 2 0x00 = 0x1F7777 ∧ reg 2 0x04 = 0x43210 ∧ reg 2 0x50 = 0x1C00 ∧ reg 2 0x70 = 0 ∧ ∀ k < 5, reg 2 (0x10 + 4 * k) = 0x70) ∧
  (reg 3 0x04 = 0x7C00 ∧ (∀ n < 16, reg 3 (0x10 + 4 * n) = 0x101F) ∧ ∀ u < 18, reg 3 (0x60 + 4 * u) = 0xF8) ∧
  (reg 4 0x004 = 0 ∧ (∀ n < 32, reg 4 (0x200 + 4 * n) = 0 ∧ reg 4 (0x300 + 4 * n) = 0x1F ∧ reg 4 (0x400 + 4 * n) = 0) ∧ ∀ k < 8, reg 4 (0x580 + 4 * k) = 0 ∧ reg 4 (0x5A0 + 4 * k) = 0) ∧
  ((∀ g < 2, reg 5 (0x10 + 4 * g) = 0x1F000) ∧ (∀ n < 20, reg 5 (0x200 + 4 * n) = 0 ∧ reg 5 (0x300 + 4 * n) = 0x1F0000) ∧ ∀ k < 16, reg 5 (0x400 + 4 * k) = 0) ∧
  ((∀ k < 2, reg 6 (0x10 + 4 * k) = 0x3FE0000) ∧ ∀ g < 512, reg 6 (0x1000 + 4 * g) = 0x1FF0000 ∧ reg 6 (0x1800 + 4 * g) = 0 ∧ reg 6 (0x2000 + 4 * g) = 0) ∧
  (reg 7 0x04 = 0 ∧ reg 7 0x0C = 0 ∧ reg 7 0x10 = 0) ∧ (reg 8 0x04 = 0 ∧ reg 8 0x18 = 0) ∧ (∀ o ∈ [0x00, 0x08, 0x0C, 0x10, 0x14, 0x18, 0x1C, 0x20], reg 9 o = 0) ∧
  (∀ o ∈ [0x04, 0x08, 0x0C, 0x10, 0x14, 0x18], reg 0xA o = 0) ∧
  (reg 0xC 0x00 = 0 ∧ reg 0xC 0x08 = 0xFFF0000 ∧ reg 0xC 0x0C = 0 ∧ reg 0xC 0x10 = 0x80000000 ∧ ∀ o ∈ [0x14, 0x18, 0x1C], reg 0xC o = 0) ∧
  (∀ x ∈ [(1, 0x08), (1, 0x0C), (2, 0x60), (3, 0x00), (4, 0x000), (5, 0x000), (6, 0x000), (7, 0x08), (8, 0x008), (9, 0x004), (0xA, 0x000), (0xB, 0x004), (0xC, 0x04)], reg x.1 x.2 = 0) ∧
  s.md.mstate = .starting ∧ s.md.startStep = 1 ∧ s.md.cause = 0 ∧ mastersOpen s = true ∧ s.cyc.committed = [] ∧ s.cyc.running = false ∧ s.cyc.num = 0 ∧ s.time.tclkRun = false ∧ s.image = none ∧
  s.sess.owner = none ∧ s.sess.winOpen = false ∧ s.hp.ien = false ∧ s.hp.imask = 0xFFFFFFFFFFFFFFFF#64 ∧ s.hp.evtRing = 64 ∧ s.hp.evt = 0 ∧ s.hp.cpls = [] ∧ s.pending = []) ∧
  (State.reset.canon ∧ mastersOpen State.reset = true ∧ State.reset.log.n = 0 ∧ State.reset.log.entries = [])

/-- Every step keeps the addressed memories in canonical form: host memory, stored files, staged files, the transfer channel and the committed cells (notes/assumptions/5.md), so that equal contents are equal data. -/
def Obligations.MemoriesStayCanonical : Prop :=
  ∀ s t : State, s.canon → step s = .next t → t.canon

/-- Fuses (R397): a logical bit is stored in two cells and reads 1 when either does; no step clears a cell, under whatever reference it is read, so a logical bit changes only from 0 to 1. -/
def Obligations.FusesNeverClear : Prop :=
  ∀ s t : State, step s = .next t → s.fuse.keeps t.fuse ∧
    ∀ b k, b < 8192 → ((fuseRead s.fuse k []).getLsbD b = true → (fuseRead t.fuse k []).getLsbD b = true) ∧
      ((fuseRead t.fuse 0 []).getLsbD b = (t.fuse.a.n.getLsbD b || t.fuse.b.n.getLsbD b))

/-- Outside `RUN` and `QUIET` both group masters are open (R195, R197): no step leaves a state in which they are not. -/
def Obligations.MastersCloseOnlyInRunAndQuiet : Prop :=
  ∀ s t : State, (s.md.mstate = .run ∨ s.md.mstate = .quiet ∨ mastersOpen s = true) → step s = .next t →
    t.md.mstate = .run ∨ t.md.mstate = .quiet ∨ mastersOpen t = true

/-- Nothing alters what the change log holds (R423, R424), and the numbers of the keeper journal and of the change log never go back (R376): an entry numbered up to the last one before
a step stands in the log after it only as it stood before, entries 1 to 1,024 stay for ever, and any other until the entry 15,360 numbers on is written. -/
def Obligations.ChangeLogIsNeverAltered : Prop :=
  ∀ s t : State, step s = .next t → s.log.n ≤ t.log.n ∧ s.keep.seq ≤ t.keep.seq ∧ (∀ e ∈ t.log.entries, e.idx ≤ s.log.n → e ∈ s.log.entries) ∧
    ∀ e ∈ s.log.entries, e.idx ≤ 1024 ∨ t.log.n < e.idx + 15360 → e ∈ t.log.entries
end

