-- ==== Sys2Proof/Laws/Mem.lean ====
section
/-! SUPPORT. The sparse memories: what a read gives after a write, and that every operation keeps the canonical form. -/

namespace Sys2Proof.Machine

variable {w : Nat} {d : BitVec w}

theorem Mem.wfFrom_mono {m : Mem w} {b c : Nat} (h : b ≤ c) (hm : Mem.wfFrom d c m = true) : Mem.wfFrom d b m = true := by
  cases m with
  | nil => rfl
  | cons p r => obtain ⟨k, v⟩ := p; simp [Mem.wfFrom] at hm ⊢; exact ⟨⟨by omega, hm.1.2⟩, hm.2⟩

/-- An address below every listed one reads as unlisted. -/
theorem Mem.read_of_lt {m : Mem w} {b a : Nat} (hm : Mem.wfFrom d b m = true) (h : a < b) : Mem.read d m a = d := by
  cases m with
  | nil => rfl
  | cons p r =>
    obtain ⟨k, v⟩ := p
    simp [Mem.wfFrom] at hm
    have h1 : a ≠ k := by omega
    have h2 : a < k := by omega
    simp [Mem.read, h1, h2]

/-- A read after a write to the same address gives the value written. -/
@[simp] theorem Mem.read_write_same (m : Mem w) (a : Nat) (v : BitVec w) (hm : Mem.wfFrom d 0 m = true) : Mem.read d (Mem.write d m a v) a = v := by
  have gen : ∀ (m : Mem w) (b : Nat), Mem.wfFrom d b m = true → Mem.read d (Mem.write d m a v) a = v := by
    intro m
    induction m with
    | nil => intro b _; by_cases h : v = d <;> simp [Mem.write, Mem.read, h]
    | cons p r ih =>
      intro b hb
      obtain ⟨k, u⟩ := p
      simp only [Mem.wfFrom, Bool.and_eq_true, decide_eq_true_eq] at hb
      simp only [Mem.write]
      by_cases h1 : a < k
      · rw [if_pos h1]
        by_cases h : v = d
        · have : a ≠ k := by omega
          simp [h, Mem.read, this, h1]
        · simp [h, Mem.read]
      · rw [if_neg h1]
        by_cases h2 : a = k
        · rw [if_pos h2]
          by_cases h : v = d
          · rw [if_pos h, h, h2]; exact Mem.read_of_lt hb.2 (by omega)
          · simp [h, Mem.read]
        · rw [if_neg h2]
          have h3 : ¬ a < k := h1
          simp only [Mem.read, if_neg h2, if_neg h3]
          exact ih _ hb.2
  exact gen m 0 hm

/-- A write leaves every other address alone. -/
theorem Mem.read_write_other {m : Mem w} {a x : Nat} (v : BitVec w) (h : x ≠ a) (hm : Mem.wfFrom d 0 m = true) :
    Mem.read d (Mem.write d m a v) x = Mem.read d m x := by
  have gen : ∀ (m : Mem w) (b : Nat), Mem.wfFrom d b m = true → Mem.read d (Mem.write d m a v) x = Mem.read d m x := by
    intro m
    induction m with
    | nil => intro b _; by_cases hv : v = d <;> simp [Mem.write, Mem.read, hv, h]
    | cons p r ih =>
      intro b hb
      obtain ⟨k, u⟩ := p
      simp only [Mem.wfFrom, Bool.and_eq_true, decide_eq_true_eq] at hb
      simp only [Mem.write]
      by_cases h1 : a < k
      · rw [if_pos h1]
        by_cases hv : v = d
        · simp [hv]
        · rw [if_neg hv]
          by_cases h2 : x < a
          · have : x < k := by omega
            have h4 : x ≠ k := by omega
            simp [Mem.read, h, h2, this, h4]
          · simp [Mem.read, h, h2]
      · rw [if_neg h1]
        by_cases h2 : a = k
        · rw [if_pos h2]
          have h4 : x ≠ k := by omega
          by_cases hv : v = d
          · rw [if_pos hv]
            by_cases h5 : x < k
            · simp only [Mem.read, if_neg h4, if_pos h5]; exact Mem.read_of_lt hb.2 (by omega)
            · simp [Mem.read, h4, h5]
          · rw [if_neg hv]; simp only [Mem.read, if_neg h4, h2]
        · rw [if_neg h2]
          simp only [Mem.read]
          by_cases h5 : x = k
          · simp [h5]
          · by_cases h6 : x < k
            · simp [h5, h6]
            · simp only [if_neg h5, if_neg h6]; exact ih _ hb.2
  exact gen m 0 hm

theorem Mem.wfFrom_write {m : Mem w} {b a : Nat} (v : BitVec w) (hb : b ≤ a) (hm : Mem.wfFrom d b m = true) : Mem.wfFrom d b (Mem.write d m a v) = true := by
  induction m generalizing b with
  | nil => by_cases h : v = d <;> simp [Mem.write, Mem.wfFrom, h, hb]
  | cons p r ih =>
    obtain ⟨k, u⟩ := p
    simp only [Mem.wfFrom, Bool.and_eq_true, decide_eq_true_eq] at hm
    simp only [Mem.write]
    by_cases h1 : a < k
    · rw [if_pos h1]
      by_cases h : v = d
      · simp only [h, if_true, Mem.wfFrom, Bool.and_eq_true, decide_eq_true_eq]; exact hm
      · simp only [if_neg h, Mem.wfFrom, Bool.and_eq_true, decide_eq_true_eq]
        exact ⟨⟨hb, h⟩, ⟨by omega, hm.1.2⟩, hm.2⟩
    · rw [if_neg h1]
      by_cases h2 : a = k
      · rw [if_pos h2]
        by_cases h : v = d
        · rw [if_pos h]; exact Mem.wfFrom_mono (by omega) hm.2
        · simp only [if_neg h, Mem.wfFrom, Bool.and_eq_true, decide_eq_true_eq]
          exact ⟨⟨hb, h⟩, by rw [h2]; exact hm.2⟩
      · rw [if_neg h2]
        simp only [Mem.wfFrom, Bool.and_eq_true, decide_eq_true_eq]
        exact ⟨hm.1, ih (by omega) hm.2⟩

/-- A write keeps the canonical form. -/
theorem Mem.wf_write {m : Mem w} (a : Nat) (v : BitVec w) (hm : Mem.wf d m = true) : Mem.wf d (Mem.write d m a v) = true :=
  Mem.wfFrom_write v (Nat.zero_le _) hm

theorem Mem.wf_writes {m : Mem w} (l : List (Nat × BitVec w)) (hm : Mem.wf d m = true) : Mem.wf d (Mem.writes d m l) = true := by
  unfold Mem.writes
  induction l generalizing m with
  | nil => exact hm
  | cons p r ih => exact ih (Mem.wf_write _ _ hm)

theorem Mem.wf_writeBytes {e : Byte} {m : Mem 8} (a : Nat) (l : List Byte) (hm : Mem.wf e m = true) : Mem.wf e (Mem.writeBytes e m a l) = true := by
  induction l generalizing m a with
  | nil => exact hm
  | cons b r ih => exact ih (a + 1) (Mem.wf_write _ _ hm)

theorem Mem.wfFrom_ofBytes {a b : Nat} (l : List (BitVec w)) (h : b ≤ a) : Mem.wfFrom d b (Mem.ofBytes d a l) = true := by
  induction l generalizing a b with
  | nil => rfl
  | cons x r ih =>
    simp only [Mem.ofBytes]
    by_cases hx : x = d
    · rw [if_pos hx]; exact ih (by omega)
    · rw [if_neg hx]
      simp only [Mem.wfFrom, Bool.and_eq_true, decide_eq_true_eq]
      exact ⟨⟨h, hx⟩, ih (by omega)⟩

theorem Mem.wf_ofBytes (a : Nat) (l : List (BitVec w)) : Mem.wf d (Mem.ofBytes d a l) = true := Mem.wfFrom_ofBytes l (Nat.zero_le _)

theorem Mem.wfFrom_filter {m : Mem w} {b : Nat} (p : Nat × BitVec w → Bool) (hm : Mem.wfFrom d b m = true) : Mem.wfFrom d b (m.filter p) = true := by
  induction m generalizing b with
  | nil => rfl
  | cons x r ih =>
    obtain ⟨k, v⟩ := x
    simp only [Mem.wfFrom, Bool.and_eq_true, decide_eq_true_eq] at hm
    simp only [List.filter_cons]
    split
    · simp only [Mem.wfFrom, Bool.and_eq_true, decide_eq_true_eq]; exact ⟨hm.1, ih hm.2⟩
    · exact Mem.wfFrom_mono (by omega) (ih hm.2)

theorem Mem.wf_clearRange {m : Mem w} (lo hi : Nat) (hm : Mem.wf d m = true) : Mem.wf d (Mem.clearRange m lo hi) = true := Mem.wfFrom_filter _ hm

theorem Mem.wf_nil : Mem.wf d ([] : Mem w) = true := rfl

/-- Bytes written from an address on leave every other address alone. -/
theorem Mem.read_writeBytes_other {e : Byte} {m : Mem 8} {a x : Nat} (l : List Byte) (h : x < a ∨ a + l.length ≤ x) (hm : Mem.wf e m = true) :
    Mem.read e (Mem.writeBytes e m a l) x = Mem.read e m x := by
  induction l generalizing m a with
  | nil => rfl
  | cons b r ih =>
    simp only [List.length_cons] at h
    simp only [Mem.writeBytes]
    rw [ih (by omega) (Mem.wf_write _ _ hm)]
    exact Mem.read_write_other _ (by omega) hm

/-- Bytes read back as they were written. -/
theorem Mem.readBytes_writeBytes {e : Byte} {m : Mem 8} (a : Nat) (l : List Byte) (hm : Mem.wf e m = true) :
    Mem.readBytes e (Mem.writeBytes e m a l) a l.length = l := by
  induction l generalizing m a with
  | nil => rfl
  | cons b r ih =>
    simp only [Mem.writeBytes, List.length_cons, Mem.readBytes]
    rw [ih (a + 1) (Mem.wf_write _ _ hm), Mem.read_writeBytes_other r (by omega) (Mem.wf_write _ _ hm)]
    exact congrArg (· :: r) (Mem.read_write_same m a b hm)

end Sys2Proof.Machine
end

