-- ==== Sys2Proof/Laws/Keeps.lean ====
section
/-! SUPPORT. The relation that every operation keeps: blocks it leaves alone, fuses that only grow, memories in canonical form, numbers that
never go back. One lemma per operation says so; the invariants of the machine follow from these. -/

namespace Sys2Proof.Machine

/-- A change log that only grew: what stood in it stands as it stood, until the entry 15,360 numbers on is written (R423). -/
def LogBlk.extended (a b : LogBlk) : Prop :=
  a.n ≤ b.n ∧ (∀ e ∈ b.entries, e.idx ≤ a.n → e ∈ a.entries) ∧ ∀ e ∈ a.entries, e.idx ≤ 1024 ∨ b.n < e.idx + 15360 → e ∈ b.entries

/-- `t` comes from `s` by operations that change no block outside `T`. -/
structure Keeps (T : List Blk) (s t : State) : Prop where
  only : onlyChanges T s t
  fuses : s.fuse.keeps t.fuse
  canon : s.canon → t.canon
  seq : s.keep.seq ≤ t.keep.seq
  log : s.log.extended t.log

theorem onlyChanges.refl (T : List Blk) (s : State) : onlyChanges T s s := by intro b _; cases b <;> rfl

theorem onlyChanges.trans {T : List Blk} {r s t : State} (h1 : onlyChanges T r s) (h2 : onlyChanges T s t) : onlyChanges T r t := by
  intro b hb
  have a1 := h1 b hb
  have a2 := h2 b hb
  cases b <;> exact Eq.trans a2 a1

theorem onlyChanges.mono {T U : List Blk} {s t : State} (h : onlyChanges T s t) (hs : T.all (U.contains ·) = true) : onlyChanges U s t := by
  intro b hb
  refine h b fun hc => hb ?_
  have := List.all_eq_true.1 hs b hc
  simpa using this

theorem FuseBlk.keeps_refl (f : FuseBlk) : f.keeps f := by simp [FuseBlk.keeps, FuseCells.within]

theorem FuseCells.within_trans {x y z : FuseCells} (h1 : x.within y) (h2 : y.within z) : x.within z := by
  obtain ⟨a1, a2, a3⟩ := h1
  obtain ⟨b1, b2, b3⟩ := h2
  refine ⟨?_, ?_, ?_⟩
  · rw [← a1, BitVec.and_assoc, b1]
  · rw [← a2, BitVec.and_assoc, b2]
  · rw [← a3, BitVec.and_assoc, b3]

theorem FuseBlk.keeps_trans {f g h : FuseBlk} (h1 : f.keeps g) (h2 : g.keeps h) : f.keeps h :=
  ⟨FuseCells.within_trans h1.1 h2.1, FuseCells.within_trans h1.2 h2.2⟩

theorem LogBlk.extended_refl (a : LogBlk) : a.extended a := ⟨Nat.le_refl _, fun _ h _ => h, fun _ h _ => h⟩

theorem LogBlk.extended_trans {a b c : LogBlk} (h1 : a.extended b) (h2 : b.extended c) : a.extended c := by
  obtain ⟨n1, o1, k1⟩ := h1
  obtain ⟨n2, o2, k2⟩ := h2
  exact ⟨Nat.le_trans n1 n2, fun e h hi => o1 e (o2 e h (Nat.le_trans hi n1)) hi, fun e h hi => k2 e (k1 e h (hi.imp_right (Nat.lt_of_le_of_lt n2))) hi⟩

theorem Keeps.refl (T : List Blk) (s : State) : Keeps T s s := ⟨.refl _ _, FuseBlk.keeps_refl _, id, Nat.le_refl _, LogBlk.extended_refl _⟩

theorem Keeps.trans {T : List Blk} {r s t : State} (h1 : Keeps T r s) (h2 : Keeps T s t) : Keeps T r t :=
  ⟨h1.only.trans h2.only, FuseBlk.keeps_trans h1.fuses h2.fuses, fun h => h2.canon (h1.canon h), Nat.le_trans h1.seq h2.seq, LogBlk.extended_trans h1.log h2.log⟩

theorem Keeps.mono {T U : List Blk} {s t : State} (h : Keeps T s t) (hs : T.all (U.contains ·) = true) : Keeps U s t :=
  ⟨h.only.mono hs, h.fuses, h.canon, h.seq, h.log⟩

/-- An operation after others. -/
theorem Keeps.via {T U : List Blk} {r s t : State} (h : Keeps T s t) (hs : T.all (U.contains ·) = true) (h1 : Keeps U r s) : Keeps U r t :=
  h1.trans (h.mono hs)

theorem onlyChanges.of {T : List Blk} {s t : State} (h : ∀ b, T.contains b = true ∨ b.same s t) : onlyChanges T s t := by
  intro b hb
  rcases h b with h | h
  · exact absurd (by simpa using h) hb
  · exact h

/-- The stored files of the MRAM are in canonical form. -/
def NvBlk.canon (n : NvBlk) : Prop :=
  Mem.wf 0 n.ucode = true ∧ Mem.wf 0 n.kfw = true ∧ Mem.wf 0 n.nodeFw = true ∧ (∀ m ∈ n.img.toList, Mem.wf 0 m = true) ∧ (∀ m ∈ n.sup.toList, Mem.wf 0 m = true) ∧
  (∀ c ∈ n.cfg.toList, Mem.wf 0 c.file = true) ∧ ∀ c ∈ n.cal.toList, Mem.wf 0 c.file = true

/-- The staged files of the session are in canonical form. -/
def SessBlk.canon (x : SessBlk) : Prop := (∀ m, x.cfg = some m → Mem.wf 0 m = true) ∧ ∀ m, x.cal = some m → Mem.wf 0 m = true

theorem State.canon_iff (s : State) :
    s.canon ↔ Mem.wf 0 s.hp.mem = true ∧ Mem.wf 0 s.xl.rxBytes = true ∧ s.nv.canon ∧ s.sess.canon ∧ Mem.wf 0 s.cyc.committed = true := by
  simp only [State.canon, State.files, NvBlk.canon, SessBlk.canon, List.mem_append, List.mem_cons, List.not_mem_nil, or_false, List.mem_map, Option.mem_toList]
  constructor
  · rintro ⟨h, hc⟩
    exact ⟨h _ (by simp), h _ (by simp), ⟨h _ (by simp), h _ (by simp), h _ (by simp), fun m hm => h m (by simp [hm]), fun m hm => h m (by simp [hm]),
      fun c hm => h c.file (.inl (.inl (.inr ⟨c, .inl hm, rfl⟩))), fun c hm => h c.file (.inl (.inl (.inr ⟨c, .inr hm, rfl⟩)))⟩, ⟨fun m hm => h m (by simp [hm]), fun m hm => h m (by simp [hm])⟩, hc⟩
  · rintro ⟨h1, h2, ⟨h3, h4, h5, h6, h7, h8, h9⟩, ⟨h10, h11⟩, hc⟩
    refine ⟨fun m hm => ?_, hc⟩
    rcases hm with ((((((rfl | rfl | rfl | rfl | rfl) | hm) | hm) | ⟨c, hm | hm, rfl⟩) | hm) | hm)
    · exact h1
    · exact h3
    · exact h4
    · exact h5
    · exact h2
    · exact h6 m hm
    · exact h7 m hm
    · exact h8 c hm
    · exact h9 c hm
    · exact h10 m hm
    · exact h11 m hm

/-- A change of blocks that touches no fuse, keeps memories canonical and numbers rising. -/
theorem Keeps.upd {T : List Blk} {r s : State} {afree ardata amd atime acyc alane asup asess alog ahp akeep aevr anv ainp amm aout apwr axl aring atmr amem afuse aimage} (ho : onlyChanges T s ⟨s.pending, afree, ardata, amd, atime, acyc, alane, asup, asess, alog, ahp, akeep, aevr, anv, ainp, amm, aout, apwr, axl, aring, atmr, amem, afuse, aimage⟩)
    (hf : afuse = s.fuse) (hh : Mem.wf 0 s.hp.mem = true → Mem.wf 0 ahp.mem = true) (hx : Mem.wf 0 s.xl.rxBytes = true → Mem.wf 0 axl.rxBytes = true)
    (hn : s.nv.canon → anv.canon) (hs : s.sess.canon → asess.canon) (hc : Mem.wf 0 s.cyc.committed = true → Mem.wf 0 acyc.committed = true)
    (hk : s.keep.seq ≤ akeep.seq) (hl : s.log.extended alog) (h : Keeps T r s) : Keeps T r ⟨s.pending, afree, ardata, amd, atime, acyc, alane, asup, asess, alog, ahp, akeep, aevr, anv, ainp, amm, aout, apwr, axl, aring, atmr, amem, afuse, aimage⟩ :=
  h.trans ⟨ho, hf ▸ FuseBlk.keeps_refl _, fun h => by
    rw [State.canon_iff] at h ⊢
    exact ⟨hh h.1, hx h.2.1, hn h.2.2.1, hs h.2.2.2.1, hc h.2.2.2.2⟩, hk, hl⟩

theorem Keeps.ite {T : List Blk} {r a b : State} {c : Prop} [Decidable c] (h1 : Keeps T r a) (h2 : Keeps T r b) : Keeps T r (if c then a else b) := by
  split <;> assumption

theorem Keeps.foldl_snd {α β : Type} {T : List Blk} {r : State} {p : β × State} {f : β × State → α → β × State} {l : List α}
    (hf : ∀ p a, Keeps T p.2 (f p a).2) (h : Keeps T r p.2) : Keeps T r (l.foldl f p).2 := by
  induction l generalizing p with
  | nil => exact h
  | cons a l ih => exact ih (h.trans (hf p a))

/-- `Keeps` towards a state written out block by block over `s`. -/
def KeepsMk (T : List Blk) (r s : State) (afree : Nat) (ardata : List Word) (amd : ModBlk) (atime : TimeBlk) (acyc : CycBlk) (alane : LaneBlk) (asup : SupBlk) (asess : SessBlk) (alog : LogBlk) (ahp : HpBlk) (akeep : KeepBlk) (aevr : EvrBlk) (anv : NvBlk) (ainp : InpBlk) (amm : MmBlk) (aout : OutBlk) (apwr : PwrBlk) (axl : XlBlk) (aring : RingBlk) (atmr : TmrBlk) (amem : MemBlk) (afuse : FuseBlk) (aimage : Option Image) : Prop := Keeps T r ⟨s.pending, afree, ardata, amd, atime, acyc, alane, asup, asess, alog, ahp, akeep, aevr, anv, ainp, amm, aout, apwr, axl, aring, atmr, amem, afuse, aimage⟩

theorem keepsMk_eq (T : List Blk) (r s : State) (afree : Nat) (ardata : List Word) (amd : ModBlk) (atime : TimeBlk) (acyc : CycBlk) (alane : LaneBlk) (asup : SupBlk) (asess : SessBlk) (alog : LogBlk) (ahp : HpBlk) (akeep : KeepBlk) (aevr : EvrBlk) (anv : NvBlk) (ainp : InpBlk) (amm : MmBlk) (aout : OutBlk) (apwr : PwrBlk) (axl : XlBlk) (aring : RingBlk) (atmr : TmrBlk) (amem : MemBlk) (afuse : FuseBlk) (aimage : Option Image) : Keeps T r ⟨s.pending, afree, ardata, amd, atime, acyc, alane, asup, asess, alog, ahp, akeep, aevr, anv, ainp, amm, aout, apwr, axl, aring, atmr, amem, afuse, aimage⟩ = KeepsMk T r s afree ardata amd atime acyc alane asup asess alog ahp akeep aevr anv ainp amm aout apwr axl aring atmr amem afuse aimage := rfl

theorem KeepsMk.upd {T : List Blk} {r s : State} {afree ardata amd atime acyc alane asup asess alog ahp akeep aevr anv ainp amm aout apwr axl aring atmr amem afuse aimage} (ho : onlyChanges T s ⟨s.pending, afree, ardata, amd, atime, acyc, alane, asup, asess, alog, ahp, akeep, aevr, anv, ainp, amm, aout, apwr, axl, aring, atmr, amem, afuse, aimage⟩)
    (hf : afuse = s.fuse) (hh : Mem.wf 0 s.hp.mem = true → Mem.wf 0 ahp.mem = true) (hx : Mem.wf 0 s.xl.rxBytes = true → Mem.wf 0 axl.rxBytes = true)
    (hn : s.nv.canon → anv.canon) (hs : s.sess.canon → asess.canon) (hc : Mem.wf 0 s.cyc.committed = true → Mem.wf 0 acyc.committed = true)
    (hk : s.keep.seq ≤ akeep.seq) (hl : s.log.extended alog) (h : Keeps T r s) : KeepsMk T r s afree ardata amd atime acyc alane asup asess alog ahp akeep aevr anv ainp amm aout apwr axl aring atmr amem afuse aimage := Keeps.upd ho hf hh hx hn hs hc hk hl h

theorem Keeps.foldl {α : Type} {T : List Blk} {r s : State} {f : State → α → State} {l : List α} (hf : ∀ s a, Keeps T s (f s a)) (h : Keeps T r s) :
    Keeps T r (l.foldl f s) := by
  induction l generalizing s with
  | nil => exact h
  | cons a l ih => exact ih (h.trans (hf s a))

end Sys2Proof.Machine
end

