-- ==== Sys2Proof/Laws/Record.lean ====
section
/-! SUPPORT. What writing something down can do: events, journal records, host events, change-log entries and completions change their own
blocks and no others. -/

namespace Sys2Proof.Machine

section
variable (kind sev : Nat) (data : List Byte) (s : State)

/-- `hostEvent` changes only: hp. -/
theorem hostEvent_frame : onlyChanges [.hp] s (hostEvent kind data s) := by
  intro b hb; cases b <;> first | (simp at hb; done) | rfl
@[simp] theorem hostEvent_pending : (hostEvent kind data s).pending = s.pending := hostEvent_frame kind data s .pending (by decide)
@[simp] theorem hostEvent_free : (hostEvent kind data s).free = s.free := hostEvent_frame kind data s .free (by decide)
@[simp] theorem hostEvent_rdata : (hostEvent kind data s).rdata = s.rdata := hostEvent_frame kind data s .rdata (by decide)
@[simp] theorem hostEvent_md : (hostEvent kind data s).md = s.md := hostEvent_frame kind data s .md (by decide)
@[simp] theorem hostEvent_time : (hostEvent kind data s).time = s.time := hostEvent_frame kind data s .time (by decide)
@[simp] theorem hostEvent_cyc : (hostEvent kind data s).cyc = s.cyc := hostEvent_frame kind data s .cyc (by decide)
@[simp] theorem hostEvent_lane : (hostEvent kind data s).lane = s.lane := hostEvent_frame kind data s .lane (by decide)
@[simp] theorem hostEvent_sup : (hostEvent kind data s).sup = s.sup := hostEvent_frame kind data s .sup (by decide)
@[simp] theorem hostEvent_sess : (hostEvent kind data s).sess = s.sess := hostEvent_frame kind data s .sess (by decide)
@[simp] theorem hostEvent_log : (hostEvent kind data s).log = s.log := hostEvent_frame kind data s .log (by decide)
@[simp] theorem hostEvent_keep : (hostEvent kind data s).keep = s.keep := hostEvent_frame kind data s .keep (by decide)
@[simp] theorem hostEvent_evr : (hostEvent kind data s).evr = s.evr := hostEvent_frame kind data s .evr (by decide)
@[simp] theorem hostEvent_nv : (hostEvent kind data s).nv = s.nv := hostEvent_frame kind data s .nv (by decide)
@[simp] theorem hostEvent_inp : (hostEvent kind data s).inp = s.inp := hostEvent_frame kind data s .inp (by decide)
@[simp] theorem hostEvent_mm : (hostEvent kind data s).mm = s.mm := hostEvent_frame kind data s .mm (by decide)
@[simp] theorem hostEvent_out : (hostEvent kind data s).out = s.out := hostEvent_frame kind data s .out (by decide)
@[simp] theorem hostEvent_pwr : (hostEvent kind data s).pwr = s.pwr := hostEvent_frame kind data s .pwr (by decide)
@[simp] theorem hostEvent_xl : (hostEvent kind data s).xl = s.xl := hostEvent_frame kind data s .xl (by decide)
@[simp] theorem hostEvent_ring : (hostEvent kind data s).ring = s.ring := hostEvent_frame kind data s .ring (by decide)
@[simp] theorem hostEvent_tmr : (hostEvent kind data s).tmr = s.tmr := hostEvent_frame kind data s .tmr (by decide)
@[simp] theorem hostEvent_mem : (hostEvent kind data s).mem = s.mem := hostEvent_frame kind data s .mem (by decide)
@[simp] theorem hostEvent_fuse : (hostEvent kind data s).fuse = s.fuse := hostEvent_frame kind data s .fuse (by decide)
@[simp] theorem hostEvent_image : (hostEvent kind data s).image = s.image := hostEvent_frame kind data s .image (by decide)

/-- `countInhibited` changes only: mem. -/
theorem countInhibited_frame : onlyChanges [.mem] s (countInhibited  s) := by
  intro b hb; cases b <;> first | (simp at hb; done) | rfl
@[simp] theorem countInhibited_pending : (countInhibited s).pending = s.pending := countInhibited_frame s .pending (by decide)
@[simp] theorem countInhibited_free : (countInhibited s).free = s.free := countInhibited_frame s .free (by decide)
@[simp] theorem countInhibited_rdata : (countInhibited s).rdata = s.rdata := countInhibited_frame s .rdata (by decide)
@[simp] theorem countInhibited_md : (countInhibited s).md = s.md := countInhibited_frame s .md (by decide)
@[simp] theorem countInhibited_time : (countInhibited s).time = s.time := countInhibited_frame s .time (by decide)
@[simp] theorem countInhibited_cyc : (countInhibited s).cyc = s.cyc := countInhibited_frame s .cyc (by decide)
@[simp] theorem countInhibited_lane : (countInhibited s).lane = s.lane := countInhibited_frame s .lane (by decide)
@[simp] theorem countInhibited_sup : (countInhibited s).sup = s.sup := countInhibited_frame s .sup (by decide)
@[simp] theorem countInhibited_sess : (countInhibited s).sess = s.sess := countInhibited_frame s .sess (by decide)
@[simp] theorem countInhibited_log : (countInhibited s).log = s.log := countInhibited_frame s .log (by decide)
@[simp] theorem countInhibited_hp : (countInhibited s).hp = s.hp := countInhibited_frame s .hp (by decide)
@[simp] theorem countInhibited_keep : (countInhibited s).keep = s.keep := countInhibited_frame s .keep (by decide)
@[simp] theorem countInhibited_evr : (countInhibited s).evr = s.evr := countInhibited_frame s .evr (by decide)
@[simp] theorem countInhibited_nv : (countInhibited s).nv = s.nv := countInhibited_frame s .nv (by decide)
@[simp] theorem countInhibited_inp : (countInhibited s).inp = s.inp := countInhibited_frame s .inp (by decide)
@[simp] theorem countInhibited_mm : (countInhibited s).mm = s.mm := countInhibited_frame s .mm (by decide)
@[simp] theorem countInhibited_out : (countInhibited s).out = s.out := countInhibited_frame s .out (by decide)
@[simp] theorem countInhibited_pwr : (countInhibited s).pwr = s.pwr := countInhibited_frame s .pwr (by decide)
@[simp] theorem countInhibited_xl : (countInhibited s).xl = s.xl := countInhibited_frame s .xl (by decide)
@[simp] theorem countInhibited_ring : (countInhibited s).ring = s.ring := countInhibited_frame s .ring (by decide)
@[simp] theorem countInhibited_tmr : (countInhibited s).tmr = s.tmr := countInhibited_frame s .tmr (by decide)
@[simp] theorem countInhibited_fuse : (countInhibited s).fuse = s.fuse := countInhibited_frame s .fuse (by decide)
@[simp] theorem countInhibited_image : (countInhibited s).image = s.image := countInhibited_frame s .image (by decide)

/-- `journal` changes only: keep, mem. -/
theorem journal_frame : onlyChanges [.keep, .mem] s (journal kind sev data s) := by
  unfold journal
  split <;> (intro b hb; cases b <;> first | (simp at hb; done) | rfl)
@[simp] theorem journal_pending : (journal kind sev data s).pending = s.pending := journal_frame kind sev data s .pending (by decide)
@[simp] theorem journal_free : (journal kind sev data s).free = s.free := journal_frame kind sev data s .free (by decide)
@[simp] theorem journal_rdata : (journal kind sev data s).rdata = s.rdata := journal_frame kind sev data s .rdata (by decide)
@[simp] theorem journal_md : (journal kind sev data s).md = s.md := journal_frame kind sev data s .md (by decide)
@[simp] theorem journal_time : (journal kind sev data s).time = s.time := journal_frame kind sev data s .time (by decide)
@[simp] theorem journal_cyc : (journal kind sev data s).cyc = s.cyc := journal_frame kind sev data s .cyc (by decide)
@[simp] theorem journal_lane : (journal kind sev data s).lane = s.lane := journal_frame kind sev data s .lane (by decide)
@[simp] theorem journal_sup : (journal kind sev data s).sup = s.sup := journal_frame kind sev data s .sup (by decide)
@[simp] theorem journal_sess : (journal kind sev data s).sess = s.sess := journal_frame kind sev data s .sess (by decide)
@[simp] theorem journal_log : (journal kind sev data s).log = s.log := journal_frame kind sev data s .log (by decide)
@[simp] theorem journal_hp : (journal kind sev data s).hp = s.hp := journal_frame kind sev data s .hp (by decide)
@[simp] theorem journal_evr : (journal kind sev data s).evr = s.evr := journal_frame kind sev data s .evr (by decide)
@[simp] theorem journal_nv : (journal kind sev data s).nv = s.nv := journal_frame kind sev data s .nv (by decide)
@[simp] theorem journal_inp : (journal kind sev data s).inp = s.inp := journal_frame kind sev data s .inp (by decide)
@[simp] theorem journal_mm : (journal kind sev data s).mm = s.mm := journal_frame kind sev data s .mm (by decide)
@[simp] theorem journal_out : (journal kind sev data s).out = s.out := journal_frame kind sev data s .out (by decide)
@[simp] theorem journal_pwr : (journal kind sev data s).pwr = s.pwr := journal_frame kind sev data s .pwr (by decide)
@[simp] theorem journal_xl : (journal kind sev data s).xl = s.xl := journal_frame kind sev data s .xl (by decide)
@[simp] theorem journal_ring : (journal kind sev data s).ring = s.ring := journal_frame kind sev data s .ring (by decide)
@[simp] theorem journal_tmr : (journal kind sev data s).tmr = s.tmr := journal_frame kind sev data s .tmr (by decide)
@[simp] theorem journal_fuse : (journal kind sev data s).fuse = s.fuse := journal_frame kind sev data s .fuse (by decide)
@[simp] theorem journal_image : (journal kind sev data s).image = s.image := journal_frame kind sev data s .image (by decide)

/-- A journal record takes the next number, or is lost under the inhibit: numbers never go back. -/
theorem journal_seq_le : s.keep.seq ≤ (journal kind sev data s).keep.seq := by
  unfold journal
  split
  · exact Nat.le_refl _
  · exact Nat.le_succ _
end

section
variable (x : EvEntry) (n code inst : Nat) (data : List Byte) (s : State)

/-- `writeEntry` changes only: evr, keep, mem, hp. -/
theorem writeEntry_frame : onlyChanges [.evr, .keep, .mem, .hp] s (writeEntry x s) := by
  unfold writeEntry
  dsimp only
  repeat' split
  all_goals (intro b hb; cases b <;> first | (simp at hb; done) | simp [Blk.same])
@[simp] theorem writeEntry_pending : (writeEntry x s).pending = s.pending := writeEntry_frame x s .pending (by decide)
@[simp] theorem writeEntry_free : (writeEntry x s).free = s.free := writeEntry_frame x s .free (by decide)
@[simp] theorem writeEntry_rdata : (writeEntry x s).rdata = s.rdata := writeEntry_frame x s .rdata (by decide)
@[simp] theorem writeEntry_md : (writeEntry x s).md = s.md := writeEntry_frame x s .md (by decide)
@[simp] theorem writeEntry_time : (writeEntry x s).time = s.time := writeEntry_frame x s .time (by decide)
@[simp] theorem writeEntry_cyc : (writeEntry x s).cyc = s.cyc := writeEntry_frame x s .cyc (by decide)
@[simp] theorem writeEntry_lane : (writeEntry x s).lane = s.lane := writeEntry_frame x s .lane (by decide)
@[simp] theorem writeEntry_sup : (writeEntry x s).sup = s.sup := writeEntry_frame x s .sup (by decide)
@[simp] theorem writeEntry_sess : (writeEntry x s).sess = s.sess := writeEntry_frame x s .sess (by decide)
@[simp] theorem writeEntry_log : (writeEntry x s).log = s.log := writeEntry_frame x s .log (by decide)
@[simp] theorem writeEntry_nv : (writeEntry x s).nv = s.nv := writeEntry_frame x s .nv (by decide)
@[simp] theorem writeEntry_inp : (writeEntry x s).inp = s.inp := writeEntry_frame x s .inp (by decide)
@[simp] theorem writeEntry_mm : (writeEntry x s).mm = s.mm := writeEntry_frame x s .mm (by decide)
@[simp] theorem writeEntry_out : (writeEntry x s).out = s.out := writeEntry_frame x s .out (by decide)
@[simp] theorem writeEntry_pwr : (writeEntry x s).pwr = s.pwr := writeEntry_frame x s .pwr (by decide)
@[simp] theorem writeEntry_xl : (writeEntry x s).xl = s.xl := writeEntry_frame x s .xl (by decide)
@[simp] theorem writeEntry_ring : (writeEntry x s).ring = s.ring := writeEntry_frame x s .ring (by decide)
@[simp] theorem writeEntry_tmr : (writeEntry x s).tmr = s.tmr := writeEntry_frame x s .tmr (by decide)
@[simp] theorem writeEntry_fuse : (writeEntry x s).fuse = s.fuse := writeEntry_frame x s .fuse (by decide)
@[simp] theorem writeEntry_image : (writeEntry x s).image = s.image := writeEntry_frame x s .image (by decide)

/-- `writeAll` changes only: evr, keep, mem, hp. -/
theorem writeAll_frame : onlyChanges [.evr, .keep, .mem, .hp] s (writeAll n s) := by
  induction n generalizing s with
  | zero => intro b hb; cases b <;> rfl
  | succ n ih =>
    unfold writeAll
    split
    · intro b hb; cases b <;> rfl
    · intro b hb
      have := ih (writeEntry ‹_› s) b hb
      cases b <;> first | (simp at hb; done) | simpa [Blk.same] using this
@[simp] theorem writeAll_pending : (writeAll n s).pending = s.pending := writeAll_frame n s .pending (by decide)
@[simp] theorem writeAll_free : (writeAll n s).free = s.free := writeAll_frame n s .free (by decide)
@[simp] theorem writeAll_rdata : (writeAll n s).rdata = s.rdata := writeAll_frame n s .rdata (by decide)
@[simp] theorem writeAll_md : (writeAll n s).md = s.md := writeAll_frame n s .md (by decide)
@[simp] theorem writeAll_time : (writeAll n s).time = s.time := writeAll_frame n s .time (by decide)
@[simp] theorem writeAll_cyc : (writeAll n s).cyc = s.cyc := writeAll_frame n s .cyc (by decide)
@[simp] theorem writeAll_lane : (writeAll n s).lane = s.lane := writeAll_frame n s .lane (by decide)
@[simp] theorem writeAll_sup : (writeAll n s).sup = s.sup := writeAll_frame n s .sup (by decide)
@[simp] theorem writeAll_sess : (writeAll n s).sess = s.sess := writeAll_frame n s .sess (by decide)
@[simp] theorem writeAll_log : (writeAll n s).log = s.log := writeAll_frame n s .log (by decide)
@[simp] theorem writeAll_nv : (writeAll n s).nv = s.nv := writeAll_frame n s .nv (by decide)
@[simp] theorem writeAll_inp : (writeAll n s).inp = s.inp := writeAll_frame n s .inp (by decide)
@[simp] theorem writeAll_mm : (writeAll n s).mm = s.mm := writeAll_frame n s .mm (by decide)
@[simp] theorem writeAll_out : (writeAll n s).out = s.out := writeAll_frame n s .out (by decide)
@[simp] theorem writeAll_pwr : (writeAll n s).pwr = s.pwr := writeAll_frame n s .pwr (by decide)
@[simp] theorem writeAll_xl : (writeAll n s).xl = s.xl := writeAll_frame n s .xl (by decide)
@[simp] theorem writeAll_ring : (writeAll n s).ring = s.ring := writeAll_frame n s .ring (by decide)
@[simp] theorem writeAll_tmr : (writeAll n s).tmr = s.tmr := writeAll_frame n s .tmr (by decide)
@[simp] theorem writeAll_fuse : (writeAll n s).fuse = s.fuse := writeAll_frame n s .fuse (by decide)
@[simp] theorem writeAll_image : (writeAll n s).image = s.image := writeAll_frame n s .image (by decide)

/-- `postEv` changes only: evr, keep, mem, hp. -/
theorem postEv_frame : onlyChanges [.evr, .keep, .mem, .hp] s (postEv code inst data s) := by
  unfold postEv
  dsimp only
  repeat' split
  all_goals (intro b hb; cases b <;> first | (simp at hb; done) | simp [Blk.same])
@[simp] theorem postEv_pending : (postEv code inst data s).pending = s.pending := postEv_frame code inst data s .pending (by decide)
@[simp] theorem postEv_free : (postEv code inst data s).free = s.free := postEv_frame code inst data s .free (by decide)
@[simp] theorem postEv_rdata : (postEv code inst data s).rdata = s.rdata := postEv_frame code inst data s .rdata (by decide)
@[simp] theorem postEv_md : (postEv code inst data s).md = s.md := postEv_frame code inst data s .md (by decide)
@[simp] theorem postEv_time : (postEv code inst data s).time = s.time := postEv_frame code inst data s .time (by decide)
@[simp] theorem postEv_cyc : (postEv code inst data s).cyc = s.cyc := postEv_frame code inst data s .cyc (by decide)
@[simp] theorem postEv_lane : (postEv code inst data s).lane = s.lane := postEv_frame code inst data s .lane (by decide)
@[simp] theorem postEv_sup : (postEv code inst data s).sup = s.sup := postEv_frame code inst data s .sup (by decide)
@[simp] theorem postEv_sess : (postEv code inst data s).sess = s.sess := postEv_frame code inst data s .sess (by decide)
@[simp] theorem postEv_log : (postEv code inst data s).log = s.log := postEv_frame code inst data s .log (by decide)
@[simp] theorem postEv_nv : (postEv code inst data s).nv = s.nv := postEv_frame code inst data s .nv (by decide)
@[simp] theorem postEv_inp : (postEv code inst data s).inp = s.inp := postEv_frame code inst data s .inp (by decide)
@[simp] theorem postEv_mm : (postEv code inst data s).mm = s.mm := postEv_frame code inst data s .mm (by decide)
@[simp] theorem postEv_out : (postEv code inst data s).out = s.out := postEv_frame code inst data s .out (by decide)
@[simp] theorem postEv_pwr : (postEv code inst data s).pwr = s.pwr := postEv_frame code inst data s .pwr (by decide)
@[simp] theorem postEv_xl : (postEv code inst data s).xl = s.xl := postEv_frame code inst data s .xl (by decide)
@[simp] theorem postEv_ring : (postEv code inst data s).ring = s.ring := postEv_frame code inst data s .ring (by decide)
@[simp] theorem postEv_tmr : (postEv code inst data s).tmr = s.tmr := postEv_frame code inst data s .tmr (by decide)
@[simp] theorem postEv_fuse : (postEv code inst data s).fuse = s.fuse := postEv_frame code inst data s .fuse (by decide)
@[simp] theorem postEv_image : (postEv code inst data s).image = s.image := postEv_frame code inst data s .image (by decide)

theorem now_eq (s t : State) (h : t.time = s.time) : now t = now s := by unfold now; rw [h]

@[simp] theorem now_postEv : now (postEv code inst data s) = now s := now_eq _ _ (by simp)
end

section
variable (i : Nat) (s : State)

/-- `cycEvt` changes only: cyc. -/
theorem cycEvt_frame : onlyChanges [.cyc] s (cycEvt i s) := by
  intro b hb; cases b <;> first | (simp at hb; done) | rfl
@[simp] theorem cycEvt_pending : (cycEvt i s).pending = s.pending := cycEvt_frame i s .pending (by decide)
@[simp] theorem cycEvt_free : (cycEvt i s).free = s.free := cycEvt_frame i s .free (by decide)
@[simp] theorem cycEvt_rdata : (cycEvt i s).rdata = s.rdata := cycEvt_frame i s .rdata (by decide)
@[simp] theorem cycEvt_md : (cycEvt i s).md = s.md := cycEvt_frame i s .md (by decide)
@[simp] theorem cycEvt_time : (cycEvt i s).time = s.time := cycEvt_frame i s .time (by decide)
@[simp] theorem cycEvt_lane : (cycEvt i s).lane = s.lane := cycEvt_frame i s .lane (by decide)
@[simp] theorem cycEvt_sup : (cycEvt i s).sup = s.sup := cycEvt_frame i s .sup (by decide)
@[simp] theorem cycEvt_sess : (cycEvt i s).sess = s.sess := cycEvt_frame i s .sess (by decide)
@[simp] theorem cycEvt_log : (cycEvt i s).log = s.log := cycEvt_frame i s .log (by decide)
@[simp] theorem cycEvt_hp : (cycEvt i s).hp = s.hp := cycEvt_frame i s .hp (by decide)
@[simp] theorem cycEvt_keep : (cycEvt i s).keep = s.keep := cycEvt_frame i s .keep (by decide)
@[simp] theorem cycEvt_evr : (cycEvt i s).evr = s.evr := cycEvt_frame i s .evr (by decide)
@[simp] theorem cycEvt_nv : (cycEvt i s).nv = s.nv := cycEvt_frame i s .nv (by decide)
@[simp] theorem cycEvt_inp : (cycEvt i s).inp = s.inp := cycEvt_frame i s .inp (by decide)
@[simp] theorem cycEvt_mm : (cycEvt i s).mm = s.mm := cycEvt_frame i s .mm (by decide)
@[simp] theorem cycEvt_out : (cycEvt i s).out = s.out := cycEvt_frame i s .out (by decide)
@[simp] theorem cycEvt_pwr : (cycEvt i s).pwr = s.pwr := cycEvt_frame i s .pwr (by decide)
@[simp] theorem cycEvt_xl : (cycEvt i s).xl = s.xl := cycEvt_frame i s .xl (by decide)
@[simp] theorem cycEvt_ring : (cycEvt i s).ring = s.ring := cycEvt_frame i s .ring (by decide)
@[simp] theorem cycEvt_tmr : (cycEvt i s).tmr = s.tmr := cycEvt_frame i s .tmr (by decide)
@[simp] theorem cycEvt_mem : (cycEvt i s).mem = s.mem := cycEvt_frame i s .mem (by decide)
@[simp] theorem cycEvt_fuse : (cycEvt i s).fuse = s.fuse := cycEvt_frame i s .fuse (by decide)
@[simp] theorem cycEvt_image : (cycEvt i s).image = s.image := cycEvt_frame i s .image (by decide)

/-- `laneEvt` changes only: lane. -/
theorem laneEvt_frame : onlyChanges [.lane] s (laneEvt i s) := by
  intro b hb; cases b <;> first | (simp at hb; done) | rfl
@[simp] theorem laneEvt_pending : (laneEvt i s).pending = s.pending := laneEvt_frame i s .pending (by decide)
@[simp] theorem laneEvt_free : (laneEvt i s).free = s.free := laneEvt_frame i s .free (by decide)
@[simp] theorem laneEvt_rdata : (laneEvt i s).rdata = s.rdata := laneEvt_frame i s .rdata (by decide)
@[simp] theorem laneEvt_md : (laneEvt i s).md = s.md := laneEvt_frame i s .md (by decide)
@[simp] theorem laneEvt_time : (laneEvt i s).time = s.time := laneEvt_frame i s .time (by decide)
@[simp] theorem laneEvt_cyc : (laneEvt i s).cyc = s.cyc := laneEvt_frame i s .cyc (by decide)
@[simp] theorem laneEvt_sup : (laneEvt i s).sup = s.sup := laneEvt_frame i s .sup (by decide)
@[simp] theorem laneEvt_sess : (laneEvt i s).sess = s.sess := laneEvt_frame i s .sess (by decide)
@[simp] theorem laneEvt_log : (laneEvt i s).log = s.log := laneEvt_frame i s .log (by decide)
@[simp] theorem laneEvt_hp : (laneEvt i s).hp = s.hp := laneEvt_frame i s .hp (by decide)
@[simp] theorem laneEvt_keep : (laneEvt i s).keep = s.keep := laneEvt_frame i s .keep (by decide)
@[simp] theorem laneEvt_evr : (laneEvt i s).evr = s.evr := laneEvt_frame i s .evr (by decide)
@[simp] theorem laneEvt_nv : (laneEvt i s).nv = s.nv := laneEvt_frame i s .nv (by decide)
@[simp] theorem laneEvt_inp : (laneEvt i s).inp = s.inp := laneEvt_frame i s .inp (by decide)
@[simp] theorem laneEvt_mm : (laneEvt i s).mm = s.mm := laneEvt_frame i s .mm (by decide)
@[simp] theorem laneEvt_out : (laneEvt i s).out = s.out := laneEvt_frame i s .out (by decide)
@[simp] theorem laneEvt_pwr : (laneEvt i s).pwr = s.pwr := laneEvt_frame i s .pwr (by decide)
@[simp] theorem laneEvt_xl : (laneEvt i s).xl = s.xl := laneEvt_frame i s .xl (by decide)
@[simp] theorem laneEvt_ring : (laneEvt i s).ring = s.ring := laneEvt_frame i s .ring (by decide)
@[simp] theorem laneEvt_tmr : (laneEvt i s).tmr = s.tmr := laneEvt_frame i s .tmr (by decide)
@[simp] theorem laneEvt_mem : (laneEvt i s).mem = s.mem := laneEvt_frame i s .mem (by decide)
@[simp] theorem laneEvt_fuse : (laneEvt i s).fuse = s.fuse := laneEvt_frame i s .fuse (by decide)
@[simp] theorem laneEvt_image : (laneEvt i s).image = s.image := laneEvt_frame i s .image (by decide)

/-- `outEvt` changes only: out. -/
theorem outEvt_frame : onlyChanges [.out] s (outEvt i s) := by
  intro b hb; cases b <;> first | (simp at hb; done) | rfl
@[simp] theorem outEvt_pending : (outEvt i s).pending = s.pending := outEvt_frame i s .pending (by decide)
@[simp] theorem outEvt_free : (outEvt i s).free = s.free := outEvt_frame i s .free (by decide)
@[simp] theorem outEvt_rdata : (outEvt i s).rdata = s.rdata := outEvt_frame i s .rdata (by decide)
@[simp] theorem outEvt_md : (outEvt i s).md = s.md := outEvt_frame i s .md (by decide)
@[simp] theorem outEvt_time : (outEvt i s).time = s.time := outEvt_frame i s .time (by decide)
@[simp] theorem outEvt_cyc : (outEvt i s).cyc = s.cyc := outEvt_frame i s .cyc (by decide)
@[simp] theorem outEvt_lane : (outEvt i s).lane = s.lane := outEvt_frame i s .lane (by decide)
@[simp] theorem outEvt_sup : (outEvt i s).sup = s.sup := outEvt_frame i s .sup (by decide)
@[simp] theorem outEvt_sess : (outEvt i s).sess = s.sess := outEvt_frame i s .sess (by decide)
@[simp] theorem outEvt_log : (outEvt i s).log = s.log := outEvt_frame i s .log (by decide)
@[simp] theorem outEvt_hp : (outEvt i s).hp = s.hp := outEvt_frame i s .hp (by decide)
@[simp] theorem outEvt_keep : (outEvt i s).keep = s.keep := outEvt_frame i s .keep (by decide)
@[simp] theorem outEvt_evr : (outEvt i s).evr = s.evr := outEvt_frame i s .evr (by decide)
@[simp] theorem outEvt_nv : (outEvt i s).nv = s.nv := outEvt_frame i s .nv (by decide)
@[simp] theorem outEvt_inp : (outEvt i s).inp = s.inp := outEvt_frame i s .inp (by decide)
@[simp] theorem outEvt_mm : (outEvt i s).mm = s.mm := outEvt_frame i s .mm (by decide)
@[simp] theorem outEvt_pwr : (outEvt i s).pwr = s.pwr := outEvt_frame i s .pwr (by decide)
@[simp] theorem outEvt_xl : (outEvt i s).xl = s.xl := outEvt_frame i s .xl (by decide)
@[simp] theorem outEvt_ring : (outEvt i s).ring = s.ring := outEvt_frame i s .ring (by decide)
@[simp] theorem outEvt_tmr : (outEvt i s).tmr = s.tmr := outEvt_frame i s .tmr (by decide)
@[simp] theorem outEvt_mem : (outEvt i s).mem = s.mem := outEvt_frame i s .mem (by decide)
@[simp] theorem outEvt_fuse : (outEvt i s).fuse = s.fuse := outEvt_frame i s .fuse (by decide)
@[simp] theorem outEvt_image : (outEvt i s).image = s.image := outEvt_frame i s .image (by decide)

/-- `hpEvt` changes only: hp. -/
theorem hpEvt_frame : onlyChanges [.hp] s (hpEvt i s) := by
  intro b hb; cases b <;> first | (simp at hb; done) | rfl
@[simp] theorem hpEvt_pending : (hpEvt i s).pending = s.pending := hpEvt_frame i s .pending (by decide)
@[simp] theorem hpEvt_free : (hpEvt i s).free = s.free := hpEvt_frame i s .free (by decide)
@[simp] theorem hpEvt_rdata : (hpEvt i s).rdata = s.rdata := hpEvt_frame i s .rdata (by decide)
@[simp] theorem hpEvt_md : (hpEvt i s).md = s.md := hpEvt_frame i s .md (by decide)
@[simp] theorem hpEvt_time : (hpEvt i s).time = s.time := hpEvt_frame i s .time (by decide)
@[simp] theorem hpEvt_cyc : (hpEvt i s).cyc = s.cyc := hpEvt_frame i s .cyc (by decide)
@[simp] theorem hpEvt_lane : (hpEvt i s).lane = s.lane := hpEvt_frame i s .lane (by decide)
@[simp] theorem hpEvt_sup : (hpEvt i s).sup = s.sup := hpEvt_frame i s .sup (by decide)
@[simp] theorem hpEvt_sess : (hpEvt i s).sess = s.sess := hpEvt_frame i s .sess (by decide)
@[simp] theorem hpEvt_log : (hpEvt i s).log = s.log := hpEvt_frame i s .log (by decide)
@[simp] theorem hpEvt_keep : (hpEvt i s).keep = s.keep := hpEvt_frame i s .keep (by decide)
@[simp] theorem hpEvt_evr : (hpEvt i s).evr = s.evr := hpEvt_frame i s .evr (by decide)
@[simp] theorem hpEvt_nv : (hpEvt i s).nv = s.nv := hpEvt_frame i s .nv (by decide)
@[simp] theorem hpEvt_inp : (hpEvt i s).inp = s.inp := hpEvt_frame i s .inp (by decide)
@[simp] theorem hpEvt_mm : (hpEvt i s).mm = s.mm := hpEvt_frame i s .mm (by decide)
@[simp] theorem hpEvt_out : (hpEvt i s).out = s.out := hpEvt_frame i s .out (by decide)
@[simp] theorem hpEvt_pwr : (hpEvt i s).pwr = s.pwr := hpEvt_frame i s .pwr (by decide)
@[simp] theorem hpEvt_xl : (hpEvt i s).xl = s.xl := hpEvt_frame i s .xl (by decide)
@[simp] theorem hpEvt_ring : (hpEvt i s).ring = s.ring := hpEvt_frame i s .ring (by decide)
@[simp] theorem hpEvt_tmr : (hpEvt i s).tmr = s.tmr := hpEvt_frame i s .tmr (by decide)
@[simp] theorem hpEvt_mem : (hpEvt i s).mem = s.mem := hpEvt_frame i s .mem (by decide)
@[simp] theorem hpEvt_fuse : (hpEvt i s).fuse = s.fuse := hpEvt_frame i s .fuse (by decide)
@[simp] theorem hpEvt_image : (hpEvt i s).image = s.image := hpEvt_frame i s .image (by decide)

/-- `pwrEvt` changes only: pwr. -/
theorem pwrEvt_frame : onlyChanges [.pwr] s (pwrEvt i s) := by
  intro b hb; cases b <;> first | (simp at hb; done) | rfl
@[simp] theorem pwrEvt_pending : (pwrEvt i s).pending = s.pending := pwrEvt_frame i s .pending (by decide)
@[simp] theorem pwrEvt_free : (pwrEvt i s).free = s.free := pwrEvt_frame i s .free (by decide)
@[simp] theorem pwrEvt_rdata : (pwrEvt i s).rdata = s.rdata := pwrEvt_frame i s .rdata (by decide)
@[simp] theorem pwrEvt_md : (pwrEvt i s).md = s.md := pwrEvt_frame i s .md (by decide)
@[simp] theorem pwrEvt_time : (pwrEvt i s).time = s.time := pwrEvt_frame i s .time (by decide)
@[simp] theorem pwrEvt_cyc : (pwrEvt i s).cyc = s.cyc := pwrEvt_frame i s .cyc (by decide)
@[simp] theorem pwrEvt_lane : (pwrEvt i s).lane = s.lane := pwrEvt_frame i s .lane (by decide)
@[simp] theorem pwrEvt_sup : (pwrEvt i s).sup = s.sup := pwrEvt_frame i s .sup (by decide)
@[simp] theorem pwrEvt_sess : (pwrEvt i s).sess = s.sess := pwrEvt_frame i s .sess (by decide)
@[simp] theorem pwrEvt_log : (pwrEvt i s).log = s.log := pwrEvt_frame i s .log (by decide)
@[simp] theorem pwrEvt_hp : (pwrEvt i s).hp = s.hp := pwrEvt_frame i s .hp (by decide)
@[simp] theorem pwrEvt_keep : (pwrEvt i s).keep = s.keep := pwrEvt_frame i s .keep (by decide)
@[simp] theorem pwrEvt_evr : (pwrEvt i s).evr = s.evr := pwrEvt_frame i s .evr (by decide)
@[simp] theorem pwrEvt_nv : (pwrEvt i s).nv = s.nv := pwrEvt_frame i s .nv (by decide)
@[simp] theorem pwrEvt_inp : (pwrEvt i s).inp = s.inp := pwrEvt_frame i s .inp (by decide)
@[simp] theorem pwrEvt_mm : (pwrEvt i s).mm = s.mm := pwrEvt_frame i s .mm (by decide)
@[simp] theorem pwrEvt_out : (pwrEvt i s).out = s.out := pwrEvt_frame i s .out (by decide)
@[simp] theorem pwrEvt_xl : (pwrEvt i s).xl = s.xl := pwrEvt_frame i s .xl (by decide)
@[simp] theorem pwrEvt_ring : (pwrEvt i s).ring = s.ring := pwrEvt_frame i s .ring (by decide)
@[simp] theorem pwrEvt_tmr : (pwrEvt i s).tmr = s.tmr := pwrEvt_frame i s .tmr (by decide)
@[simp] theorem pwrEvt_mem : (pwrEvt i s).mem = s.mem := pwrEvt_frame i s .mem (by decide)
@[simp] theorem pwrEvt_fuse : (pwrEvt i s).fuse = s.fuse := pwrEvt_frame i s .fuse (by decide)
@[simp] theorem pwrEvt_image : (pwrEvt i s).image = s.image := pwrEvt_frame i s .image (by decide)

/-- `evrEvt` changes only: evr. -/
theorem evrEvt_frame : onlyChanges [.evr] s (evrEvt i s) := by
  intro b hb; cases b <;> first | (simp at hb; done) | rfl
@[simp] theorem evrEvt_pending : (evrEvt i s).pending = s.pending := evrEvt_frame i s .pending (by decide)
@[simp] theorem evrEvt_free : (evrEvt i s).free = s.free := evrEvt_frame i s .free (by decide)
@[simp] theorem evrEvt_rdata : (evrEvt i s).rdata = s.rdata := evrEvt_frame i s .rdata (by decide)
@[simp] theorem evrEvt_md : (evrEvt i s).md = s.md := evrEvt_frame i s .md (by decide)
@[simp] theorem evrEvt_time : (evrEvt i s).time = s.time := evrEvt_frame i s .time (by decide)
@[simp] theorem evrEvt_cyc : (evrEvt i s).cyc = s.cyc := evrEvt_frame i s .cyc (by decide)
@[simp] theorem evrEvt_lane : (evrEvt i s).lane = s.lane := evrEvt_frame i s .lane (by decide)
@[simp] theorem evrEvt_sup : (evrEvt i s).sup = s.sup := evrEvt_frame i s .sup (by decide)
@[simp] theorem evrEvt_sess : (evrEvt i s).sess = s.sess := evrEvt_frame i s .sess (by decide)
@[simp] theorem evrEvt_log : (evrEvt i s).log = s.log := evrEvt_frame i s .log (by decide)
@[simp] theorem evrEvt_hp : (evrEvt i s).hp = s.hp := evrEvt_frame i s .hp (by decide)
@[simp] theorem evrEvt_keep : (evrEvt i s).keep = s.keep := evrEvt_frame i s .keep (by decide)
@[simp] theorem evrEvt_nv : (evrEvt i s).nv = s.nv := evrEvt_frame i s .nv (by decide)
@[simp] theorem evrEvt_inp : (evrEvt i s).inp = s.inp := evrEvt_frame i s .inp (by decide)
@[simp] theorem evrEvt_mm : (evrEvt i s).mm = s.mm := evrEvt_frame i s .mm (by decide)
@[simp] theorem evrEvt_out : (evrEvt i s).out = s.out := evrEvt_frame i s .out (by decide)
@[simp] theorem evrEvt_pwr : (evrEvt i s).pwr = s.pwr := evrEvt_frame i s .pwr (by decide)
@[simp] theorem evrEvt_xl : (evrEvt i s).xl = s.xl := evrEvt_frame i s .xl (by decide)
@[simp] theorem evrEvt_ring : (evrEvt i s).ring = s.ring := evrEvt_frame i s .ring (by decide)
@[simp] theorem evrEvt_tmr : (evrEvt i s).tmr = s.tmr := evrEvt_frame i s .tmr (by decide)
@[simp] theorem evrEvt_mem : (evrEvt i s).mem = s.mem := evrEvt_frame i s .mem (by decide)
@[simp] theorem evrEvt_fuse : (evrEvt i s).fuse = s.fuse := evrEvt_frame i s .fuse (by decide)
@[simp] theorem evrEvt_image : (evrEvt i s).image = s.image := evrEvt_frame i s .image (by decide)

end

end Sys2Proof.Machine
end

