-- ==== Sys2Proof/Laws/Serve.lean ====
section
/-! SUPPORT. What serving a supervisor command can do: the completion, the refusals, and the act of a command that is ready. -/

namespace Sys2Proof.Machine

theorem untake_ring {q : Req} {r : Fin 64} (h : q.src = .ring r) (s : State) : untake q s = { s with
    sup := { s.sup with taken := s.sup.taken.filter fun t => !t.isOf q }
    hp := { s.hp with rings := if s.sup.taken.any (fun t => t.isOf q && !t.mute) then vmod s.hp.rings r.val fun d => { d with inflight := d.inflight - 1 } else s.hp.rings } } := by
  unfold untake
  simp only [h]
  split <;> simp_all

/-- DMA runs after a command has left the list as before. -/
theorem dmaOn_untake (q : Req) (s : State) : dmaOn (untake q s) = dmaOn s := by
  cases hq : q.src with
  | ring r => rw [untake_ring hq]; rfl
  | sideband => simp only [untake, hq]; rfl

theorem completeWith_done (q : Req) (op : Nat) (st : Status) (res : List Byte) (buf : Option (List Byte)) (s : State) :
    Done q op st res buf s (completeWith q op st res buf false s) := by
  unfold Done completeWith
  cases hq : q.src with
  | ring r =>
    have hd := dmaOn_untake q s
    rw [untake_ring hq] at hd ⊢
    cases buf with
    | none =>
      refine ⟨s.hp.mem, s.hp.outWait, ?_, by simp, by simp⟩
      simp only [postedBy, isMuted]
      split <;> simp_all [inlineMax]
    | some b =>
      simp only [bufferWrite, hd]
      cases dmaOn s with
      | false =>
        refine ⟨s.hp.mem, s.hp.outWait ++ [(q.obuf.1, b)], ?_, by simp, by simp; rfl⟩
        simp only [postedBy, isMuted]
        split <;> simp_all [inlineMax]
      | true =>
        refine ⟨Mem.writeBytes 0 s.hp.mem q.obuf.1 b, s.hp.outWait, ?_, by simp, ?_⟩
        · simp only [postedBy, isMuted, busWrite]
          split <;> simp_all [inlineMax]
        · simp only [Option.some.injEq]
          rintro _ rfl
          exact ⟨nofun, fun _ => ⟨trivial, fun hm => ⟨Mem.readBytes_writeBytes _ _ hm, fun x hx => Mem.read_writeBytes_other _ hx hm⟩⟩⟩
  | sideband =>
    simp only [untake, hq, sbRespond, midOf]
    cases buf <;> cases s.keep.waiting <;> rfl

theorem answer_answered {q : Req} {op : Nat} {res : List Byte} {s : State} (h : s.sup.sup = .serving) (hl : res.length ≤ q.olen ∨ q.flag 1 = false) :
    Answered q op res s (answer op q res s) := by
  unfold Answered answer
  by_cases hf : q.flag 1 = true
  · simp only [hf, if_true]
    have := hl.resolve_right (by simp [hf])
    rw [List.take_of_length_le this]
    exact completeWith_done ..
  · simp only [hf, complete, h, if_true, Bool.false_eq_true, if_false]
    exact completeWith_done ..

theorem foldMin_none (l : List Nat) : (l.foldl (fun a o => match a with | none => some o | some b => some (min b o)) (none : Option Nat)) = none ↔ l = [] := by
  have hs : ∀ (l : List Nat) (x : Nat), (l.foldl (fun a o => match a with | none => some o | some b => some (min b o)) (some x)) ≠ none := by
    intro l
    induction l with
    | nil => intro x; simp
    | cons a r ih => intro x; simpa using ih _
  cases l with
  | nil => simp
  | cons a r => simpa using hs r a

/-- A command that no check refuses has its conditions: no offending byte, admission, no refusal of its own. -/
theorem refuse_none {n : Needs} {op : Nat} {q : Req} {lg : Bool} {s : State} (h : n.refuse op q lg s = none) :
    n.life = none ∧ n.offset q s = none ∧ n.prot = none ∧ admits s op = true ∧ n.wrong = false ∧ n.test = none ∧ n.supply = none ∧ n.busy = false ∧ n.own = none := by
  unfold Needs.refuse at h
  cases h1 : n.life <;> simp only [h1] at h <;> try simp at h
  cases h2 : n.offset q s <;> simp only [h2] at h <;> try simp at h
  cases h3 : n.prot <;> simp only [h3] at h <;> try simp at h
  cases h4 : admits s op <;> cases h5 : n.wrong <;> simp [h4, h5] at h
  cases h6 : n.test <;> simp only [h6] at h <;> try simp at h
  cases h7 : n.supply <;> simp only [h7] at h <;> try simp at h
  cases h8 : n.busy <;> simp [h8] at h
  cases h9 : n.own <;> simp only [h9] at h <;> try simp at h
  simp

/-- The results of a ready command fit its output buffer. -/
theorem out_fits {n : Needs} {q : Req} {s : State} (h : n.offset q s = none) (hf : q.flag 1 = true) : n.out ≤ q.olen := by
  unfold Needs.offset at h
  replace h := (foldMin_none _).1 h
  simp only [List.append_eq_nil_iff] at h
  have := h.1.1.1.2
  simp [hf] at this
  exact this

/-- No parameter of a ready command offends. -/
theorem bad_none {n : Needs} {q : Req} {s : State} (h : n.offset q s = none) : ∀ b ∈ n.bad, b.1 = false := by
  unfold Needs.offset at h
  replace h := (foldMin_none _).1 h
  simp only [List.append_eq_nil_iff] at h
  have := h.1.1.1.1.1.2
  simp at this
  intro b hb
  obtain ⟨x, y⟩ := b
  cases x with
  | false => rfl
  | true => exact absurd hb (this y)

theorem Ready.entry {cls : Cls} {op : Nat} {q : Req} {n : Needs} {s : State} (h : Ready cls op q n s) : entryOf op q s = q := h.2.1

/-- A ready command acts, after its change-log entry. -/
theorem serve_ready {cls : Cls} {op : Nat} {q : Req} {needs : State → Needs} {s : State} (act : State → State) (h : Ready cls op q (needs s) s) :
    serve cls op q needs act s = act (if (needs s).logs then entered cls op q s else s) := by
  obtain ⟨h1, h2, ⟨t, h3, h4⟩, h5, h6, h7⟩ := h
  unfold serve
  simp only [h3, h1, h5, and_self, if_true]
  unfold runCmd
  simp only [h6, Bool.false_eq_true, if_false, h4]
  rw [h7]
  simp only [entered, h3, Option.elim]
  cases hl : (needs s).logs <;> by_cases hc : cls.sup (raiseOf s (op / 256)) = .p0 <;> simp [hc]

@[simp] theorem logCmd_sup (op : Nat) (q : Req) (st : Status) (a : Nat) (s : State) : (logCmd op q st a s).sup = s.sup := rfl

@[simp] theorem entered_sup (cls : Cls) (op : Nat) (q : Req) (s : State) : (entered cls op q s).sup = s.sup := by unfold entered; split <;> rfl

/-- Every field but the change log is as before a command's change-log entry. -/
theorem entered_eq (cls : Cls) (op : Nat) (q : Req) (s : State) : entered cls op q s = { s with log := (entered cls op q s).log } := by
  unfold entered; split <;> rfl

section
variable (cls : Cls) (op : Nat) (q : Req) (s : State)
@[simp] theorem entered_sess : (entered cls op q s).sess = s.sess := by rw [entered_eq]
@[simp] theorem entered_nv : (entered cls op q s).nv = s.nv := by rw [entered_eq]
@[simp] theorem entered_cyc : (entered cls op q s).cyc = s.cyc := by rw [entered_eq]
@[simp] theorem entered_keep : (entered cls op q s).keep = s.keep := by rw [entered_eq]
@[simp] theorem entered_md : (entered cls op q s).md = s.md := by rw [entered_eq]
@[simp] theorem entered_lane : (entered cls op q s).lane = s.lane := by rw [entered_eq]
@[simp] theorem entered_xl : (entered cls op q s).xl = s.xl := by rw [entered_eq]
@[simp] theorem entered_evr : (entered cls op q s).evr = s.evr := by rw [entered_eq]
@[simp] theorem entered_hp : (entered cls op q s).hp = s.hp := by rw [entered_eq]
@[simp] theorem entered_out : (entered cls op q s).out = s.out := by rw [entered_eq]
@[simp] theorem entered_ring : (entered cls op q s).ring = s.ring := by rw [entered_eq]
@[simp] theorem entered_time : (entered cls op q s).time = s.time := by rw [entered_eq]
@[simp] theorem entered_fuse : (entered cls op q s).fuse = s.fuse := by rw [entered_eq]
@[simp] theorem entered_pwr : (entered cls op q s).pwr = s.pwr := by rw [entered_eq]
@[simp] theorem entered_inp : (entered cls op q s).inp = s.inp := by rw [entered_eq]
@[simp] theorem entered_mm : (entered cls op q s).mm = s.mm := by rw [entered_eq]
@[simp] theorem entered_tmr : (entered cls op q s).tmr = s.tmr := by rw [entered_eq]
@[simp] theorem entered_image : (entered cls op q s).image = s.image := by rw [entered_eq]
@[simp] theorem entered_pending : (entered cls op q s).pending = s.pending := by rw [entered_eq]
@[simp] theorem entered_free : (entered cls op q s).free = s.free := by rw [entered_eq]
@[simp] theorem entered_mem : (entered cls op q s).mem = s.mem := by rw [entered_eq]
end

@[simp] theorem length_leBytes (k v : Nat) : (leBytes k v).length = k := by induction k generalizing v <;> simp_all [leBytes]

@[simp] theorem length_words (l : List Nat) : (words l).length = 4 * l.length := by
  induction l <;> simp_all [words]
  omega

@[simp] theorem length_padTo (n : Nat) (l : List Byte) : (padTo n l).length = n := by
  simp only [padTo, List.length_append, List.length_take, List.length_replicate]
  omega

/-- A result within the command's length fits the output of a ready command. -/
theorem Ready.fits {cls : Cls} {op : Nat} {q : Req} {n : Needs} {s : State} (h : Ready cls op q n s) (l : List Byte) (hl : l.length ≤ n.out) :
    l.length ≤ q.olen ∨ q.flag 1 = false := by
  by_cases hf : q.flag 1 = true
  · exact .inl (Nat.le_trans hl (out_fits (refuse_none h.2.2.2.2.2).2.1 hf))
  · exact .inr (by simpa using hf)

/-! Keeper commands. -/

/-- A keeper command that is ready acts. -/
theorem KpReady.serve {cmd : Nat} {f : Frame} {n : KpNeeds} {s : State} (act : State → State) (h : KpReady cmd f n s) :
    kpServe cmd f n act s = act (if n.logs then kpEntered cmd f s else kpHeard cmd f s) := by
  obtain ⟨h1, h2, h3, h4, h5, h6⟩ := h
  simp only [kpServe, h1, h2, h3, h6, kpEntered]
  simp [Nat.not_lt.2 h4, h5]

theorem kpAnswer_eq (cmd : Nat) (f : Frame) (st : Status) (res : List Byte) (s : State) : kpAnswer cmd f st res s = kpSent cmd f st res s := by
  simp [kpAnswer, kpSent, Frame.all, sbRespond, midOf]

end Sys2Proof.Machine
end

