-- ==== Sys2Proof/Laws/State.lean ====
section
/-! SUPPORT. What each named update of the state leaves alone, and what it writes: one lemma per field, true by rfl. -/

namespace Sys2Proof.Machine

section modMring
variable (r : Nat) (f : MRing → MRing) (s : State)
@[simp] theorem modMring_rings : (modMring r f s).hp.rings = vmod s.hp.rings r f := rfl
theorem modMring_hp : (modMring r f s).hp = { s.hp with rings := vmod s.hp.rings r f } := rfl
@[simp] theorem modMring_pending : (modMring r f s).pending = s.pending := rfl
@[simp] theorem modMring_free : (modMring r f s).free = s.free := rfl
@[simp] theorem modMring_rdata : (modMring r f s).rdata = s.rdata := rfl
@[simp] theorem modMring_md : (modMring r f s).md = s.md := rfl
@[simp] theorem modMring_time : (modMring r f s).time = s.time := rfl
@[simp] theorem modMring_cyc : (modMring r f s).cyc = s.cyc := rfl
@[simp] theorem modMring_lane : (modMring r f s).lane = s.lane := rfl
@[simp] theorem modMring_sup : (modMring r f s).sup = s.sup := rfl
@[simp] theorem modMring_sess : (modMring r f s).sess = s.sess := rfl
@[simp] theorem modMring_log : (modMring r f s).log = s.log := rfl
@[simp] theorem modMring_keep : (modMring r f s).keep = s.keep := rfl
@[simp] theorem modMring_evr : (modMring r f s).evr = s.evr := rfl
@[simp] theorem modMring_nv : (modMring r f s).nv = s.nv := rfl
@[simp] theorem modMring_inp : (modMring r f s).inp = s.inp := rfl
@[simp] theorem modMring_mm : (modMring r f s).mm = s.mm := rfl
@[simp] theorem modMring_out : (modMring r f s).out = s.out := rfl
@[simp] theorem modMring_pwr : (modMring r f s).pwr = s.pwr := rfl
@[simp] theorem modMring_xl : (modMring r f s).xl = s.xl := rfl
@[simp] theorem modMring_ring : (modMring r f s).ring = s.ring := rfl
@[simp] theorem modMring_tmr : (modMring r f s).tmr = s.tmr := rfl
@[simp] theorem modMring_mem : (modMring r f s).mem = s.mem := rfl
@[simp] theorem modMring_fuse : (modMring r f s).fuse = s.fuse := rfl
@[simp] theorem modMring_image : (modMring r f s).image = s.image := rfl
end modMring

section modStream
variable (i : Nat) (f : Stream → Stream) (s : State)
@[simp] theorem modStream_streams : (modStream i f s).hp.streams = vmod s.hp.streams i f := rfl
theorem modStream_hp : (modStream i f s).hp = { s.hp with streams := vmod s.hp.streams i f } := rfl
@[simp] theorem modStream_pending : (modStream i f s).pending = s.pending := rfl
@[simp] theorem modStream_free : (modStream i f s).free = s.free := rfl
@[simp] theorem modStream_rdata : (modStream i f s).rdata = s.rdata := rfl
@[simp] theorem modStream_md : (modStream i f s).md = s.md := rfl
@[simp] theorem modStream_time : (modStream i f s).time = s.time := rfl
@[simp] theorem modStream_cyc : (modStream i f s).cyc = s.cyc := rfl
@[simp] theorem modStream_lane : (modStream i f s).lane = s.lane := rfl
@[simp] theorem modStream_sup : (modStream i f s).sup = s.sup := rfl
@[simp] theorem modStream_sess : (modStream i f s).sess = s.sess := rfl
@[simp] theorem modStream_log : (modStream i f s).log = s.log := rfl
@[simp] theorem modStream_keep : (modStream i f s).keep = s.keep := rfl
@[simp] theorem modStream_evr : (modStream i f s).evr = s.evr := rfl
@[simp] theorem modStream_nv : (modStream i f s).nv = s.nv := rfl
@[simp] theorem modStream_inp : (modStream i f s).inp = s.inp := rfl
@[simp] theorem modStream_mm : (modStream i f s).mm = s.mm := rfl
@[simp] theorem modStream_out : (modStream i f s).out = s.out := rfl
@[simp] theorem modStream_pwr : (modStream i f s).pwr = s.pwr := rfl
@[simp] theorem modStream_xl : (modStream i f s).xl = s.xl := rfl
@[simp] theorem modStream_ring : (modStream i f s).ring = s.ring := rfl
@[simp] theorem modStream_tmr : (modStream i f s).tmr = s.tmr := rfl
@[simp] theorem modStream_mem : (modStream i f s).mem = s.mem := rfl
@[simp] theorem modStream_fuse : (modStream i f s).fuse = s.fuse := rfl
@[simp] theorem modStream_image : (modStream i f s).image = s.image := rfl
end modStream

section inpEvt
variable (v : Nat) (s : State)
@[simp] theorem inpEvt_evt : (inpEvt v s).inp.evt = s.inp.evt ||| BitVec.ofNat 32 v := rfl
theorem inpEvt_inp : (inpEvt v s).inp = { s.inp with evt := s.inp.evt ||| BitVec.ofNat 32 v } := rfl
@[simp] theorem inpEvt_pending : (inpEvt v s).pending = s.pending := rfl
@[simp] theorem inpEvt_free : (inpEvt v s).free = s.free := rfl
@[simp] theorem inpEvt_rdata : (inpEvt v s).rdata = s.rdata := rfl
@[simp] theorem inpEvt_md : (inpEvt v s).md = s.md := rfl
@[simp] theorem inpEvt_time : (inpEvt v s).time = s.time := rfl
@[simp] theorem inpEvt_cyc : (inpEvt v s).cyc = s.cyc := rfl
@[simp] theorem inpEvt_lane : (inpEvt v s).lane = s.lane := rfl
@[simp] theorem inpEvt_sup : (inpEvt v s).sup = s.sup := rfl
@[simp] theorem inpEvt_sess : (inpEvt v s).sess = s.sess := rfl
@[simp] theorem inpEvt_log : (inpEvt v s).log = s.log := rfl
@[simp] theorem inpEvt_hp : (inpEvt v s).hp = s.hp := rfl
@[simp] theorem inpEvt_keep : (inpEvt v s).keep = s.keep := rfl
@[simp] theorem inpEvt_evr : (inpEvt v s).evr = s.evr := rfl
@[simp] theorem inpEvt_nv : (inpEvt v s).nv = s.nv := rfl
@[simp] theorem inpEvt_mm : (inpEvt v s).mm = s.mm := rfl
@[simp] theorem inpEvt_out : (inpEvt v s).out = s.out := rfl
@[simp] theorem inpEvt_pwr : (inpEvt v s).pwr = s.pwr := rfl
@[simp] theorem inpEvt_xl : (inpEvt v s).xl = s.xl := rfl
@[simp] theorem inpEvt_ring : (inpEvt v s).ring = s.ring := rfl
@[simp] theorem inpEvt_tmr : (inpEvt v s).tmr = s.tmr := rfl
@[simp] theorem inpEvt_mem : (inpEvt v s).mem = s.mem := rfl
@[simp] theorem inpEvt_fuse : (inpEvt v s).fuse = s.fuse := rfl
@[simp] theorem inpEvt_image : (inpEvt v s).image = s.image := rfl
end inpEvt

section modInp
variable (n : Nat) (f : Inp → Inp) (s : State)
@[simp] theorem modInp_inps : (modInp n f s).inp.inps = vmod s.inp.inps n f := rfl
theorem modInp_inp : (modInp n f s).inp = { s.inp with inps := vmod s.inp.inps n f } := rfl
@[simp] theorem modInp_pending : (modInp n f s).pending = s.pending := rfl
@[simp] theorem modInp_free : (modInp n f s).free = s.free := rfl
@[simp] theorem modInp_rdata : (modInp n f s).rdata = s.rdata := rfl
@[simp] theorem modInp_md : (modInp n f s).md = s.md := rfl
@[simp] theorem modInp_time : (modInp n f s).time = s.time := rfl
@[simp] theorem modInp_cyc : (modInp n f s).cyc = s.cyc := rfl
@[simp] theorem modInp_lane : (modInp n f s).lane = s.lane := rfl
@[simp] theorem modInp_sup : (modInp n f s).sup = s.sup := rfl
@[simp] theorem modInp_sess : (modInp n f s).sess = s.sess := rfl
@[simp] theorem modInp_log : (modInp n f s).log = s.log := rfl
@[simp] theorem modInp_hp : (modInp n f s).hp = s.hp := rfl
@[simp] theorem modInp_keep : (modInp n f s).keep = s.keep := rfl
@[simp] theorem modInp_evr : (modInp n f s).evr = s.evr := rfl
@[simp] theorem modInp_nv : (modInp n f s).nv = s.nv := rfl
@[simp] theorem modInp_mm : (modInp n f s).mm = s.mm := rfl
@[simp] theorem modInp_out : (modInp n f s).out = s.out := rfl
@[simp] theorem modInp_pwr : (modInp n f s).pwr = s.pwr := rfl
@[simp] theorem modInp_xl : (modInp n f s).xl = s.xl := rfl
@[simp] theorem modInp_ring : (modInp n f s).ring = s.ring := rfl
@[simp] theorem modInp_tmr : (modInp n f s).tmr = s.tmr := rfl
@[simp] theorem modInp_mem : (modInp n f s).mem = s.mem := rfl
@[simp] theorem modInp_fuse : (modInp n f s).fuse = s.fuse := rfl
@[simp] theorem modInp_image : (modInp n f s).image = s.image := rfl
end modInp

section modLane
variable (k : Nat) (f : Lane → Lane) (s : State)
@[simp] theorem modLane_lanes : (modLane k f s).lane.lanes = vmod s.lane.lanes k f := rfl
theorem modLane_lane : (modLane k f s).lane = { s.lane with lanes := vmod s.lane.lanes k f } := rfl
@[simp] theorem modLane_pending : (modLane k f s).pending = s.pending := rfl
@[simp] theorem modLane_free : (modLane k f s).free = s.free := rfl
@[simp] theorem modLane_rdata : (modLane k f s).rdata = s.rdata := rfl
@[simp] theorem modLane_md : (modLane k f s).md = s.md := rfl
@[simp] theorem modLane_time : (modLane k f s).time = s.time := rfl
@[simp] theorem modLane_cyc : (modLane k f s).cyc = s.cyc := rfl
@[simp] theorem modLane_sup : (modLane k f s).sup = s.sup := rfl
@[simp] theorem modLane_sess : (modLane k f s).sess = s.sess := rfl
@[simp] theorem modLane_log : (modLane k f s).log = s.log := rfl
@[simp] theorem modLane_hp : (modLane k f s).hp = s.hp := rfl
@[simp] theorem modLane_keep : (modLane k f s).keep = s.keep := rfl
@[simp] theorem modLane_evr : (modLane k f s).evr = s.evr := rfl
@[simp] theorem modLane_nv : (modLane k f s).nv = s.nv := rfl
@[simp] theorem modLane_inp : (modLane k f s).inp = s.inp := rfl
@[simp] theorem modLane_mm : (modLane k f s).mm = s.mm := rfl
@[simp] theorem modLane_out : (modLane k f s).out = s.out := rfl
@[simp] theorem modLane_pwr : (modLane k f s).pwr = s.pwr := rfl
@[simp] theorem modLane_xl : (modLane k f s).xl = s.xl := rfl
@[simp] theorem modLane_ring : (modLane k f s).ring = s.ring := rfl
@[simp] theorem modLane_tmr : (modLane k f s).tmr = s.tmr := rfl
@[simp] theorem modLane_mem : (modLane k f s).mem = s.mem := rfl
@[simp] theorem modLane_fuse : (modLane k f s).fuse = s.fuse := rfl
@[simp] theorem modLane_image : (modLane k f s).image = s.image := rfl
end modLane

section modLl
variable (i : Nat) (f : LLane → LLane) (s : State)
@[simp] theorem modLl_lls : (modLl i f s).lane.lls = vmod s.lane.lls i f := rfl
theorem modLl_lane : (modLl i f s).lane = { s.lane with lls := vmod s.lane.lls i f } := rfl
@[simp] theorem modLl_pending : (modLl i f s).pending = s.pending := rfl
@[simp] theorem modLl_free : (modLl i f s).free = s.free := rfl
@[simp] theorem modLl_rdata : (modLl i f s).rdata = s.rdata := rfl
@[simp] theorem modLl_md : (modLl i f s).md = s.md := rfl
@[simp] theorem modLl_time : (modLl i f s).time = s.time := rfl
@[simp] theorem modLl_cyc : (modLl i f s).cyc = s.cyc := rfl
@[simp] theorem modLl_sup : (modLl i f s).sup = s.sup := rfl
@[simp] theorem modLl_sess : (modLl i f s).sess = s.sess := rfl
@[simp] theorem modLl_log : (modLl i f s).log = s.log := rfl
@[simp] theorem modLl_hp : (modLl i f s).hp = s.hp := rfl
@[simp] theorem modLl_keep : (modLl i f s).keep = s.keep := rfl
@[simp] theorem modLl_evr : (modLl i f s).evr = s.evr := rfl
@[simp] theorem modLl_nv : (modLl i f s).nv = s.nv := rfl
@[simp] theorem modLl_inp : (modLl i f s).inp = s.inp := rfl
@[simp] theorem modLl_mm : (modLl i f s).mm = s.mm := rfl
@[simp] theorem modLl_out : (modLl i f s).out = s.out := rfl
@[simp] theorem modLl_pwr : (modLl i f s).pwr = s.pwr := rfl
@[simp] theorem modLl_xl : (modLl i f s).xl = s.xl := rfl
@[simp] theorem modLl_ring : (modLl i f s).ring = s.ring := rfl
@[simp] theorem modLl_tmr : (modLl i f s).tmr = s.tmr := rfl
@[simp] theorem modLl_mem : (modLl i f s).mem = s.mem := rfl
@[simp] theorem modLl_fuse : (modLl i f s).fuse = s.fuse := rfl
@[simp] theorem modLl_image : (modLl i f s).image = s.image := rfl
end modLl

section memEvt
variable (i : Nat) (s : State)
@[simp] theorem memEvt_evt : (memEvt i s).mem.evt = s.mem.evt ||| BitVec.twoPow 32 i := rfl
theorem memEvt_mem : (memEvt i s).mem = { s.mem with evt := s.mem.evt ||| BitVec.twoPow 32 i } := rfl
@[simp] theorem memEvt_pending : (memEvt i s).pending = s.pending := rfl
@[simp] theorem memEvt_free : (memEvt i s).free = s.free := rfl
@[simp] theorem memEvt_rdata : (memEvt i s).rdata = s.rdata := rfl
@[simp] theorem memEvt_md : (memEvt i s).md = s.md := rfl
@[simp] theorem memEvt_time : (memEvt i s).time = s.time := rfl
@[simp] theorem memEvt_cyc : (memEvt i s).cyc = s.cyc := rfl
@[simp] theorem memEvt_lane : (memEvt i s).lane = s.lane := rfl
@[simp] theorem memEvt_sup : (memEvt i s).sup = s.sup := rfl
@[simp] theorem memEvt_sess : (memEvt i s).sess = s.sess := rfl
@[simp] theorem memEvt_log : (memEvt i s).log = s.log := rfl
@[simp] theorem memEvt_hp : (memEvt i s).hp = s.hp := rfl
@[simp] theorem memEvt_keep : (memEvt i s).keep = s.keep := rfl
@[simp] theorem memEvt_evr : (memEvt i s).evr = s.evr := rfl
@[simp] theorem memEvt_nv : (memEvt i s).nv = s.nv := rfl
@[simp] theorem memEvt_inp : (memEvt i s).inp = s.inp := rfl
@[simp] theorem memEvt_mm : (memEvt i s).mm = s.mm := rfl
@[simp] theorem memEvt_out : (memEvt i s).out = s.out := rfl
@[simp] theorem memEvt_pwr : (memEvt i s).pwr = s.pwr := rfl
@[simp] theorem memEvt_xl : (memEvt i s).xl = s.xl := rfl
@[simp] theorem memEvt_ring : (memEvt i s).ring = s.ring := rfl
@[simp] theorem memEvt_tmr : (memEvt i s).tmr = s.tmr := rfl
@[simp] theorem memEvt_fuse : (memEvt i s).fuse = s.fuse := rfl
@[simp] theorem memEvt_image : (memEvt i s).image = s.image := rfl
end memEvt

section modMon
variable (n : Nat) (f : Mon → Mon) (s : State)
@[simp] theorem modMon_mons : (modMon n f s).mm.mons = vmod s.mm.mons n f := rfl
theorem modMon_mm : (modMon n f s).mm = { s.mm with mons := vmod s.mm.mons n f } := rfl
@[simp] theorem modMon_pending : (modMon n f s).pending = s.pending := rfl
@[simp] theorem modMon_free : (modMon n f s).free = s.free := rfl
@[simp] theorem modMon_rdata : (modMon n f s).rdata = s.rdata := rfl
@[simp] theorem modMon_md : (modMon n f s).md = s.md := rfl
@[simp] theorem modMon_time : (modMon n f s).time = s.time := rfl
@[simp] theorem modMon_cyc : (modMon n f s).cyc = s.cyc := rfl
@[simp] theorem modMon_lane : (modMon n f s).lane = s.lane := rfl
@[simp] theorem modMon_sup : (modMon n f s).sup = s.sup := rfl
@[simp] theorem modMon_sess : (modMon n f s).sess = s.sess := rfl
@[simp] theorem modMon_log : (modMon n f s).log = s.log := rfl
@[simp] theorem modMon_hp : (modMon n f s).hp = s.hp := rfl
@[simp] theorem modMon_keep : (modMon n f s).keep = s.keep := rfl
@[simp] theorem modMon_evr : (modMon n f s).evr = s.evr := rfl
@[simp] theorem modMon_nv : (modMon n f s).nv = s.nv := rfl
@[simp] theorem modMon_inp : (modMon n f s).inp = s.inp := rfl
@[simp] theorem modMon_out : (modMon n f s).out = s.out := rfl
@[simp] theorem modMon_pwr : (modMon n f s).pwr = s.pwr := rfl
@[simp] theorem modMon_xl : (modMon n f s).xl = s.xl := rfl
@[simp] theorem modMon_ring : (modMon n f s).ring = s.ring := rfl
@[simp] theorem modMon_tmr : (modMon n f s).tmr = s.tmr := rfl
@[simp] theorem modMon_mem : (modMon n f s).mem = s.mem := rfl
@[simp] theorem modMon_fuse : (modMon n f s).fuse = s.fuse := rfl
@[simp] theorem modMon_image : (modMon n f s).image = s.image := rfl
end modMon

section modUnit
variable (u : Nat) (f : MUnit → MUnit) (s : State)
@[simp] theorem modUnit_units : (modUnit u f s).mm.units = vmod s.mm.units u f := rfl
theorem modUnit_mm : (modUnit u f s).mm = { s.mm with units := vmod s.mm.units u f } := rfl
@[simp] theorem modUnit_pending : (modUnit u f s).pending = s.pending := rfl
@[simp] theorem modUnit_free : (modUnit u f s).free = s.free := rfl
@[simp] theorem modUnit_rdata : (modUnit u f s).rdata = s.rdata := rfl
@[simp] theorem modUnit_md : (modUnit u f s).md = s.md := rfl
@[simp] theorem modUnit_time : (modUnit u f s).time = s.time := rfl
@[simp] theorem modUnit_cyc : (modUnit u f s).cyc = s.cyc := rfl
@[simp] theorem modUnit_lane : (modUnit u f s).lane = s.lane := rfl
@[simp] theorem modUnit_sup : (modUnit u f s).sup = s.sup := rfl
@[simp] theorem modUnit_sess : (modUnit u f s).sess = s.sess := rfl
@[simp] theorem modUnit_log : (modUnit u f s).log = s.log := rfl
@[simp] theorem modUnit_hp : (modUnit u f s).hp = s.hp := rfl
@[simp] theorem modUnit_keep : (modUnit u f s).keep = s.keep := rfl
@[simp] theorem modUnit_evr : (modUnit u f s).evr = s.evr := rfl
@[simp] theorem modUnit_nv : (modUnit u f s).nv = s.nv := rfl
@[simp] theorem modUnit_inp : (modUnit u f s).inp = s.inp := rfl
@[simp] theorem modUnit_out : (modUnit u f s).out = s.out := rfl
@[simp] theorem modUnit_pwr : (modUnit u f s).pwr = s.pwr := rfl
@[simp] theorem modUnit_xl : (modUnit u f s).xl = s.xl := rfl
@[simp] theorem modUnit_ring : (modUnit u f s).ring = s.ring := rfl
@[simp] theorem modUnit_tmr : (modUnit u f s).tmr = s.tmr := rfl
@[simp] theorem modUnit_mem : (modUnit u f s).mem = s.mem := rfl
@[simp] theorem modUnit_fuse : (modUnit u f s).fuse = s.fuse := rfl
@[simp] theorem modUnit_image : (modUnit u f s).image = s.image := rfl
end modUnit

section mmEvt
variable (i : Nat) (s : State)
@[simp] theorem mmEvt_evt : (mmEvt i s).mm.evt = s.mm.evt ||| BitVec.twoPow 32 i := rfl
theorem mmEvt_mm : (mmEvt i s).mm = { s.mm with evt := s.mm.evt ||| BitVec.twoPow 32 i } := rfl
@[simp] theorem mmEvt_pending : (mmEvt i s).pending = s.pending := rfl
@[simp] theorem mmEvt_free : (mmEvt i s).free = s.free := rfl
@[simp] theorem mmEvt_rdata : (mmEvt i s).rdata = s.rdata := rfl
@[simp] theorem mmEvt_md : (mmEvt i s).md = s.md := rfl
@[simp] theorem mmEvt_time : (mmEvt i s).time = s.time := rfl
@[simp] theorem mmEvt_cyc : (mmEvt i s).cyc = s.cyc := rfl
@[simp] theorem mmEvt_lane : (mmEvt i s).lane = s.lane := rfl
@[simp] theorem mmEvt_sup : (mmEvt i s).sup = s.sup := rfl
@[simp] theorem mmEvt_sess : (mmEvt i s).sess = s.sess := rfl
@[simp] theorem mmEvt_log : (mmEvt i s).log = s.log := rfl
@[simp] theorem mmEvt_hp : (mmEvt i s).hp = s.hp := rfl
@[simp] theorem mmEvt_keep : (mmEvt i s).keep = s.keep := rfl
@[simp] theorem mmEvt_evr : (mmEvt i s).evr = s.evr := rfl
@[simp] theorem mmEvt_nv : (mmEvt i s).nv = s.nv := rfl
@[simp] theorem mmEvt_inp : (mmEvt i s).inp = s.inp := rfl
@[simp] theorem mmEvt_out : (mmEvt i s).out = s.out := rfl
@[simp] theorem mmEvt_pwr : (mmEvt i s).pwr = s.pwr := rfl
@[simp] theorem mmEvt_xl : (mmEvt i s).xl = s.xl := rfl
@[simp] theorem mmEvt_ring : (mmEvt i s).ring = s.ring := rfl
@[simp] theorem mmEvt_tmr : (mmEvt i s).tmr = s.tmr := rfl
@[simp] theorem mmEvt_mem : (mmEvt i s).mem = s.mem := rfl
@[simp] theorem mmEvt_fuse : (mmEvt i s).fuse = s.fuse := rfl
@[simp] theorem mmEvt_image : (mmEvt i s).image = s.image := rfl
end mmEvt

section modOut
variable (n : Nat) (f : Out → Out) (s : State)
@[simp] theorem modOut_outs : (modOut n f s).out.outs = vmod s.out.outs n f := rfl
theorem modOut_out : (modOut n f s).out = { s.out with outs := vmod s.out.outs n f } := rfl
@[simp] theorem modOut_pending : (modOut n f s).pending = s.pending := rfl
@[simp] theorem modOut_free : (modOut n f s).free = s.free := rfl
@[simp] theorem modOut_rdata : (modOut n f s).rdata = s.rdata := rfl
@[simp] theorem modOut_md : (modOut n f s).md = s.md := rfl
@[simp] theorem modOut_time : (modOut n f s).time = s.time := rfl
@[simp] theorem modOut_cyc : (modOut n f s).cyc = s.cyc := rfl
@[simp] theorem modOut_lane : (modOut n f s).lane = s.lane := rfl
@[simp] theorem modOut_sup : (modOut n f s).sup = s.sup := rfl
@[simp] theorem modOut_sess : (modOut n f s).sess = s.sess := rfl
@[simp] theorem modOut_log : (modOut n f s).log = s.log := rfl
@[simp] theorem modOut_hp : (modOut n f s).hp = s.hp := rfl
@[simp] theorem modOut_keep : (modOut n f s).keep = s.keep := rfl
@[simp] theorem modOut_evr : (modOut n f s).evr = s.evr := rfl
@[simp] theorem modOut_nv : (modOut n f s).nv = s.nv := rfl
@[simp] theorem modOut_inp : (modOut n f s).inp = s.inp := rfl
@[simp] theorem modOut_mm : (modOut n f s).mm = s.mm := rfl
@[simp] theorem modOut_pwr : (modOut n f s).pwr = s.pwr := rfl
@[simp] theorem modOut_xl : (modOut n f s).xl = s.xl := rfl
@[simp] theorem modOut_ring : (modOut n f s).ring = s.ring := rfl
@[simp] theorem modOut_tmr : (modOut n f s).tmr = s.tmr := rfl
@[simp] theorem modOut_mem : (modOut n f s).mem = s.mem := rfl
@[simp] theorem modOut_fuse : (modOut n f s).fuse = s.fuse := rfl
@[simp] theorem modOut_image : (modOut n f s).image = s.image := rfl
end modOut

section modGrp
variable (g : Nat) (f : Grp → Grp) (s : State)
@[simp] theorem modGrp_grps : (modGrp g f s).out.grps = vmod s.out.grps g f := rfl
theorem modGrp_out : (modGrp g f s).out = { s.out with grps := vmod s.out.grps g f } := rfl
@[simp] theorem modGrp_pending : (modGrp g f s).pending = s.pending := rfl
@[simp] theorem modGrp_free : (modGrp g f s).free = s.free := rfl
@[simp] theorem modGrp_rdata : (modGrp g f s).rdata = s.rdata := rfl
@[simp] theorem modGrp_md : (modGrp g f s).md = s.md := rfl
@[simp] theorem modGrp_time : (modGrp g f s).time = s.time := rfl
@[simp] theorem modGrp_cyc : (modGrp g f s).cyc = s.cyc := rfl
@[simp] theorem modGrp_lane : (modGrp g f s).lane = s.lane := rfl
@[simp] theorem modGrp_sup : (modGrp g f s).sup = s.sup := rfl
@[simp] theorem modGrp_sess : (modGrp g f s).sess = s.sess := rfl
@[simp] theorem modGrp_log : (modGrp g f s).log = s.log := rfl
@[simp] theorem modGrp_hp : (modGrp g f s).hp = s.hp := rfl
@[simp] theorem modGrp_keep : (modGrp g f s).keep = s.keep := rfl
@[simp] theorem modGrp_evr : (modGrp g f s).evr = s.evr := rfl
@[simp] theorem modGrp_nv : (modGrp g f s).nv = s.nv := rfl
@[simp] theorem modGrp_inp : (modGrp g f s).inp = s.inp := rfl
@[simp] theorem modGrp_mm : (modGrp g f s).mm = s.mm := rfl
@[simp] theorem modGrp_pwr : (modGrp g f s).pwr = s.pwr := rfl
@[simp] theorem modGrp_xl : (modGrp g f s).xl = s.xl := rfl
@[simp] theorem modGrp_ring : (modGrp g f s).ring = s.ring := rfl
@[simp] theorem modGrp_tmr : (modGrp g f s).tmr = s.tmr := rfl
@[simp] theorem modGrp_mem : (modGrp g f s).mem = s.mem := rfl
@[simp] theorem modGrp_fuse : (modGrp g f s).fuse = s.fuse := rfl
@[simp] theorem modGrp_image : (modGrp g f s).image = s.image := rfl
end modGrp

section xlEvt
variable (i : Nat) (s : State)
@[simp] theorem xlEvt_evt : (xlEvt i s).xl.evt = s.xl.evt ||| BitVec.twoPow 32 i := rfl
theorem xlEvt_xl : (xlEvt i s).xl = { s.xl with evt := s.xl.evt ||| BitVec.twoPow 32 i } := rfl
@[simp] theorem xlEvt_pending : (xlEvt i s).pending = s.pending := rfl
@[simp] theorem xlEvt_free : (xlEvt i s).free = s.free := rfl
@[simp] theorem xlEvt_rdata : (xlEvt i s).rdata = s.rdata := rfl
@[simp] theorem xlEvt_md : (xlEvt i s).md = s.md := rfl
@[simp] theorem xlEvt_time : (xlEvt i s).time = s.time := rfl
@[simp] theorem xlEvt_cyc : (xlEvt i s).cyc = s.cyc := rfl
@[simp] theorem xlEvt_lane : (xlEvt i s).lane = s.lane := rfl
@[simp] theorem xlEvt_sup : (xlEvt i s).sup = s.sup := rfl
@[simp] theorem xlEvt_sess : (xlEvt i s).sess = s.sess := rfl
@[simp] theorem xlEvt_log : (xlEvt i s).log = s.log := rfl
@[simp] theorem xlEvt_hp : (xlEvt i s).hp = s.hp := rfl
@[simp] theorem xlEvt_keep : (xlEvt i s).keep = s.keep := rfl
@[simp] theorem xlEvt_evr : (xlEvt i s).evr = s.evr := rfl
@[simp] theorem xlEvt_nv : (xlEvt i s).nv = s.nv := rfl
@[simp] theorem xlEvt_inp : (xlEvt i s).inp = s.inp := rfl
@[simp] theorem xlEvt_mm : (xlEvt i s).mm = s.mm := rfl
@[simp] theorem xlEvt_out : (xlEvt i s).out = s.out := rfl
@[simp] theorem xlEvt_pwr : (xlEvt i s).pwr = s.pwr := rfl
@[simp] theorem xlEvt_ring : (xlEvt i s).ring = s.ring := rfl
@[simp] theorem xlEvt_tmr : (xlEvt i s).tmr = s.tmr := rfl
@[simp] theorem xlEvt_mem : (xlEvt i s).mem = s.mem := rfl
@[simp] theorem xlEvt_fuse : (xlEvt i s).fuse = s.fuse := rfl
@[simp] theorem xlEvt_image : (xlEvt i s).image = s.image := rfl
end xlEvt

section ringEvt
variable (i : Nat) (s : State)
@[simp] theorem ringEvt_evt : (ringEvt i s).ring.evt = s.ring.evt ||| BitVec.twoPow 32 i := rfl
theorem ringEvt_ring : (ringEvt i s).ring = { s.ring with evt := s.ring.evt ||| BitVec.twoPow 32 i } := rfl
@[simp] theorem ringEvt_pending : (ringEvt i s).pending = s.pending := rfl
@[simp] theorem ringEvt_free : (ringEvt i s).free = s.free := rfl
@[simp] theorem ringEvt_rdata : (ringEvt i s).rdata = s.rdata := rfl
@[simp] theorem ringEvt_md : (ringEvt i s).md = s.md := rfl
@[simp] theorem ringEvt_time : (ringEvt i s).time = s.time := rfl
@[simp] theorem ringEvt_cyc : (ringEvt i s).cyc = s.cyc := rfl
@[simp] theorem ringEvt_lane : (ringEvt i s).lane = s.lane := rfl
@[simp] theorem ringEvt_sup : (ringEvt i s).sup = s.sup := rfl
@[simp] theorem ringEvt_sess : (ringEvt i s).sess = s.sess := rfl
@[simp] theorem ringEvt_log : (ringEvt i s).log = s.log := rfl
@[simp] theorem ringEvt_hp : (ringEvt i s).hp = s.hp := rfl
@[simp] theorem ringEvt_keep : (ringEvt i s).keep = s.keep := rfl
@[simp] theorem ringEvt_evr : (ringEvt i s).evr = s.evr := rfl
@[simp] theorem ringEvt_nv : (ringEvt i s).nv = s.nv := rfl
@[simp] theorem ringEvt_inp : (ringEvt i s).inp = s.inp := rfl
@[simp] theorem ringEvt_mm : (ringEvt i s).mm = s.mm := rfl
@[simp] theorem ringEvt_out : (ringEvt i s).out = s.out := rfl
@[simp] theorem ringEvt_pwr : (ringEvt i s).pwr = s.pwr := rfl
@[simp] theorem ringEvt_xl : (ringEvt i s).xl = s.xl := rfl
@[simp] theorem ringEvt_tmr : (ringEvt i s).tmr = s.tmr := rfl
@[simp] theorem ringEvt_mem : (ringEvt i s).mem = s.mem := rfl
@[simp] theorem ringEvt_fuse : (ringEvt i s).fuse = s.fuse := rfl
@[simp] theorem ringEvt_image : (ringEvt i s).image = s.image := rfl
end ringEvt

section modRing
variable (k : Nat) (f : Ring → Ring) (s : State)
@[simp] theorem modRing_rings : (modRing k f s).ring.rings = vmod s.ring.rings k f := rfl
theorem modRing_ring : (modRing k f s).ring = { s.ring with rings := vmod s.ring.rings k f } := rfl
@[simp] theorem modRing_pending : (modRing k f s).pending = s.pending := rfl
@[simp] theorem modRing_free : (modRing k f s).free = s.free := rfl
@[simp] theorem modRing_rdata : (modRing k f s).rdata = s.rdata := rfl
@[simp] theorem modRing_md : (modRing k f s).md = s.md := rfl
@[simp] theorem modRing_time : (modRing k f s).time = s.time := rfl
@[simp] theorem modRing_cyc : (modRing k f s).cyc = s.cyc := rfl
@[simp] theorem modRing_lane : (modRing k f s).lane = s.lane := rfl
@[simp] theorem modRing_sup : (modRing k f s).sup = s.sup := rfl
@[simp] theorem modRing_sess : (modRing k f s).sess = s.sess := rfl
@[simp] theorem modRing_log : (modRing k f s).log = s.log := rfl
@[simp] theorem modRing_hp : (modRing k f s).hp = s.hp := rfl
@[simp] theorem modRing_keep : (modRing k f s).keep = s.keep := rfl
@[simp] theorem modRing_evr : (modRing k f s).evr = s.evr := rfl
@[simp] theorem modRing_nv : (modRing k f s).nv = s.nv := rfl
@[simp] theorem modRing_inp : (modRing k f s).inp = s.inp := rfl
@[simp] theorem modRing_mm : (modRing k f s).mm = s.mm := rfl
@[simp] theorem modRing_out : (modRing k f s).out = s.out := rfl
@[simp] theorem modRing_pwr : (modRing k f s).pwr = s.pwr := rfl
@[simp] theorem modRing_xl : (modRing k f s).xl = s.xl := rfl
@[simp] theorem modRing_tmr : (modRing k f s).tmr = s.tmr := rfl
@[simp] theorem modRing_mem : (modRing k f s).mem = s.mem := rfl
@[simp] theorem modRing_fuse : (modRing k f s).fuse = s.fuse := rfl
@[simp] theorem modRing_image : (modRing k f s).image = s.image := rfl
end modRing

section modNode
variable (g : Nat) (f : Node → Node) (s : State)
@[simp] theorem modNode_nodes : (modNode g f s).ring.nodes = vmod s.ring.nodes g f := rfl
theorem modNode_ring : (modNode g f s).ring = { s.ring with nodes := vmod s.ring.nodes g f } := rfl
@[simp] theorem modNode_pending : (modNode g f s).pending = s.pending := rfl
@[simp] theorem modNode_free : (modNode g f s).free = s.free := rfl
@[simp] theorem modNode_rdata : (modNode g f s).rdata = s.rdata := rfl
@[simp] theorem modNode_md : (modNode g f s).md = s.md := rfl
@[simp] theorem modNode_time : (modNode g f s).time = s.time := rfl
@[simp] theorem modNode_cyc : (modNode g f s).cyc = s.cyc := rfl
@[simp] theorem modNode_lane : (modNode g f s).lane = s.lane := rfl
@[simp] theorem modNode_sup : (modNode g f s).sup = s.sup := rfl
@[simp] theorem modNode_sess : (modNode g f s).sess = s.sess := rfl
@[simp] theorem modNode_log : (modNode g f s).log = s.log := rfl
@[simp] theorem modNode_hp : (modNode g f s).hp = s.hp := rfl
@[simp] theorem modNode_keep : (modNode g f s).keep = s.keep := rfl
@[simp] theorem modNode_evr : (modNode g f s).evr = s.evr := rfl
@[simp] theorem modNode_nv : (modNode g f s).nv = s.nv := rfl
@[simp] theorem modNode_inp : (modNode g f s).inp = s.inp := rfl
@[simp] theorem modNode_mm : (modNode g f s).mm = s.mm := rfl
@[simp] theorem modNode_out : (modNode g f s).out = s.out := rfl
@[simp] theorem modNode_pwr : (modNode g f s).pwr = s.pwr := rfl
@[simp] theorem modNode_xl : (modNode g f s).xl = s.xl := rfl
@[simp] theorem modNode_tmr : (modNode g f s).tmr = s.tmr := rfl
@[simp] theorem modNode_mem : (modNode g f s).mem = s.mem := rfl
@[simp] theorem modNode_fuse : (modNode g f s).fuse = s.fuse := rfl
@[simp] theorem modNode_image : (modNode g f s).image = s.image := rfl
end modNode

section modPort
variable (p : Nat) (f : Port → Port) (s : State)
@[simp] theorem modPort_ports : (modPort p f s).ring.ports = vmod s.ring.ports p f := rfl
theorem modPort_ring : (modPort p f s).ring = { s.ring with ports := vmod s.ring.ports p f } := rfl
@[simp] theorem modPort_pending : (modPort p f s).pending = s.pending := rfl
@[simp] theorem modPort_free : (modPort p f s).free = s.free := rfl
@[simp] theorem modPort_rdata : (modPort p f s).rdata = s.rdata := rfl
@[simp] theorem modPort_md : (modPort p f s).md = s.md := rfl
@[simp] theorem modPort_time : (modPort p f s).time = s.time := rfl
@[simp] theorem modPort_cyc : (modPort p f s).cyc = s.cyc := rfl
@[simp] theorem modPort_lane : (modPort p f s).lane = s.lane := rfl
@[simp] theorem modPort_sup : (modPort p f s).sup = s.sup := rfl
@[simp] theorem modPort_sess : (modPort p f s).sess = s.sess := rfl
@[simp] theorem modPort_log : (modPort p f s).log = s.log := rfl
@[simp] theorem modPort_hp : (modPort p f s).hp = s.hp := rfl
@[simp] theorem modPort_keep : (modPort p f s).keep = s.keep := rfl
@[simp] theorem modPort_evr : (modPort p f s).evr = s.evr := rfl
@[simp] theorem modPort_nv : (modPort p f s).nv = s.nv := rfl
@[simp] theorem modPort_inp : (modPort p f s).inp = s.inp := rfl
@[simp] theorem modPort_mm : (modPort p f s).mm = s.mm := rfl
@[simp] theorem modPort_out : (modPort p f s).out = s.out := rfl
@[simp] theorem modPort_pwr : (modPort p f s).pwr = s.pwr := rfl
@[simp] theorem modPort_xl : (modPort p f s).xl = s.xl := rfl
@[simp] theorem modPort_tmr : (modPort p f s).tmr = s.tmr := rfl
@[simp] theorem modPort_mem : (modPort p f s).mem = s.mem := rfl
@[simp] theorem modPort_fuse : (modPort p f s).fuse = s.fuse := rfl
@[simp] theorem modPort_image : (modPort p f s).image = s.image := rfl
end modPort

end Sys2Proof.Machine
end

