-- ==== Sys2Proof/WellFormed.lean ====
section
/-! DEFINITION. Well-formed commands: operands whose types are wider than the spec's fields stay within them. -/

namespace Sys2Proof

namespace Machine

/-- A command entry has 56 parameter bytes (R309); its other fields are as wide as their types. -/
def Req.wf (q : Req) : Bool := q.param.length == 56

/-- A received request (R365): bit 7 of the address is 0 and the payload at most 1,024 bytes. -/
def Frame.wf (f : Frame) : Bool := !f.addr.getLsbD 7 && decide (f.payload.length ≤ 1024)

/-- Register addresses are multiples of 4 within their window (R10, R301, R302). -/
def HostAddr.wf : HostAddr → Bool
  | .bar0 o => o % 4 == 0 && decide (o < 65536)
  | .spi _ a _ => decide (a < 2 ^ 24)
  | .bar2 o => o % 4 == 0 && decide (o < 4096)
  | .functionMask => true

/-- Differing fuse reads name one of seven reads and a logical bit (R397, R406). -/
def noiseWf (l : List (Nat × Nat)) : Bool := l.all fun p => decide (p.1 < 7) && decide (p.2 < 8192)

/-- What the world does while a fuse command runs. -/
def FuseEnv.wf (e : FuseEnv) : Bool := noiseWf e.noise && e.pulses.all fun p => decide (p.level ≤ 3)

/-- A mismatch names a block, a node and a field of the compare (R69, R85). -/
def Mis.wf (m : Mis) : Bool := decide (m.block < 16384) && decide (m.node < 64) && decide (m.field < 8)

/-- A finding names a bank of R448. -/
def PoolFind.wf : PoolFind → Bool
  | .march b _ | .corr b _ _ | .bad b _ | .addr b _ => decide (b < 36)

/-- What a start-up step finds. -/
def StepEnv.wf (e : StepEnv) : Bool := noiseWf e.noise && e.finds.all PoolFind.wf && e.mram.all fun p => decide (p.1 < 8388608)

/-- Bytes of a ring frame from its destination address up to the FCS: a frame is 1,518 bytes at most (R219). -/
def frameWf (l : List Byte) : Bool := decide (l.length ≤ 1514)

end Machine

open Machine

/-- A well-formed command. -/
def Instr.wf (i : Instr) : Bool :=
  match i with
  | .nop q => q.wf
  | .identGet q => q.wf
  | .stateGet q => q.wf
  | .sessionOpen q => q.wf
  | .sessionClose q => q.wf
  | .cfgStage q => q.wf
  | .cfgCheck q => q.wf
  | .sessionCommit q => q.wf
  | .passwdSet q => q.wf
  | .changelogRead q => q.wf
  | .changelogHead q => q.wf
  | .imgWrite q => q.wf
  | .imgCheck q => q.wf
  | .progQualify q => q.wf
  | .progStatus q => q.wf
  | .progHandover q => q.wf
  | .progAbort q => q.wf
  | .progLoad q => q.wf
  | .streamOpen q => q.wf
  | .streamClose q => q.wf
  | .streamInfo q => q.wf
  | .diagSummary q => q.wf
  | .bistResults q => q.wf
  | .hold q => q.wf
  | .holdAck q => q.wf
  | .quietEnter q => q.wf
  | .quietExit q => q.wf
  | .groupAck q => q.wf
  | .restart q => q.wf
  | .loupeOpen q => q.wf
  | .loupeRead q _ => q.wf
  | .loupeClose q => q.wf
  | .logStatus q => q.wf
  | .logClear q => q.wf
  | .supFwWrite q => q.wf
  | .supFwCheck q => q.wf
  | .supFwSwitch q => q.wf
  | .ucodeWrite q => q.wf
  | .ucodeRoll q => q.wf
  | .keeperFwWrite q => q.wf
  | .keeperFwSwitch q => q.wf
  | .laneStatus q => q.wf
  | .prismEnter q => q.wf
  | .prismExit q => q.wf
  | .llReseed q => q.wf
  | .laneRotate q => q.wf
  | .ringDiscover q => q.wf
  | .nodeList q => q.wf
  | .adopt q => q.wf
  | .nfwStore q => q.wf
  | .nfwSend q => q.wf
  | .fwActivate q => q.wf
  | .nfwStatus q => q.wf
  | .calRead q => q.wf
  | .calStage q => q.wf
  | .paramRead q => q.wf
  | .paramStage q => q.wf
  | .mmRealign q => q.wf
  | .regRead q => q.wf
  | .regWrite q => q.wf
  | .timeGet q => q.wf
  | .utcSet q => q.wf
  | .tmrSetup q => q.wf
  | .xlStatus q => q.wf
  | .xlStop q => q.wf
  | .xlStopRelease q => q.wf
  | .pairAdopt q _ => q.wf
  | .fuseRead q => q.wf
  | .fuseProg q env => q.wf && env.wf
  | .fuseLock q env => q.wf && env.wf
  | .lcAdvance q env => q.wf && env.wf
  | .kpStatus f => f.wf
  | .kpBaud f => f.wf
  | .kpJournalInfo f => f.wf
  | .kpJournalRead f => f.wf
  | .kpHold f => f.wf
  | .kpHoldAck f => f.wf
  | .kpShutdown f => f.wf
  | .kpReset f => f.wf
  | .kpSupRestart f => f.wf
  | .kpPresenceClose f => f.wf
  | .kpRecoverWrite f _ => f.wf
  | .kpRecoverDigest f => f.wf
  | .kpRecoverBoot f => f.wf
  | .sidebandFrameDiscard => true
  | .sidebandByteTimeout => true
  | .sidebandRepeatRequest _ _ _ => true
  | .baudRevert => true
  | .registerWrite a _ _ => a.wf
  | .ringEnable _ => true
  | .ringDisable _ => true
  | .doorbell _ _ => true
  | .hrst => true
  | .commit => true
  | .hpWdogWrite _ => true
  | .sconsWrite _ _ => true
  | .arm _ => true
  | .disarm _ => true
  | .cntClr _ => true
  | .intNow _ => true
  | .cmpLoWrite _ _ => true
  | .intPreLoWrite _ _ => true
  | .cntLoRead _ => true
  | .capLoRead _ _ => true
  | .tbaseLoRead => true
  | .cycNumLoRead => true
  | .intActLoRead _ => true
  | .laneMisRead => true
  | .memLastRead => true
  | .xlOfsLoRead => true
  | .commandEntryFetch _ entry _ _ _ => entry.length == 64
  | .completionPost _ => true
  | .eventPosting => true
  | .interruptCoalesceTimeout _ => true
  | .hostWdogExpire => true
  | .hostPortReset _ => true
  | .d3hotEnter => true
  | .busMasterDisable => true
  | .dmaError _ => true
  | .pushRecordComplete _ => true
  | .pullRecordRead _ ws => decide (ws.length ≤ 512)
  | .supervisorStop _ => true
  | .supervisorServing => true
  | .supSwitchTimeout => true
  | .keeperSwitchTimeout => true
  | .laneWake _ => true
  | .freeze _ _ => true
  | .laneMismatch _ m => m.wf
  | .checkerError _ _ => true
  | .runComplete _ _ => true
  | .commitPoint _ _ => true
  | .guardTimeout => true
  | .p3End finds => finds.all PoolFind.wf
  | .quietWake _ => true
  | .tclkRestart _ => true
  | .laneRotationDue => true
  | .laneBistDone _ _ _ => true
  | .observerTimeout => true
  | .mmSample _ => true
  | .mmRotationDue => true
  | .mmUnitBistDone _ _ => true
  | .ciEdge _ _ _ _ => true
  | .ciQualityReturn _ => true
  | .filterAccept _ _ => true
  | .testPulseStart _ => true
  | .testPulseWindowEnd _ _ _ _ => true
  | .inputCalCheck _ => true
  | .vfBandChange _ _ _ => true
  | .outputTestWindow _ => true
  | .readbackFault _ _ => true
  | .shortIdentify _ _ => true
  | .outputOverload _ => true
  | .toOverloadRetry _ _ => true
  | .openLoad _ _ => true
  | .groupOvercurrent _ => true
  | .ecoPhaseEnd _ => true
  | .masterDriveLoss _ => true
  | .sclkFault => true
  | .ringPeriodStart _ => true
  | .connectionExpire _ => true
  | .inputContainerReceive _ fr => frameWf fr
  | .ringFrameDrop _ _ => true
  | .pdelayReqReceive _ _ => true
  | .mgmtRespReceive _ fr => frameWf fr
  | .mgmtTimeout _ => true
  | .ringBringup _ => true
  | .portLinkChange _ _ _ => true
  | .discoveryPeriodic _ => true
  | .scheduleFrameReceive _ fr => frameWf fr
  | .ringMasterTakeover _ => true
  | .xlSlot _ => true
  | .xlContainerReceive _ _ ws => ws.length == 34
  | .clsyncEdge _ _ => true
  | .clsyncTimeout => true
  | .xlJoin => true
  | .joinTimeout => true
  | .clstopDetect => true
  | .killReceive => true
  | .killRelease _ => true
  | .toTakeover _ => true
  | .tmrMatch _ => true
  | .tmrCapture _ => true
  | .tmrWrap _ => true
  | .eventPost _ _ data => decide (data.length ≤ 6)
  | .recordWrite _ => true
  | .recordRewrite _ => true
  | .coalesceExpire => true
  | .scrubPeriodEnd _ => true
  | .mramScrub _ _ => true
  | .presenceWindowOpen _ _ => true
  | .presenceWindowClose _ => true
  | .keeperSelfCheck _ => true
  | .tbaseMark => true
  | .holdupTest _ _ => true
  | .powerOn _ _ => true
  | .startupStep e => e.wf
  | .startupComplete => true
  | .vlogLow _ => true
  | .vlogDip _ => true
  | .vlogRecover _ => true
  | .shutdownTrigger _ => true
  | .huLow _ => true
  | .nvInhibit _ => true
  | .keeperReset _ => true
  | .vcoreFault _ => true
  | .xoFail => true
  | .xoRestart _ => true
  | .lclkUnlock _ => true
  | .supUnlock _ => true
  | .fllUnlock _ => true
  | .supPllWake => true
  | .shutdownEnter => true
  | .shutdownBistEnd _ => true
  | .shutdownComplete _ => true
  | .ciIndeterminateLevel _ => true
  | .ecoOffPhaseCheck _ _ _ => true
  | .ringFrameForward _ fr => frameWf fr
  | .earlierWake => true
  | .perstRelease => true
  | .busMasterEnable => true
  | .nvInhibitClear _ => true
  | .vfOvervoltage _ _ => true
  | .supPllIdleStop => true
  | .keeperFwReady => true

end Sys2Proof
end

