-- ==== Sys2Proof/Tests/Slice0.lean ====
section
/-! SUPPORT. Tests on small states, and witnesses: for the statements of Certificates/Slice0, states and operands that meet their hypotheses. -/

set_option Elab.async false

namespace Sys2Proof.Tests

open Machine

/-! ## Helpers -/

/-- A module in `RUN` with its clocks, 2 s after TBASE 0, supervisor serving. -/
def up : State := { State.reset with
  md := { mstate := .run, startStep := 12 }, time := { tclkRun := true, fllLock := true, tbase := 32000000 }
  sup := { sup := .serving }, pwr := { vlog := 2400, vhu := 3000, v3v3 := 3300, vcore := 900, tj := 25, vlogOk := true, huReady := true, xoOk := true, lclkLock := true, supLock := true, phyLock := true, goscOk := true } }

/-- A command of ring 0 with parameters from entry byte 8 on. -/
def rq (p : List Byte) (fl : Half := 0) (ib : List Byte := []) : Req := { src := .ring 0, tag := 7, flags := fl, param := padTo 56 p, ibuf := ib }

/-- One with an output buffer of `n` bytes at 0x4000. -/
def ob (p : List Byte) (n : Nat) : Req := rq (padTo 16 p ++ leBytes 8 0x4000 ++ leBytes 4 n) 2

/-- A chunk at an offset of an object. -/
def ck (o sel : Nat) (d : List Byte) : Req := rq (leBytes 8 0x2000 ++ leBytes 4 (8 + d.length)) 1 (leBytes 4 o ++ leBytes 4 sel ++ d)

/-- The state with a command taken. -/
def sv (op : Nat) (q : Req) (s : State := up) : State :=
  { s with sup := { s.sup with taken := [{ src := q.src, tag := q.tag, opcode := op, at_ := now s }] } }

/-- `Ready` as a check. -/
def readyB (cls : Cls) (op : Nat) (q : Req) (n : Needs) (s : State) : Bool :=
  s.sup.sup == .serving && entryOf op q s == q && (match takenOf s op q with | some t => t.refusal.isNone | none => false) && mayStart op q s &&
  !(q.flag 0 && q.inErr) && (n.refuse op q (n.logs && cls.sup (raiseOf s (op / 256)) != .p0) s).isNone

theorem ready {cls : Cls} {op : Nat} {q : Req} {n : Needs} {s : State} (h : readyB cls op q n s = true) : Ready cls op q n s := by
  simp only [readyB, Bool.and_eq_true, beq_iff_eq, Option.isNone_iff_eq_none] at h
  obtain ⟨⟨⟨⟨⟨h1, h2⟩, h3⟩, h4⟩, h5⟩, h6⟩ := h
  refine ⟨h1, h2, ?_, h4, by cases hf : q.flag 0 <;> cases hi : q.inErr <;> simp_all, h6⟩
  cases ht : takenOf s op q with
  | none => simp [ht] at h3
  | some t => exact ⟨t, rfl, by simpa [ht] using h3⟩

/-- A frame to this module. -/
def fr (p : List Byte) : Frame := { addr := 0, tag := 9, payload := p }

/-- `KpReady` as a check. -/
def kpReadyB (cmd : Nat) (f : Frame) (n : KpNeeds) (s : State) : Bool :=
  keeperHears s && f.mine cmd s && s.keep.waiting.isNone && decide (f.payload.length ≤ 1024) && s.keep.lastReq != some (f.tag, cmd, f.crc cmd) &&
  (n.refuse (kpHeard cmd f s)).isNone

theorem kpReady {cmd : Nat} {f : Frame} {n : KpNeeds} {s : State} (h : kpReadyB cmd f n s = true) : KpReady cmd f n s := by
  simp only [kpReadyB, Bool.and_eq_true, bne_iff_ne, decide_eq_true_eq, Option.isNone_iff_eq_none] at h
  obtain ⟨⟨⟨⟨⟨h1, h2⟩, h3⟩, h4⟩, h5⟩, h6⟩ := h
  exact ⟨h1, h2, h3, h4, h5, h6⟩

/-- With the presence window open. -/
def win (s : State) : State := { s with sess := { s.sess with winOpen := true, winEnd := now s + 960000000 } }

/-- With the configuration session held by ring 0 at P2. -/
def sess2 (s : State) : State := { s with sess := { s.sess with winOpen := true, winEnd := now s + 960000000, owner := some (.ring 0), level := .p2, id := 1 } }

/-- In a module state. -/
def inSt (m : MState) (s : State := up) : State := { s with md := { s.md with mstate := m } }

/-- A program with a calibratable parameter and an output of its own, for graph 0. -/
def img0 : Image := { swzO := 0x1F, graphs := [{ present := true, swz := 0x1F, pars := [{ cell := 0x8000, calib := true, value := 5 }] }], own := [{ cell := 0x4000, owner := 0 }] }

/-- Read as `Ready` when what the command itself refuses is shown apart. -/
theorem ready_own {cls : Cls} {op : Nat} {q : Req} {n : Needs} {s : State} (h : readyB cls op q { n with own := none } s = true) (ho : n.own = none) : Ready cls op q n s := by
  rw [show n = { n with own := none } from by cases n; simp_all]
  exact ready h

/-- The same when the wrong state is shown apart. -/
theorem ready_wrong {cls : Cls} {op : Nat} {q : Req} {n : Needs} {s : State} (h : readyB cls op q { n with wrong := false } s = true) (ho : n.wrong = false) : Ready cls op q n s := by
  rw [show n = { n with wrong := false } from by cases n; simp_all]
  exact ready h

/-- Fuse cells in which G3 is blank with its check word, which Python's CRC-16 of R366 gives (R398, R399). -/
def fuseG3 : FuseCells := let m := deliveredFuses ||| BitVec.ofNat 8192 (17010 * 2 ^ 2543); { mh := m, n := m, ml := m }

/-- A module whose host port serves: rings 0, 64 and 65 active. -/
def hostUp : State :=
  { up with hp := { up.hp with perst := false, busMaster := true, rings := vset (vset (vset up.hp.rings 0 { en := true, log2 := 4, cpl := 64 }) 64 { en := true, log2 := 4, base := 0x10000, vec := 3 }) 65 { en := true, log2 := 4, base := 0x20000 } } }

/-- The same with another host port. -/
def withHp (h : HpBlk) : State := { hostUp with hp := h }

/-- A module that runs cycles: cycle 7 ended, t0 of cycle 8 ahead. -/
def runs : State := { up with cyc := { up.cyc with running := true, num := 7, lastT0 := 31998000, nextT0 := 32002000 } }

/-- Cycle 7 open. -/
def cycOpen : State := { runs with cyc := { runs.cyc with open_ := true } }

/-- With another lane block. -/
def lanes (s : State) (l : LaneBlk) : State := { s with lane := l }

/-- A taken `NOP` and its entry. -/
def nopTaken : State := sv 0 (rq [])

/-- TCLK stopped in `QUIET`. -/
def asleep : State := { inSt .quiet with time := { sclk := 1000, capTbase := 32000000, capSclk := 990, fllAt := some 1000 }, cyc := { up.cyc with running := true, nextT0 := 32100000 }, pwr := { up.pwr with lclkLock := false, asleep := true } }

/-- The P3 of cycle 7. -/
def p3 : State := { runs with cyc := { runs.cyc with p3Due := true } }

/-! ## Ill-formed commands are refused: one term for each check -/

theorem test_wf_req : (Instr.nop { param := [] }).wf = false ∧ (Instr.nop {}).wf = true := by decide +kernel
theorem test_wf_fuseEnv : (Instr.lcAdvance {} { noise := [(7, 0)] }).wf = false ∧ (Instr.lcAdvance {} { pulses := [{ level := 4 }] }).wf = false := by decide +kernel
theorem test_wf_frame : (Instr.kpStatus { addr := 0x80 }).wf = false ∧ (Instr.kpStatus { payload := List.replicate 1025 0 }).wf = false := by decide +kernel
theorem test_wf_hostAddr : (Instr.registerWrite (.bar0 2) 0 15).wf = false ∧ (Instr.registerWrite (.spi 0xB2 0x1000000 []) 0 15).wf = false ∧ (Instr.registerWrite (.bar0 65536) 0 15).wf = false ∧ (Instr.registerWrite (.bar2 4096) 0 15).wf = false := by decide +kernel
theorem test_wf_fetch : (Instr.commandEntryFetch 0 [] [] false false).wf = false := by decide +kernel
theorem test_wf_pull : (Instr.pullRecordRead 0 (List.replicate 513 0)).wf = false := by decide +kernel
theorem test_wf_mis : (Instr.laneMismatch 0 { block := 16384 }).wf = false ∧ (Instr.laneMismatch 0 { node := 64 }).wf = false ∧ (Instr.laneMismatch 0 { field := 8 }).wf = false := by decide +kernel
theorem test_wf_finds : (Instr.p3End [.march 36 0]).wf = false := by decide +kernel
theorem test_wf_ringFrame : let l := List.replicate 1515 0#8
    (Instr.inputContainerReceive 0 l).wf = false ∧ (Instr.mgmtRespReceive 0 l).wf = false ∧ (Instr.scheduleFrameReceive 0 l).wf = false ∧ (Instr.ringFrameForward 0 l).wf = false := by decide +kernel
theorem test_wf_xl : (Instr.xlContainerReceive 0 false []).wf = false := by decide +kernel
theorem test_wf_event : (Instr.eventPost 0 0 (List.replicate 7 0)).wf = false := by decide +kernel
theorem test_wf_start : (Instr.startupStep { noise := [(0, 8192)] }).wf = false ∧ (Instr.startupStep { mram := [(8388608, default)] }).wf = false := by decide +kernel

/-- No word of the table spells a command. -/
theorem test_decode : decodeTableWord 16 0 = none ∧ State.reset.withFetchWord 16 0 = State.reset := ⟨rfl, rfl⟩

/-! ## Examples of the spec -/

/-- R366: CRC-16 over the nine ASCII bytes "123456789". -/
theorem test_crc16 : crc16 [0x31, 0x32, 0x33, 0x34, 0x35, 0x36, 0x37, 0x38, 0x39] = 0x29B1#16 := by decide +kernel

/-- 18, symbol code: data word 1 at folded address 0 has the stored check field 0x123. -/
theorem test_symbolCode : rsEncode 0 1 = 0x12300000001#44 := by decide +kernel

/-- 04, node words: `BAND` of IN4 and IN5 into 0x8010. -/
theorem test_nodeWord : let n := 0x2880102004200500#64
    (nodeOp n, nodeDst n, nodeA n, nodeB n, nodeMod n) = (0x28, 0x8010, 0x2004, 0x2005, 0) := by decide +kernel

/-- 04, after R113: B opens one whole `Td` after A, which is a fault with code 0xA and good quality. -/
theorem test_disc2_fault : let o := discOp { op := 0x38, a := BitVec.ofNat 32 (50500 * 256 + 2), b := BitVec.ofNat 32 (66500 * 256 + 10), d := BitVec.ofNat 32 (50500 * 256 + 10), d1 := 16000, stA := true, stB := true, t0 := 80000 }
    (stCode o.value, dcode o.value, v0 o.value, q1 o.value, o.flags.getLsbD 3) = (3, 0xA, false, true, false) := by decide +kernel

/-- There too: one tick less gives OFF without a fault. -/
theorem test_disc2_off : let o := discOp { op := 0x38, a := BitVec.ofNat 32 (50500 * 256 + 2), b := BitVec.ofNat 32 (66499 * 256 + 10), d := BitVec.ofNat 32 (50500 * 256 + 10), d1 := 16000, stA := true, stB := true, t0 := 80000 }
    (stCode o.value, dcode o.value, v0 o.value) = (0, 0, false) := by decide +kernel

/-- 06, after R157: the line of the towing winch at 410,624 PU. -/
theorem test_drum : ({ puTurn := 4096, layers := [(172032, 4396 * 65536), (172032, 278216704), (172032, 268337152)] } : DrumMap).at 410624 = (429468, some (2, 268337152)) := by decide +kernel

/-- 09, after R240: the cell of the emergency stop that bounced. -/
theorem test_ringCell : nodeInput 0 4831843008 { conn := 5, nstate := 2, syncOk := true, cref := some (List.replicate 16 0xFF), used := padTo 12 [] ++ beBytes 2 8 ++ beBytes 2 8 ++ padTo 20 [] ++ beBytes 4 0x01FFDF24 ++ padTo 64 [] } 3 = 0xFDF2400F#32 := by decide +kernel

/-- 02: the commit point of a 250 µs cycle lies at 3,400 ticks. -/
theorem test_commitPoint : commitTicks 0 = 3400 := by decide +kernel

/-- 16, after R415: the policy DF C3 18 00 C0 04 of G3. -/
def policy : State := { up with fuse := { up.fuse with live := BitVec.ofNat 8192 (leNat [0xDF, 0xC3, 0x18, 0x00, 0xC0, 0x04] * 2 ^ 2304), liveSt := vset up.fuse.liveSt 3 1 } }

theorem test_policy : hpSel policy = true ∧ sbEnabled policy = true ∧ reqCfg policy = true ∧ reqSeal policy = true ∧ btnHold policy = 5 ∧ winMin policy = 15 ∧ pwMin policy = 12 ∧
    raiseOf policy 9 = .p2 ∧ raiseOf policy 0xB = .p1 ∧ raiseOf policy 8 = .p0 := by decide +kernel

/-- What a command leaves of interest. -/
def after {α : Type} (i : Instr) (s : State) (f : State → α) : Option α := match exec i s with | .next t => some (f t) | _ => none

/-- 11, after R298: TCLK stopped at 1,600,108,813 with phase 13 and restarted 480 SCLK edges later. -/
def slept : State := { asleep with
  time := { asleep.time with tbase := 1600108813, capTbase := 1600108813, capPhase := 13, capSclk := 0, sclk := 472, fllAt := some 472 }
  cyc := { asleep.cyc with nextT0 := 1600128000 }
  tmr := { asleep.tmr with chans := vset (vset up.tmr.chans 5 { cfg := 0x01000000, cnt := 500000, cmp := 505000, pre := 10000, act := 10000, arm := true }) 6 { cfg := 0x01000001, cnt := 31250 } } }

/-- `TBASE`, the channels' counts and channel 5's compare, misses and `LATE` after the restart. -/
theorem test_makeUp : after (.tclkRestart 7) slept (fun t => let c := vget t.tmr.chans 5; (t.time.tbase, c.cnt, c.cmp, c.miss, c.late, (vget t.tmr.chans 6).cnt)) =
    some (1600124160, 515347, 525000, 1, true, 32210) := by decide +kernel

/-- 11, after R295: channel 2 at its top, channel 3 counting its wraps, `LINKLATCH` bit 2. -/
def cascade : State := { up with tmr := { up.tmr with link := 4, chans := vset (vset up.tmr.chans 2 { cfg := 0x01000000, cnt := 0xFFFFFFFFFFFF }) 3 { cfg := 0x01008103, cnt := 4 } } }

/-- A read of channel 2's `CNT_LO` on the wrap edge. -/
theorem test_linkLatch : (match step cascade with | .next s => after (.cntLoRead 2) s (fun t => (t.rdata, (vget t.tmr.chans 2).cntHi, (vget t.tmr.chans 3).lat)) | _ => none) =
    some ([0#32], 0#16, 5#48) := by decide +kernel

/-- One edge earlier. -/
theorem test_linkLatch_before : after (.cntLoRead 2) cascade (fun t => (t.rdata, (vget t.tmr.chans 2).cntHi, (vget t.tmr.chans 3).lat)) = some ([0xFFFFFFFF#32], 0xFFFF#16, 4#48) := by decide +kernel

/-! ## Files: a configuration and a signed image -/

/-- The check of a byte string in two parts. -/
theorem crc32c_parts (l : List Byte) (n : Nat) (a : Word) (h : (l.take n).foldl crc32cByte 0xFFFFFFFF#32 = a) :
    crc32c l = ((l.drop n).foldl crc32cByte a) ^^^ 0xFFFFFFFF#32 := by
  rw [crc32c, ← h, ← List.foldl_append, List.take_append_drop]

/-- A further part. -/
theorem crc32c_part (l : List Byte) (n : Nat) (a b : Word) (h : (l.take n).foldl crc32cByte a = b) : l.foldl crc32cByte a = (l.drop n).foldl crc32cByte b := by
  rw [← h, ← List.foldl_append, List.take_append_drop]

/-- A smallest configuration file: one empty section. -/
def cfgFile : Mem 8 := Mem.writeBytes 0 [] 0
  (leBytes 4 0x47464355 ++ leBytes 2 1 ++ leBytes 2 1 ++ leBytes 4 128 ++ List.replicate 12 0#8 ++ leBytes 4 0xCBB389B7 ++ List.replicate 4 0#8 ++
   leBytes 4 1 ++ leBytes 4 128 ++ List.replicate 88 0#8)

/-- Its check word (R430), by an independent computation. -/
theorem test_cfgChk : cfgChk cfgFile = 0xCBB389B7#32 := by
  unfold cfgChk
  rw [crc32c_parts _ 64 0x65E4A15F#32 (by decide +kernel)]
  decide +kernel

/-- It keeps the rules of R427 to R431. -/
theorem test_cfgShape : cfgShape cfgFile = true := by
  unfold cfgShape
  rw [test_cfgChk]
  decide +kernel

/-- A smallest image (R86 to R93): no graph, signed with a key of the test's own by an independent program. -/
def imgFile : Mem 8 :=
  [(0, 85), (1, 71), (2, 73), (3, 77), (4, 1), (7, 1), (8, 132), (9, 1), (20, 52), (21, 18), (24, 2), (32, 31), (36, 16), (37, 39), (92, 1), (116, 2), (140, 3), (164, 4), (188, 5), (217, 1), (220, 104), (221, 179), (222, 55), (223, 241)] ++
  [(260, 81), (261, 89), (262, 11), (263, 122), (264, 81), (265, 81), (266, 64), (267, 210), (268, 215), (269, 132), (270, 200), (271, 86), (272, 8), (273, 102), (274, 143), (275, 223), (276, 239), (277, 140), (278, 130), (279, 253), (280, 31), (281, 91), (282, 229), (283, 36)] ++
  [(284, 33), (285, 85), (286, 74), (287, 13), (288, 195), (289, 208), (290, 51), (291, 237), (292, 224), (293, 193), (294, 125), (295, 168), (296, 144), (297, 74), (298, 114), (299, 125), (300, 138), (301, 225), (302, 191), (303, 54), (304, 191), (305, 138), (306, 121), (307, 38)] ++
  [(308, 13), (309, 1), (310, 47), (312, 212), (313, 216), (314, 8), (315, 136), (316, 209), (317, 208), (318, 187), (319, 68), (320, 253), (321, 161), (322, 109), (323, 164), (324, 8), (325, 139), (326, 185), (327, 255), (328, 34), (329, 171), (330, 41), (331, 26), (332, 116)] ++
  [(333, 200), (334, 111), (335, 198), (336, 119), (337, 186), (338, 137), (339, 123), (340, 170), (341, 222), (342, 227), (343, 112), (344, 204), (345, 97), (346, 41), (347, 184), (348, 45), (349, 23), (350, 11), (351, 163), (352, 252), (353, 38), (354, 65), (355, 92), (356, 53)] ++
  [(357, 46), (358, 129), (359, 102), (360, 62), (361, 163), (362, 33), (363, 82), (364, 72), (365, 115), (366, 77), (367, 98), (368, 28), (369, 155), (370, 13), (371, 67), (372, 123), (373, 158), (374, 82), (375, 220), (376, 25), (377, 127), (378, 109), (379, 200), (380, 44)] ++
  [(381, 201), (382, 156), (383, 111), (384, 136), (385, 230), (386, 137), (387, 235)]

/-- The image that it is. -/
def imgOf : Image := { id := 0x1234, ver := 2, swzO := 0x1F, qualMin := 10000, graphs := List.replicate 6 {} }

/-- A module with that image staged, whose key slot 0 holds the hash of its key. -/
def imgUp : State := { sess2 up with
  nv := { up.nv with img := vset up.nv.img 1 imgFile }
  fuse := { up.fuse with live := BitVec.ofNat 8192 (0xdcf1580934712d5aa04237e17200460789b4ade768ee8a1c9fdc1011e2ddb92d * 2 ^ 2560), liveSt := vset up.fuse.liveSt 4 1, liveLock := vset up.fuse.liveLock 4 true } }

/-- Its header check word (R88), by the same program. -/
theorem imgFile_crc : crc32c (Mem.readBytes 0 imgFile 0 0xDC) = 0xF137B368#32 := by
  rw [crc32c_parts _ 44 0xB7E81BB7#32 (by decide +kernel), crc32c_part _ 44 _ 0x15DB7DFE#32 (by decide +kernel), crc32c_part _ 44 _ 0x8CEF7DCC#32 (by decide +kernel),
    crc32c_part _ 44 _ 0x208B496B#32 (by decide +kernel)]
  decide +kernel

theorem imgFile_digest : sha256 (Mem.readBytes 0 imgFile 0 0x144) = beBytes 32 0xdb51b2bf5e91a0e7e8dbe98f0a163808d2d05586ea4b9e00d66bfd25f9e1124a := by
  decide +kernel

/-- ECDSA over P-256 (R92) on that signature. -/
theorem test_ecdsa : ecdsaVerify 0x51590b7a515140d2d784c85608668fdfef8c82fd1f5be52421554a0dc3d033ed 0xe0c17da8904a727d8ae1bf36bf8a79260d012f00d4d80888d1d0bb44fda16da4
    0x88bb9ff22ab291a74c86fc677ba897baadee370cc6129b82d170ba3fc26415c 0x352e81663ea3215248734d621c9b0d437b9e52dc197f6dc82cc99c6f88e689eb (beBytes 32 0xdb51b2bf5e91a0e7e8dbe98f0a163808d2d05586ea4b9e00d66bfd25f9e1124a) = true := by decide +kernel

theorem imgFile_authentic : imgAuthentic imgFile (slotHash imgUp) = true := by
  unfold imgAuthentic
  rw [show imgLe imgFile 0xD8 4 = 0x100 from by decide +kernel]
  simp only [show slotHash imgUp (imgLe imgFile 0x100 1) = some (sha256 (Mem.readBytes 0 imgFile (0x100 + 4) 64)) from by decide +kernel]
  rw [show (0x100 : Nat) + 0x44 = 0x144 from rfl, imgFile_digest]
  rw [show beNat ((Mem.readBytes 0 imgFile (256 + 4) 64).take 32) = 0x51590b7a515140d2d784c85608668fdfef8c82fd1f5be52421554a0dc3d033ed from by decide +kernel,
    show beNat ((Mem.readBytes 0 imgFile (256 + 4) 64).drop 32) = 0xe0c17da8904a727d8ae1bf36bf8a79260d012f00d4d80888d1d0bb44fda16da4 from by decide +kernel,
    show beNat ((Mem.readBytes 0 imgFile 0x144 64).take 32) = 0x88bb9ff22ab291a74c86fc677ba897baadee370cc6129b82d170ba3fc26415c from by decide +kernel,
    show beNat ((Mem.readBytes 0 imgFile 0x144 64).drop 32) = 0x352e81663ea3215248734d621c9b0d437b9e52dc197f6dc82cc99c6f88e689eb from by decide +kernel, test_ecdsa]
  simp

theorem imgFile_header : firstFail (headerChecks imgFile) = none := by
  unfold headerChecks
  simp only [imgFile_crc]
  decide +kernel
theorem imgFile_tables : firstFail (tableChecks imgFile) = none := by decide +kernel
theorem imgFile_read : readImage imgFile = imgOf := by decide +kernel
theorem imgFile_content : contentChecks imgFile imgOf (slotHash imgUp) 0 false none = none := by
  unfold contentChecks
  simp only [imgFile_authentic]
  decide +kernel

/-- A file without a failing check is accepted (R93, R95). -/
theorem acceptImage_ok {m : Mem 8} {kh : Nat → Option (List Byte)} {tc : Nat} {f : Bool} {a : Option Image} (h1 : firstFail (headerChecks m) = none)
    (h2 : firstFail (tableChecks m) = none) (h3 : contentChecks m (readImage m) kh tc f a = none) (h4 : overBudget (readImage m) tc = none) :
    acceptImage m kh tc f a = .ok (readImage m) := by simp [acceptImage, h1, h2, h3, h4]

/-- The image is accepted (R93). -/
theorem test_acceptImage : acceptImage imgFile (slotHash imgUp) 0 false none = .ok imgOf := by
  have h := acceptImage_ok (kh := slotHash imgUp) (tc := 0) (f := false) (a := none) imgFile_header imgFile_tables
    (by rw [imgFile_read]; exact imgFile_content) (by rw [imgFile_read]; decide +kernel)
  rwa [imgFile_read] at h

/-- The smallest configuration, staged in a session without an image, passes its check. -/
theorem test_checkCfg (s : State) (h0 : s.sess.cfg = some cfgFile) (h1 : s.sess.imgChecked = none) (h2 : s.sess.tmr = []) (h3 : s.image = none) :
    stagedCheck s = checkCfg s cfgFile none [] := by
  simp [stagedCheck, stagedFile, mergeTmr, h0, h1, h2, h3]

/-- A session with that configuration staged. -/
def cfgStaged : State := { sess2 up with sess := { (sess2 up).sess with cfg := some cfgFile } }

theorem cfgStaged_judged (op : Nat) : stagedCheck (sv op (rq []) cfgStaged) = judgeCfg (sv op (rq []) cfgStaged) cfgFile none [] := by
  rw [test_checkCfg _ rfl rfl rfl rfl, checkCfg, if_pos test_cfgShape]

theorem cfgStaged_ok (op : Nat) : (stagedCheck (sv op (rq []) cfgStaged)).refuse = none := by
  have h : (judgeCfg (sv 0 (rq []) cfgStaged) cfgFile none []).refuse = none := by decide +kernel
  rw [cfgStaged_judged]
  exact h

/-- The staged file itself is fit. -/
theorem cfgStaged_fit (op : Nat) : (stagedCheck (sv op (rq []) cfgStaged)).isBad = false := by
  have h : (judgeCfg (sv 0 (rq []) cfgStaged) cfgFile none []).isBad = false := by decide +kernel
  rw [cfgStaged_judged]
  exact h

/-- Signed microcode above a floor of 0 is not refused. -/
theorem ucode_of {s : State} (h1 : s.nv.ucode = []) (h : Config.ucodeSigned [] = true) (h2 : ucMin s = 0) :
    fwRefuse (Config.ucodeSigned s.nv.ucode) (Config.ucodeVersion s.nv.ucode).toNat (ucMin s) = none := by simp [fwRefuse, h1, h, h2]

/-- The keeper may switch in `RUN` with supply and signed firmware. -/
theorem keeperMay_of {s : State} (h1 : s.md.mstate = .run) (h2 : 2000 ≤ s.pwr.vlog) (h0 : s.nv.kfw = []) (h3 : Config.keeperSigned [] = true) (h4 : kpMin s = 0) : keeperMay s = true := by
  have : 2000 ≤ s.pwr.vlog.toNat := h2
  simp [keeperMay, h0, h1, h3, h4, this]

/-! ## Witnesses: supervisor and keeper commands -/

theorem wit_PlainQueriesAnswer_0000 : ∃ (q : Req) (s : State), Ready .p0 0x0000 q {} s :=
  ⟨rq [], sv 0x0000 (rq []), ready (by decide +kernel)⟩

theorem wit_PlainQueriesAnswer_0001 : ∃ (q : Req) (s : State), Ready .p0 0x0001 q { out := 44 } s :=
  ⟨rq [], sv 0x0001 (rq []), ready (by decide +kernel)⟩

theorem wit_PlainQueriesAnswer_0002 : ∃ (q : Req) (s : State), Ready .p0 0x0002 q { out := 24 } s :=
  ⟨rq [], sv 0x0002 (rq []), ready (by decide +kernel)⟩

theorem wit_PlainQueriesAnswer_0107 : ∃ (q : Req) (s : State), Ready .p0 0x0107 q { out := 36, logs := false } s :=
  ⟨rq [], sv 0x0107 (rq []), ready (by decide +kernel)⟩

theorem wit_PlainQueriesAnswer_0203 : ∃ (q : Req) (s : State), Ready .p0 0x0203 q { out := 15, logs := false } s :=
  ⟨rq [], sv 0x0203 (rq []), ready (by decide +kernel)⟩

theorem wit_PlainQueriesAnswer_0400 : ∃ (q : Req) (s : State), Ready .p0 0x0400 q { out := 44, logs := false } s :=
  ⟨rq [], sv 0x0400 (rq []), ready (by decide +kernel)⟩

theorem wit_PlainQueriesAnswer_0401 : ∃ (q : Req) (s : State), Ready .p0 0x0401 q { out := 29, logs := false } s :=
  ⟨rq [], sv 0x0401 (rq []), ready (by decide +kernel)⟩

theorem wit_PlainQueriesAnswer_0503 : ∃ (q : Req) (s : State), Ready .p0 0x0503 q { out := 22, logs := false } s :=
  ⟨rq [], sv 0x0503 (rq []), ready (by decide +kernel)⟩

theorem wit_PlainQueriesAnswer_0700 : ∃ (q : Req) (s : State), Ready .p0 0x0700 q { out := 32, logs := false } s :=
  ⟨rq [], sv 0x0700 (rq []), ready (by decide +kernel)⟩

theorem wit_PlainQueriesAnswer_0806 : ∃ (q : Req) (s : State), Ready .p0 0x0806 q { out := 12, logs := false } s :=
  ⟨rq [], sv 0x0806 (rq []), ready (by decide +kernel)⟩

theorem wit_PlainQueriesAnswer_0B00 : ∃ (q : Req) (s : State), Ready .p0 0x0B00 q { out := 17, logs := false } s :=
  ⟨rq [], sv 0x0B00 (rq []), ready (by decide +kernel)⟩

theorem wit_PlainQueriesAnswer_0C00 : ∃ (q : Req) (s : State), Ready .p0 0x0C00 q { out := 16, logs := false } s :=
  ⟨rq [], sv 0x0C00 (rq []), ready (by decide +kernel)⟩

theorem wit_SelectingQueriesAnswer_0106 : ∃ (q : Req) (s : State), Ready .p0 0x0106 q { defs := [(8, 4), (0x0C, 2)], bad := [(q.arg 0x0C 2 < 1 || 512 < q.arg 0x0C 2, 0x0C)], obuf := true, out := 64 * q.arg 0x0C 2, logs := false } s :=
  ⟨ob (leBytes 4 0 ++ leBytes 2 2) 128, sv 0x0106 (ob (leBytes 4 0 ++ leBytes 2 2) 128), ready (by decide +kernel)⟩

theorem wit_SelectingQueriesAnswer_0302 : ∃ (q : Req) (s : State), Ready .p0 0x0302 q { defs := [(8, 1)], bad := [(31 < q.arg 8 1, 8)], out := 16, logs := false } s :=
  ⟨rq [3], sv 0x0302 (rq [3]), ready (by decide +kernel)⟩

theorem wit_SelectingQueriesAnswer_0801 : ∃ (q : Req) (s : State), Ready .p0 0x0801 q { defs := [(8, 1)], bad := [(1 < q.arg 8 1, 8)], obuf := true, out := 16 * (ringOf s (q.arg 8 1)).found.length, logs := false } s :=
  ⟨ob [1] 16, sv 0x0801 (ob [1] 16) { up with ring := { up.ring with rings := vset up.ring.rings 1 { found := [{ uid := 5 }] } } }, ready (by decide +kernel)⟩

theorem wit_SelectingQueriesAnswer_0900 : ∃ (q : Req) (s : State), Ready .p0 0x0900 q { defs := [(8, 1)], bad := [(1 < q.arg 8 1, 8)], obuf := true, out := (calBytes s (q.arg 8 1)).length, logs := false } s :=
  ⟨ob [0] 16, sv 0x0900 (ob [0] 16) { up with nv := { up.nv with cal := vset up.nv.cal 0 { file := Mem.writeBytes 0 [] 8 [16], commit := 1 } } }, ready (by decide +kernel)⟩

theorem wit_SelectingQueriesAnswer_0902 : ∃ (q : Req) (s : State), Ready .p0 0x0902 q { defs := [(8, 1), (0x0A, 2)], bad := [(3 < q.arg 8 1, 8), ((parEntry s (q.arg 8 1) (q.arg 0x0A 2)).isNone, 0x0A)], out := 9, logs := false } s :=
  ⟨rq ([0, 0] ++ leBytes 2 0x8000), sv 0x0902 (rq ([0, 0] ++ leBytes 2 0x8000)) { up with image := some img0 }, ready (by decide +kernel)⟩

theorem wit_SelectingQueriesAnswer_0D00 : ∃ (q : Req) (s : State), Ready .p0 0x0D00 q { defs := [(8, 1)], bad := [(7 < q.arg 8 1, 8)], out := if q.flag 1 then grpLen (q.arg 8 1) / 8 else 8, logs := false } s :=
  ⟨ob [2] 32, sv 0x0D00 (ob [2] 32), ready (by decide +kernel)⟩

theorem wit_SessionsOpenAndClose_new : ∃ (q : Req) (s : State), Ready .p1 0x0100 q { defs := [(8, 1), (0x0C, 32)], bad := (q.arg 8 1 != 0 && (q.arg 8 1 < 8 || 32 < q.arg 8 1), 8) :: q.pwTail, out := 5, logs := false, nv := true } s ∧ q.arg 8 1 = 0 ∧ s.sess.owner ≠ some q.src :=
  ⟨rq [0], sv 0x0100 (rq [0]) (win up), ready (by decide +kernel), by decide +kernel, by decide +kernel⟩

theorem wit_SessionsOpenAndClose_kept : ∃ (q : Req) (s : State), Ready .p1 0x0100 q { defs := [(8, 1), (0x0C, 32)], bad := (q.arg 8 1 != 0 && (q.arg 8 1 < 8 || 32 < q.arg 8 1), 8) :: q.pwTail, out := 5, logs := false, nv := true } s ∧ q.arg 8 1 = 0 ∧ s.sess.owner = some q.src :=
  ⟨rq [0], sv 0x0100 (rq [0]) (sess2 up), ready (by decide +kernel), by decide +kernel, by decide +kernel⟩

theorem wit_SessionsOpenAndClose_password : ∃ (q : Req) (s : State), Ready .p1 0x0100 q { defs := [(8, 1), (0x0C, 32)], bad := (q.arg 8 1 != 0 && (q.arg 8 1 < 8 || 32 < q.arg 8 1), 8) :: q.pwTail, out := 5, logs := false, nv := true } s ∧ q.arg 8 1 ≠ 0 ∧ pwVerifies s q.pw = true ∧ s.sess.owner ≠ some q.src :=
  ⟨rq (leBytes 4 8 ++ [0x50, 0x61, 0x73, 0x73, 0x77, 0x30, 0x72, 0x64]), sv 0x0100 (rq (leBytes 4 8 ++ [0x50, 0x61, 0x73, 0x73, 0x77, 0x30, 0x72, 0x64])) (win { up with nv := { up.nv with cfg := vset up.nv.cfg 0 { commit := 1, pw := { salt := leBytes 16 3, iter := 2, dk := pbkdf2 [0x50, 0x61, 0x73, 0x73, 0x77, 0x30, 0x72, 0x64] (leBytes 16 3) 2, crcOk := true } } } }), ready (by decide +kernel), by decide +kernel, by decide +kernel, by decide +kernel⟩

theorem wit_SessionsOpenAndClose_0101 : ∃ (q : Req) (s : State), Ready .p1s 0x0101 q {} s ∧ s.sess.commitWait = false :=
  ⟨rq [], sv 0x0101 (rq []) (sess2 up), ready (by decide +kernel), by decide +kernel⟩

theorem wit_ChunksAreStoredAndReadBack_0102 : ∃ (q : Req) (s : State), Ready .p1s 0x0102 q { chunk := true, bad := q.chunkBad 1048576 ((leAt q.ibuf 4 4) == 0) } s :=
  ⟨ck 16 0 [1, 2, 3], sv 0x0102 (ck 16 0 [1, 2, 3]) (sess2 up), ready (by decide +kernel)⟩

theorem wit_ChunksAreStoredAndReadBack_0600 : ∃ (q : Req) (s : State), Ready .p1s 0x0600 q { chunk := true, bad := q.chunkBad 4194304 ((leAt q.ibuf 4 4) == 0), nv := true } s :=
  ⟨ck 16 0 [1, 2, 3], sv 0x0600 (ck 16 0 [1, 2, 3]) (sess2 up), ready (by decide +kernel)⟩

theorem wit_ChunksAreStoredAndReadBack_0603 : ∃ (q : Req) (s : State), Ready .p1s 0x0603 q { chunk := true, bad := q.chunkBad 262144 ((leAt q.ibuf 4 4) == 0), nv := true } s :=
  ⟨ck 16 0 [1, 2, 3], sv 0x0603 (ck 16 0 [1, 2, 3]) (sess2 up), ready (by decide +kernel)⟩

theorem wit_ChunksAreStoredAndReadBack_0605 : ∃ (q : Req) (s : State), Ready .p1s 0x0605 q { chunk := true, bad := q.chunkBad 262144 ((leAt q.ibuf 4 4) == 0), nv := true } s :=
  ⟨ck 16 0 [1, 2, 3], sv 0x0605 (ck 16 0 [1, 2, 3]) (sess2 up), ready (by decide +kernel)⟩

theorem wit_ChunksAreStoredAndReadBack_0901 : ∃ (q : Req) (s : State), Ready .p1s 0x0901 q { chunk := true, bad := q.chunkBad 262144 ((leAt q.ibuf 4 4) == 0) } s :=
  ⟨ck 16 0 [1, 2, 3], sv 0x0901 (ck 16 0 [1, 2, 3]) (sess2 up), ready (by decide +kernel)⟩

theorem wit_ChunksAreStoredAndReadBack_0200 : ∃ (q : Req) (s : State), Ready .p1s 0x0200 q { chunk := true, bad := q.chunkBad 4194304 ((leAt q.ibuf 4 4) == 0), nv := true } s ∧ (llOf s 4).lane = none :=
  ⟨ck 16 0 [1, 2, 3], sv 0x0200 (ck 16 0 [1, 2, 3]) (sess2 up), ready (by decide +kernel), by decide +kernel⟩

theorem wit_ChunksAreStoredAndReadBack_0803 : ∃ (q : Req) (s : State), Ready .p1s 0x0803 q { chunk := true, bad := q.chunkBad (4194304 - (leAt q.ibuf 4 4)) ((leAt q.ibuf 4 4) % 4096 == 0), nv := true } s ∧ ¬((leAt q.ibuf 0 4) = 0 ∧ 16 ≤ ((q.ibuf.drop 8)).length ∧ 4194304 < (leAt q.ibuf 4 4) + 48 + leAt (q.ibuf.drop 8) 12 4) :=
  ⟨ck 0 4096 [1, 2, 3], sv 0x0803 (ck 0 4096 [1, 2, 3]) (sess2 up), ready (by decide +kernel), by decide +kernel⟩

theorem wit_SessionChecksAndWrites_0103 : ∃ (q : Req) (s : State), Ready .p1s 0x0103 q { bad := [((stagedCheck s).isBad, 0xFFFF)], own := (stagedCheck s).refuse, out := 4, logs := false } s :=
  ⟨rq [], sv 0x0103 (rq []) cfgStaged, by
    rw [cfgStaged_fit 0x0103, cfgStaged_ok 0x0103]
    exact ready (by decide +kernel)⟩

theorem wit_SessionChecksAndWrites_0201 : ∃ (q : Req) (s : State) (im : Image), Ready .p1s 0x0201 q { own := none, out := 9, logs := false } s ∧ stagedAccept s = .ok im :=
  ⟨rq [], sv 0x0201 (rq []) imgUp, imgOf, ready (by decide +kernel), test_acceptImage⟩

theorem wit_SessionChecksAndWrites_0601 (h : Config.supSigned [] = true) : ∃ (q : Req) (s : State), Ready .p1s 0x0601 q { out := 2, logs := false } s ∧ Config.supSigned (vget s.nv.sup (b2n (!s.sup.bank))) = true ∧ supMin s ≤ (Config.supVersion (vget s.nv.sup (b2n (!s.sup.bank)))).toNat :=
  ⟨rq [], sv 0x0601 (rq []) (sess2 up), ready (by decide +kernel), h, Nat.zero_le _⟩

theorem wit_SessionChecksAndWrites_nothingStaged : ∃ (q : Req) (s : State), Ready .p2 0x0104 q { wrong := s.sess.lost, out := 16, logs := false } s ∧ stagesAny s = false :=
  ⟨rq [], sv 0x0104 (rq []) (sess2 up), ready (by decide +kernel), by decide +kernel⟩

theorem wit_SessionChecksAndWrites_0104 : ∃ (q : Req) (s : State), Ready .p2 0x0104 q { wrong := s.sess.lost || clashes s .commit, busy := switching s, out := 16, nv := true, bad := [((stagesCfg s && (stagedCheck s).isBad) || !calFits s, 0xFFFF)], own := if stagesCfg s then (stagedCheck s).refuse else none } s ∧ stagesAny s = true ∧ s.sess.commitWait = false :=
  ⟨rq [], sv 0x0104 (rq []) cfgStaged, by
    rw [cfgStaged_fit 0x0104, cfgStaged_ok 0x0104]
    exact ready (by decide +kernel), by decide +kernel, by decide +kernel⟩

theorem wit_SessionChecksAndWrites_0105 : ∃ (q : Req) (s : State), Ready (if (pwRecord s).isNone then .p1s else .p2) 0x0105 q { defs := [(8, 1), (0x0C, 32)], bad := [(q.arg 8 1 < 8 || 32 < q.arg 8 1, 8)] ++ q.pwTail ++ [(!pwRules s q.pw, 0x0C)], nv := true } s :=
  ⟨rq (leBytes 4 8 ++ [0x50, 0x61, 0x73, 0x73, 0x77, 0x30, 0x72, 0x64]), sv 0x0105 (rq (leBytes 4 8 ++ [0x50, 0x61, 0x73, 0x73, 0x77, 0x30, 0x72, 0x64])) (sess2 up), ready (by decide +kernel)⟩

theorem wit_SessionChecksAndWrites_0903 : ∃ (q : Req) (s : State), Ready .p1s 0x0903 q { defs := [(8, 1), (0x0A, 6)], out := 2, bad := [(3 < (q.arg 8 1), 8), (!(match parEntry s (q.arg 8 1) (q.arg 0x0A 2) with | some e => e.calib | none => false) || ((stagedPar s (q.arg 8 1) (q.arg 0x0A 2)).isNone && 256 ≤ s.sess.params.length), 0x0A), (!parFits s ({ graph := q.arg 8 1, cell := q.arg 0x0A 2, value := BitVec.ofNat 32 (q.arg 0x0C 4) } : ParamCh), 0x0C)] } s :=
  ⟨rq ([0, 0] ++ leBytes 2 0x8000 ++ leBytes 4 9), sv 0x0903 (rq ([0, 0] ++ leBytes 2 0x8000 ++ leBytes 4 9)) { sess2 up with image := some img0 }, ready (by decide +kernel)⟩

theorem wit_SessionChecksAndWrites_0B01 : ∃ (q : Req) (s : State), Ready .p1 0x0B01 q { defs := [(8, 16)], out := 8, nv := true } s :=
  ⟨rq (leBytes 8 1000 ++ leBytes 8 16), sv 0x0B01 (rq (leBytes 8 1000 ++ leBytes 8 16)) (win up), ready (by decide +kernel)⟩

theorem wit_StateAndBoundaryCommands_0202 : ∃ (q : Req) (s : State), Ready .p1s 0x0202 q { defs := [(8, 1), (0x0C, 4)], bad := [(3 < (q.arg 8 1), 8), (s.sess.imgChecked.isSome && (q.arg 0x0C 4) < (s.sess.imgChecked.getD {}).qualMin, 0x0C)], out := 8, wrong := s.sess.imgChecked.isNone || !((s.sess.imgChecked.getD {}).graph (q.arg 8 1)).present || (spares s).isEmpty || (llOf s 4).lane.isSome || s.md.mstate != .run || s.image.isNone || clashes s (.qualify (q.arg 8 1) (q.arg 0x0C 4)), busy := s.sess.commitWait || switching s, own := qualRefuse s (q.arg 8 1) } s :=
  ⟨rq (leBytes 4 0 ++ leBytes 4 20000), sv 0x0202 (rq (leBytes 4 0 ++ leBytes 4 20000)) { sess2 up with image := some img0, sess := { (sess2 up).sess with imgChecked := some img0 }, lane := { up.lane with lanes := vset up.lane.lanes 4 { role := .spare } } }, ready (by decide +kernel)⟩

theorem wit_StateAndBoundaryCommands_0204 : ∃ (q : Req) (s : State), Ready .p2 0x0204 q { defs := [(8, 1)], bad := [(3 < (q.arg 8 1), 8)], out := 8, nv := true, busy := s.sess.commitWait, wrong := s.lane.qual.state != 2 || s.lane.qual.graph != (q.arg 8 1) || (llOf s 4).lane.isNone || clashes s (.handover (q.arg 8 1)) } s :=
  ⟨rq [1], sv 0x0204 (rq [1]) { sess2 up with lane := { up.lane with lls := vset up.lane.lls 4 { lane := some 4 }, qual := { state := 2, graph := 1 } } }, ready (by decide +kernel)⟩

theorem wit_StateAndBoundaryCommands_0205 : ∃ (q : Req) (s : State), Ready .p1 0x0205 q { wrong := (llOf s 4).lane.isNone || clashes s .progAbort } s :=
  ⟨rq [], sv 0x0205 (rq []) { win up with lane := { up.lane with lls := vset up.lane.lls 4 { lane := some 4 } } }, ready (by decide +kernel)⟩

theorem wit_StateAndBoundaryCommands_0206 : ∃ (q : Req) (s : State), Ready .p2 0x0206 q { out := 8, nv := true, wrong := s.md.mstate != .safeHold || s.sess.imgChecked.isNone || clashes s .progLoad, busy := s.sess.commitWait } s :=
  ⟨rq [], sv 0x0206 (rq []) { inSt .safeHold (sess2 up) with sess := { (sess2 up).sess with imgChecked := some img0 } }, ready (by decide +kernel)⟩

theorem wit_StateAndBoundaryCommands_0300 : ∃ (q : Req) (s : State), Ready .p0 0x0300 q { defs := [(8, 0x15), (0x20, 32)], bad := (q.flag 0 || q.flag 1, 4) :: streamBad q s, own := streamBudgetRefuse q s } s :=
  ⟨rq ([2, 0] ++ leBytes 2 4 ++ leBytes 2 0 ++ [0xFF, 0] ++ leBytes 8 0x10000 ++ leBytes 4 16 ++ leBytes 4 1 ++ leBytes 2 0x2980 ++ leBytes 2 2), sv 0x0300 (rq ([2, 0] ++ leBytes 2 4 ++ leBytes 2 0 ++ [0xFF, 0] ++ leBytes 8 0x10000 ++ leBytes 4 16 ++ leBytes 4 1 ++ leBytes 2 0x2980 ++ leBytes 2 2)), ready (by decide +kernel)⟩

theorem wit_StateAndBoundaryCommands_0301 : ∃ (q : Req) (s : State), Ready .p0 0x0301 q { defs := [(8, 1)], bad := [(31 < (q.arg 8 1), 8)], out := 8, wrong := !(vget s.hp.streams (q.arg 8 1)).open_ } s :=
  ⟨rq [2], sv 0x0301 (rq [2]) { up with hp := { up.hp with streams := vset up.hp.streams 2 { open_ := true } } }, ready (by decide +kernel)⟩

theorem wit_StateAndBoundaryCommands_0403 : ∃ (q : Req) (s : State), Ready .p1 0x0403 q { wrong := s.md.mstate != .safeHold || !causesGone s || clashes s .holdAck } s :=
  ⟨rq [], sv 0x0403 (rq []) { inSt .safeHold (win up) with md := { mstate := .safeHold, startStep := 12, cause := 0x13, recorded := [0x13] } }, ready (by decide +kernel)⟩

theorem wit_StateAndBoundaryCommands_0701 : ∃ (q : Req) (s : State), Ready .p1 0x0701 q { out := 8, wrong := noPrism s || (spares s).isEmpty || !hasPrism s || clashes s .prismEnter } s :=
  ⟨rq [], sv 0x0701 (rq []) { win up with image := some { img0 with graphs := List.replicate 4 {} ++ [{ present := true }] }, lane := { up.lane with lanes := vset up.lane.lanes 4 { role := .spare } } }, ready (by decide +kernel)⟩

theorem wit_StateAndBoundaryCommands_0702 : ∃ (q : Req) (s : State), Ready .p0 0x0702 q { out := 8, wrong := (laneIn s .prism).isNone || clashes s .prismExit } s :=
  ⟨rq [], sv 0x0702 (rq []) { up with lane := { up.lane with lanes := vset up.lane.lanes 4 { role := .prism } } }, ready (by decide +kernel)⟩

theorem wit_StateAndBoundaryCommands_0703 : ∃ (q : Req) (s : State), Ready .p1 0x0703 q { defs := [(8, 1)], bad := [(3 < (q.arg 8 1), 8)], out := 8, wrong := !(llOf s (q.arg 8 1)).stateFault || clashes s (.reseed (q.arg 8 1)), test := llTest s (q.arg 8 1) } s :=
  ⟨rq [2], sv 0x0703 (rq [2]) { win up with lane := { up.lane with lls := vset up.lane.lls 2 { lane := some 2, stateFault := true } } }, ready (by decide +kernel)⟩

theorem wit_StateAndBoundaryCommands_0802 : ∃ (q : Req) (s : State), Ready .p1 0x0802 q { defs := [(8, 2), (0x10, 8)], bad := [(1 < (q.arg 8 1), 8)], out := 8, own := adoptRefuse s (q.arg 8 1) (q.arg 9 1) (q.arg 0x10 8), wrong := !((nodeOf s (256 * (q.arg 8 1) + q.arg 9 1)).conn == 1 || (nodeOf s (256 * (q.arg 8 1) + q.arg 9 1)).conn == 6) || uidConfigured s (q.arg 0x10 8) || clashes s (.adopt (256 * (q.arg 8 1) + q.arg 9 1) (q.arg 0x10 8)) } s :=
  ⟨rq ([0, 3] ++ List.replicate 6 0 ++ leBytes 8 77), sv 0x0802 (rq ([0, 3] ++ List.replicate 6 0 ++ leBytes 8 77)) { win up with ring := { up.ring with nodes := vset up.ring.nodes 3 { uid := 5, ntype := 9, conn := 1 }, rings := vset up.ring.rings 0 { found := [{ uid := 77, ntype := 9 }] } } }, ready (by decide +kernel)⟩

theorem wit_StateAndBoundaryCommands_0904 : ∃ (q : Req) (s : State), Ready .p1 0x0904 q { defs := [(8, 1)], bad := [(15 < (q.arg 8 1), 8)], out := 8, wrong := clashes s (.realign (q.arg 8 1)) } s :=
  ⟨rq [5], sv 0x0904 (rq [5]) (win up), ready (by decide +kernel)⟩

theorem wit_StateAndBoundaryCommands_0402 : ∃ (q : Req) (s : State), Ready .p0 0x0402 q {} s ∧ (s.md.mstate = .run ∨ s.md.mstate = .quiet) ∧ 0x13#8 ∉ s.md.holdPend :=
  ⟨rq [], sv 0x0402 (rq []), ready (by decide +kernel), by decide +kernel, by decide +kernel⟩

theorem wit_StateAndBoundaryCommands_0404 : ∃ (q : Req) (s : State), Ready .p0 0x0404 q { out := 8, wrong := s.md.mstate != .run || (s.xl.joined && !s.xl.acting) || clashes s .quietEnter } s :=
  ⟨rq [], sv 0x0404 (rq []), ready (by decide +kernel)⟩

theorem wit_StateAndBoundaryCommands_0405 : ∃ (q : Req) (s : State), Ready .p0 0x0405 q { out := 8, wrong := s.md.mstate != .quiet || clashes s .quietExit } s :=
  ⟨rq [], sv 0x0405 (rq []) (inSt .quiet), ready (by decide +kernel)⟩

theorem wit_StateAndBoundaryCommands_0406 : ∃ (q : Req) (s : State), Ready .p1 0x0406 q { defs := [(8, 1)], bad := [(1 < q.arg 8 1, 8)], out := 4, wrong := !ackReady s (q.arg 8 1) } s ∧ (4 ∈ (vget s.out.grps (q.arg 8 1)).latches ∨ (vget s.out.grps (q.arg 8 1)).startOk = false) :=
  ⟨rq [1], sv 0x0406 (rq [1]) (win up), ready (by decide +kernel), by decide +kernel⟩

theorem wit_StateAndBoundaryCommands_0704 : ∃ (q : Req) (s : State), Ready .p1 0x0704 q { out := 1 } s :=
  ⟨rq [], sv 0x0704 (rq []) (win up), ready (by decide +kernel)⟩

theorem wit_StateAndBoundaryCommands_0407 : ∃ (q : Req) (s : State) (r : Fin 64), Ready .p1 0x0407 q { defs := [(8, 1)], bad := [(q.arg 8 1 != 0, 8)] } s ∧ q.src = .ring r ∧ (vget s.hp.rings r.val).en = true ∧ isMuted q s = false :=
  ⟨rq [0], sv 0x0407 (rq [0]) { win up with hp := { up.hp with rings := vset up.hp.rings 0 { en := true, cpl := 64 } } }, 0, ready (by decide +kernel), by decide +kernel, by decide +kernel, by decide +kernel⟩

theorem wit_LoupeCommands_0500 : ∃ (q : Req) (s : State), Ready .p0 0x0500 q { defs := [(8, 3), (0x10, 8)], bad := [(7 < (q.arg 8 1), 8), (1 < q.arg 9 1, 9), (3 < q.arg 0x0A 1, 0x0A)], out := 4, logs := false } s :=
  ⟨rq ([7, 1, 2] ++ List.replicate 5 0 ++ leBytes 8 3), sv 0x0500 (rq ([7, 1, 2] ++ List.replicate 5 0 ++ leBytes 8 3)), ready (by decide +kernel)⟩

theorem wit_LoupeCommands_overrun : ∃ (q : Req) (s : State) (c : Cursor), Ready .p0 0x0501 q { defs := [(8, 1), (0x0A, 2)], bad := [(7 < (q.arg 8 1), 8), ((q.arg 0x0A 2) < 1 || 32 < (q.arg 0x0A 2), 0x0A)], obuf := decide (2 ≤ (q.arg 0x0A 2)), out := if q.flag 1 then 32 * (q.arg 0x0A 2) else 36, wrong := decide ((q.arg 8 1) ≤ 7) && (vget s.evr.cursors (q.arg 8 1)).isNone, logs := false } s ∧ vget s.evr.cursors (q.arg 8 1) = some c ∧ c.overrun = true :=
  ⟨rq ([7, 0] ++ leBytes 2 1), sv 0x0501 (rq ([7, 0] ++ leBytes 2 1)) { up with evr := { up.evr with cursors := vset up.evr.cursors 7 (some { overrun := true }) } }, { overrun := true }, ready (by decide +kernel), by decide +kernel, by decide +kernel⟩

theorem wit_LoupeCommands_records : ∃ (q : Req) (s : State) (c : Cursor) (r : EvRec), Ready .p0 0x0501 q { defs := [(8, 1), (0x0A, 2)], bad := [(7 < (q.arg 8 1), 8), ((q.arg 0x0A 2) < 1 || 32 < (q.arg 0x0A 2), 0x0A)], obuf := decide (2 ≤ (q.arg 0x0A 2)), out := if q.flag 1 then 32 * (q.arg 0x0A 2) else 36, wrong := decide ((q.arg 8 1) ≤ 7) && (vget s.evr.cursors (q.arg 8 1)).isNone, logs := false } s ∧ vget s.evr.cursors (q.arg 8 1) = some c ∧ c.overrun = false ∧ (loupeRecs (q.arg 0x0A 2) c s).getLast? = some r ∧ (∀ x ∈ loupeRecs (q.arg 0x0A 2) c s, x.crcBad = false) ∧ q.flag 1 = true :=
  ⟨ob ([7, 0] ++ leBytes 2 2) 64, sv 0x0501 (ob ([7, 0] ++ leBytes 2 2) 64) { up with evr := { up.evr with cursors := vset up.evr.cursors 7 (some { pos := 4 }), recS := [{ seq := 4, key := { code := 0x0201 } }], seqS := 4 } }, { pos := 4 }, { seq := 4, key := { code := 0x0201 } }, ready (by decide +kernel), by decide +kernel, by decide +kernel, by decide +kernel, by decide +kernel, by decide +kernel⟩

theorem wit_LoupeCommands_0502 : ∃ (q : Req) (s : State), Ready .p0 0x0502 q { defs := [(8, 1)], bad := [(7 < (q.arg 8 1), 8)], logs := false } s :=
  ⟨rq [7], sv 0x0502 (rq [7]), ready (by decide +kernel)⟩

theorem wit_LoupeCommands_0504 : ∃ (q : Req) (s : State), Ready .p1 0x0504 q { defs := [(8, 1)], bad := [((q.arg 8 1) != 1, 8)], out := 4, nv := true } s ∧ s.evr.flushing = false :=
  ⟨rq [1], sv 0x0504 (rq [1]) (win up), ready (by decide +kernel), by decide +kernel⟩

theorem wit_FirmwareAndNodeCommands_0602 : ∃ (q : Req) (s : State), Ready .p2 0x0602 q { wrong := !s.sup.otherChecked, busy := s.sess.commitWait || switching s, nv := true } s :=
  ⟨rq [], sv 0x0602 (rq []) { sess2 up with sup := { up.sup with otherChecked := true } }, ready (by decide +kernel)⟩

theorem wit_FirmwareAndNodeCommands_0604 (h : Config.ucodeSigned [] = true) : ∃ (q : Req) (s : State), Ready .p2 0x0604 q { out := 1, busy := s.lane.roll.isSome, nv := true, own := fwRefuse (Config.ucodeSigned s.nv.ucode) (Config.ucodeVersion s.nv.ucode).toNat (ucMin s) } s :=
  ⟨rq [], sv 0x0604 (rq []) (sess2 up), ready_own (by decide +kernel) (ucode_of (by decide +kernel) h (by decide +kernel))⟩

theorem wit_FirmwareAndNodeCommands_0606 (h : Config.keeperSigned [] = true) : ∃ (q : Req) (s : State), Ready .p2 0x0606 q { out := 2, wrong := !keeperMay s, nv := true, busy := (llOf s 4).lane.isSome || s.lane.roll.isSome || s.sess.commitWait || switching s } s :=
  ⟨rq [], sv 0x0606 (rq []) (sess2 up), ready_wrong (by decide +kernel) (by simpa using keeperMay_of (by decide +kernel) (by decide +kernel) (by decide +kernel) h (by decide +kernel))⟩

theorem wit_FirmwareAndNodeCommands_0800 : ∃ (q : Req) (s : State), Ready .p0 0x0800 q { defs := [(8, 1)], bad := [(1 < (q.arg 8 1), 8)], out := 2, logs := false, wrong := !(ringOf s (q.arg 8 1)).sched || !(ringOf s (q.arg 8 1)).master } s :=
  ⟨rq [1], sv 0x0800 (rq [1]) { up with ring := { up.ring with rings := vset up.ring.rings 1 { sched := true, master := true } } }, ready (by decide +kernel)⟩

theorem wit_FirmwareAndNodeCommands_0804 : ∃ (q : Req) (s : State) (ty : Nat) (ver : Nat) (len : Nat), Ready .p1s 0x0804 q { defs := [(8, 2), (0x0C, 4)], bad := [(511 < q.arg 8 2, 8), (4194304 ≤ q.arg 0x0C 4 || q.arg 0x0C 4 % 4096 != 0, 0x0C)], out := 4, busy := s.ring.nfw.phase == 1 || s.ring.nfw.phase == 2, own := nfwRefuse s (q.arg 8 2) (q.arg 0x0C 4) } s ∧ nfwHeader s.nv.nodeFw (q.arg 0x0C 4) = some (ty, ver, len) :=
  ⟨rq (leBytes 4 3 ++ leBytes 4 4096), sv 0x0804 (rq (leBytes 4 3 ++ leBytes 4 4096)) { sess2 up with nv := { up.nv with nodeFw := Mem.writeBytes 0 [] 4096 (leBytes 4 0x57464E55 ++ leBytes 4 9 ++ leBytes 4 3 ++ leBytes 4 4 ++ sha256 [1, 2, 3, 4] ++ [1, 2, 3, 4]) }, ring := { up.ring with nodes := vset up.ring.nodes 3 { uid := 5, ntype := 9, conn := 5 } } }, 9, 3, 4, ready (by decide +kernel), by decide +kernel⟩

theorem wit_FirmwareAndNodeCommands_0805 : ∃ (q : Req) (s : State), Ready .p1 0x0805 q { defs := [(8, 2)], bad := [(511 < q.arg 8 2, 8)], wrong := !activateMay s (q.arg 8 2) } s :=
  ⟨rq (leBytes 2 3), sv 0x0805 (rq (leBytes 2 3)) { win up with md := { up.md with committedCycles := 100 }, ring := { up.ring with rings := vset up.ring.rings 0 { state := 2 }, nodes := vset up.ring.nodes 3 { uid := 5, conn := 5, fwStaged := true, verified := true } } }, ready (by decide +kernel)⟩

theorem wit_RegisterWindowCommands_0A00 : ∃ (q : Req) (s : State), Ready .p0 0x0A00 q { defs := [(8, 1), (0x0A, 6)], out := 4 * (q.arg 0x0A 2), test := rangeTest s (q.arg 8 1) (q.arg 0x0C 4) (q.arg 0x0A 2), logs := false, bad := [(winSize (q.arg 8 1) = 0, 8), ((q.arg 0x0A 2) < 1 || (if q.flag 1 then 4096 else 12) < (q.arg 0x0A 2), 0x0A), ((q.arg 0x0C 4) % 4 != 0 || winSize (q.arg 8 1) < (q.arg 0x0C 4) + 4 * (q.arg 0x0A 2), 0x0C)] } s :=
  ⟨rq ([1, 0] ++ leBytes 2 4 ++ leBytes 4 0), sv 0x0A00 (rq ([1, 0] ++ leBytes 2 4 ++ leBytes 4 0)), ready (by decide +kernel)⟩

theorem wit_RegisterWindowCommands_0A01 : ∃ (q : Req) (s : State), Ready (regTarget q s).cls 0x0A01 q { defs := [(8, 1), (0x0C, 8)], out := 4, bad := [(winSize (q.arg 8 1) = 0, 8), ((q.arg 0x0C 4) % 4 != 0 || winSize (q.arg 8 1) < (q.arg 0x0C 4) + 4, 0x0C)], prot := if (regTarget q s).protected (holds s q.src) then some (.protectedReg, []) else none } s :=
  ⟨rq ([8, 0, 0, 0] ++ leBytes 4 0x110 ++ leBytes 4 77), sv 0x0A01 (rq ([8, 0, 0, 0] ++ leBytes 4 0x110 ++ leBytes 4 77)), ready (by decide +kernel)⟩

theorem wit_RegisterWindowCommands_0B02 : ∃ (q : Req) (s : State), Ready .p0 0x0B02 q { defs := [(8, 1), (0x0C, 0x15)], out := 4, prot := if (vget s.tmr.chans (q.arg 8 1)).own then some (.protectedReg, []) else none, bad := [(31 < (q.arg 8 1), 8), (cfgReserved (q.arg 8 1) (BitVec.ofNat 32 (q.arg 0x0C 4) &&& cfgMask), 0x0C), (q.arg 0x16 2 != 0, 0x16), (0x8000 ≤ q.arg 0x1C 4, 0x1C), (4 ≤ q.arg 0x20 1, 0x20)] } s :=
  ⟨rq ([5, 0, 0, 0] ++ leBytes 4 0x01000080 ++ leBytes 4 100), sv 0x0B02 (rq ([5, 0, 0, 0] ++ leBytes 4 0x01000080 ++ leBytes 4 100)), ready (by decide +kernel)⟩

theorem wit_CrossLinkAndFuseCommands_0C01 : ∃ (q : Req) (s : State), Ready .p0 0x0C01 q { wrong := !s.xl.stopDrv.getLsbD 2 } s :=
  ⟨rq [], sv 0x0C01 (rq []) { up with xl := { up.xl with stopDrv := 4 } }, ready (by decide +kernel)⟩

theorem wit_CrossLinkAndFuseCommands_0C02 : ∃ (q : Req) (s : State), Ready .p1 0x0C02 q {} s :=
  ⟨rq [], sv 0x0C02 (rq []) (win up), ready (by decide +kernel)⟩

theorem wit_CrossLinkAndFuseCommands_0C03 : ∃ (q : Req) (s : State) (x : NewModule), Ready .p2 0x0C03 q { defs := [(8, 8)], wrong := !pairAdoptMay s (q.arg 8 8) x } s :=
  ⟨rq (leBytes 8 42), sv 0x0C03 (rq (leBytes 8 42)) { sess2 up with xl := { up.xl with pairCfg := true, svc := [(1, [0x114, 0, 0, 0, 0, 0, 0, 42, 0])] }, fuse := { up.fuse with live := BitVec.ofNat 8192 (7 * 2 ^ 6144), liveSt := Vector.replicate 8 1 } }, {}, ready (by decide +kernel)⟩

theorem wit_CrossLinkAndFuseCommands_0D01 : ∃ (q : Req) (s : State) (env : FuseEnv), Ready .p2 0x0D01 q { life := lifeRefuse s (q.arg 8 1), defs := [(8, 1), (0x0A, 4), (0x10, 32)], out := 2, nv := true, prot := lockRefuse s (q.arg 8 1), wrong := s.fuse.shadowMis, supply := takenStop s, bad := [(7 < (q.arg 8 1), 8), (grpLen (q.arg 8 1) < q.arg 0x0A 2 + q.arg 0x0C 2, 0x0A), (q.arg 0x0C 2 < 1 || 256 < q.arg 0x0C 2, 0x0C), ((progBits q).any fun b => !progAllowed (q.arg 8 1) (b - grpLo (q.arg 8 1)), 0x10)] } s ∧ (∀ p ∈ env.pulses, 2000 ≤ p.vlog ∧ 0 ≤ p.tj ∧ p.tj ≤ 70 ∧ p.level = 3) :=
  ⟨rq ([3, 0] ++ leBytes 2 0 ++ leBytes 2 4 ++ [0, 0, 9]), sv 0x0D01 (rq ([3, 0] ++ leBytes 2 0 ++ leBytes 2 4 ++ [0, 0, 9])) { sess2 up with fuse := { up.fuse with lc := 2 } }, {}, ready (by decide +kernel), by decide +kernel⟩

theorem wit_CrossLinkAndFuseCommands_0D02 : ∃ (q : Req) (s : State) (env : FuseEnv), Ready .p2 0x0D02 q { life := lifeRefuse s (q.arg 8 1), defs := [(8, 1)], bad := [(7 < (q.arg 8 1), 8)], prot := lockRefuse s (q.arg 8 1), wrong := s.fuse.shadowMis, supply := takenStop s, nv := true, own := if (lockCheck s.fuse (q.arg 8 1)).1 then none else some (.checkFailed, leBytes 2 (lockCheck s.fuse (q.arg 8 1)).2) } s ∧ (∀ p ∈ env.pulses, 2000 ≤ p.vlog ∧ 0 ≤ p.tj ∧ p.tj ≤ 70 ∧ p.level = 3) :=
  ⟨rq [3], sv 0x0D02 (rq [3]) { sess2 up with fuse := { up.fuse with lc := 2, a := fuseG3, b := fuseG3 } }, {}, ready (by decide +kernel), by decide +kernel⟩

theorem wit_CrossLinkAndFuseCommands_0D03 : ∃ (q : Req) (s : State) (env : FuseEnv), Ready .p2 0x0D03 q { defs := [(8, 1)], bad := [((q.arg 8 1) != s.fuse.lc + 1, 8)], out := 1, wrong := s.fuse.shadowMis, supply := takenStop s, nv := true } s ∧ (∀ p ∈ env.pulses, 2000 ≤ p.vlog ∧ 0 ≤ p.tj ∧ p.tj ≤ 70 ∧ p.level = 3) ∧ s.fuse.lc = 3 ∧ s.fuse.lcDefault = false :=
  ⟨rq [4], sv 0x0D03 (rq [4]) { sess2 up with fuse := { up.fuse with lc := 3 } }, { pulses := [{}] }, ready (by decide +kernel), by decide +kernel, by decide +kernel, by decide +kernel⟩

theorem wit_KeeperCommands_8000 : ∃ (f : Frame) (s : State), KpReady 0x8000 f { always := true, bad := f.payload.length != 0 } s :=
  ⟨fr [], up, kpReady (by decide +kernel)⟩

theorem wit_KeeperCommands_8001 : ∃ (f : Frame) (s : State), KpReady 0x8001 f { bad := f.payload.length != 1 || 4 < f.arg 0 1 } s :=
  ⟨fr [3], up, kpReady (by decide +kernel)⟩

theorem wit_KeeperCommands_8002 : ∃ (f : Frame) (s : State), KpReady 0x8002 f { always := true, bad := f.payload.length != 0 } s :=
  ⟨fr [], up, kpReady (by decide +kernel)⟩

theorem wit_KeeperCommands_8003 : ∃ (f : Frame) (s : State), KpReady 0x8003 f { always := true, bad := f.payload.length != 5 || f.arg 4 1 < 1 || 15 < f.arg 4 1 } s ∧ (∀ r ∈ (s.keep.journal.filter fun r => f.arg 0 4 ≤ r.seq).take (f.arg 4 1), r.crcBad = false) :=
  ⟨fr (leBytes 4 2 ++ [5]), { up with keep := { up.keep with journal := [{ seq := 2 }, { seq := 3 }], seq := 3 } }, kpReady (by decide +kernel), by decide +kernel⟩

theorem wit_KeeperCommands_8011 : ∃ (f : Frame) (s : State), KpReady 0x8011 f { p1 := true, recovery := true, wrong := recoverWrong s f, bad := f.payload.length != 8 || 1 < f.arg 0 1 || f.arg 4 4 = 0 || 4194304 < f.arg 4 4 } s :=
  ⟨fr ([1, 0, 0, 0] ++ leBytes 4 64), { win up with sup := { up.sup with sup := .halted } }, kpReady (by decide +kernel)⟩

theorem wit_KeeperCommands_8004 : ∃ (f : Frame) (s : State), KpReady 0x8004 f { bad := f.payload.length != 0, wrong := !(s.md.mstate == .run || s.md.mstate == .quiet || s.md.mstate == .safeHold) } s ∧ s.md.mstate ≠ .safeHold ∧ 0x13#8 ∉ s.md.holdPend :=
  ⟨fr [], up, kpReady (by decide +kernel), by decide +kernel, by decide +kernel⟩

theorem wit_KeeperCommands_8005 : ∃ (f : Frame) (s : State), KpReady 0x8005 f { p1 := true, logs := true, bad := f.payload.length != 0, wrong := s.md.mstate != .safeHold || !causesGone s || clashes s .holdAck } s :=
  ⟨fr [], inSt .safeHold (win up), kpReady (by decide +kernel)⟩

theorem wit_KeeperCommands_8006 : ∃ (f : Frame) (s : State), KpReady 0x8006 f { p1 := true, logs := true, bad := f.payload.length != 0, wrong := !canShut s } s :=
  ⟨fr [], win up, kpReady (by decide +kernel)⟩

theorem wit_KeeperCommands_reset : ∃ (f : Frame) (s : State), KpReady 0x8007 f { p1 := true, logs := true, bad := f.payload.length != 0, always := resetWakes s, wrong := !canShut s && !resetWakes s } s ∧ resetWakes s = false :=
  ⟨fr [], win up, kpReady (by decide +kernel), by decide +kernel⟩

theorem wit_KeeperCommands_wake : ∃ (f : Frame) (s : State), KpReady 0x8007 f { p1 := true, logs := true, bad := f.payload.length != 0, always := resetWakes s, wrong := !canShut s && !resetWakes s } s ∧ resetWakes s = true :=
  ⟨fr [], { win up with md := { mstate := .off, offLatched := true } }, kpReady (by decide +kernel), by decide +kernel⟩

theorem wit_KeeperCommands_8008 : ∃ (f : Frame) (s : State), KpReady 0x8008 f { p1 := true, logs := true, bad := f.payload.length != 0, wrong := !(supRuns s || s.sup.sup == .halted) } s :=
  ⟨fr [], win up, kpReady (by decide +kernel)⟩

theorem wit_KeeperCommands_8009 : ∃ (f : Frame) (s : State), KpReady 0x8009 f { bad := f.payload.length != 0 } s ∧ s.sess.winOpen = true :=
  ⟨fr [], win up, kpReady (by decide +kernel), by decide +kernel⟩

theorem wit_KeeperCommands_8010 : ∃ (f : Frame) (s : State), KpReady 0x8010 f { p1 := true, logs := true, recovery := true, wrong := recoverWrong s f, bad := f.payload.length < 9 || 1 < f.arg 0 1 || f.arg 4 4 % 8 != 0 || 4194304 < f.arg 4 4 + (f.payload.length - 8) } s ∧ s.pwr.inhibit = false :=
  ⟨fr ([1, 0, 0, 0] ++ leBytes 4 8 ++ [1, 2]), { win up with sup := { up.sup with sup := .halted } }, kpReady (by decide +kernel), by decide +kernel⟩

theorem wit_KeeperCommands_8012 : ∃ (f : Frame) (s : State), KpReady 0x8012 f { p1 := true, logs := true, recovery := true, wrong := recoverWrong s f || !canShut s, bad := f.payload.length != 1 || 1 < f.arg 0 1 } s :=
  ⟨fr [1], { win up with sup := { up.sup with sup := .halted } }, kpReady (by decide +kernel)⟩

/-! ## Witnesses: the other statements -/

/-- A node's input frame with `SEQ` 8 at slot 3 of ring 0, with a check word. -/
def contFr (crc : Nat) : List Byte := etherFrame (moduleMac 0 0) (nodeMac 0 3) (frameHead 2 0 5 120 0 ++ beBytes 2 8 ++ List.replicate 102 0#8 ++ beBytes 4 crc)

/-- The node with UID 5 in slot 3 of ring 0. -/
def nodeUp (n : Node) : State := { up with ring := { up.ring with nodes := vset up.ring.nodes 3 { n with uid := 5 }, rings := vset up.ring.rings 0 { sched := true, master := true } } }

/-- Its check word (R234), by an independent program. -/
theorem contFr_good (s : State) (h : cidOf s 0 3 (vget s.ring.nodes 3).uid = beBytes 8 0xf266e551654593a8) :
    beAt ((frameBody (contFr 0xd1b21e37)).drop 12) 104 4 = (contCrc (cidOf s 0 3 (vget s.ring.nodes 3).uid) 0x49 0 3 (((frameBody (contFr 0xd1b21e37)).drop 12).take 104)).toNat := by
  rw [h, contCrc, crc32c_parts _ 40 0x7FB9474C#32 (by decide +kernel), crc32c_part _ 40 _ 0xF448801F#32 (by decide +kernel)]
  decide +kernel

/-- A `MGMT_RESP` to this module from slot `slot` of ring 0, or with slot 0 from an unconfigured node: opcode, status, tag 9 and data (R236). -/
def respFr (slot uid op status : Nat) (data : List Byte) : List Byte :=
  etherFrame (moduleMac 0 0) (if slot = 0 then freshMac uid else nodeMac 0 slot)
    (frameHead 4 0 5 (16 + data.length) 0 ++ [BitVec.ofNat 8 op, 9#8, BitVec.ofNat 8 status, 0#8] ++ data)

/-- What a node of a UID and a type says of itself, with a `t_NIN` (R247, notes/assumptions/103.md). -/
def identBytes (uid ty tNin : Nat) : List Byte := beBytes 8 uid ++ beBytes 2 ty ++ beBytes 4 7 ++ [8#8, 2#8, 1#8] ++ beBytes 4 tNin ++ beBytes 4 250000 ++ beBytes 4 0

/-- Four bytes read back as the word they spell. -/
theorem beWord (x : Word) : BitVec.ofNat 32 (beAt (beBytes 4 x.toNat) 0 4) = x := by
  apply BitVec.eq_of_toNat_eq
  have h : x.toNat < 2 ^ 32 := x.isLt
  simp [beAt, beNat, beBytes, leBytes, slice, leNat]
  omega

/-- The request for `CONFIG_COMMIT` in progress at slot 3, and its answer with a check word. -/
def commitUp (n : Node) : State :=
  { nodeUp n with ring := { (nodeUp n).ring with rings := vset up.ring.rings 0 { sched := true, master := true, mgmt := [{ slot := 3, op := 3, tag := 9, sent := true, at_ := 4 }] } } }

theorem commitFr (x : Word) (n : Node) : let fr := respFr 3 5 3 0 (beBytes 4 x.toNat)
    headOk 0 4 fr = true ∧ 16 ≤ (frameBody fr).length ∧ forModule (commitUp n) 0 fr = true ∧ slotOfMac (commitUp n) 0 (frameSrc fr) = some 3 ∧
    leAt (frameBody fr) 13 1 = 9 ∧ leAt (frameBody fr) 12 1 = 3 ∧ (frameBody fr).drop 16 = beBytes 4 x.toNat :=
  by
  have hb : beBytes 4 x.toNat = [BitVec.ofNat 8 (x.toNat / 256 / 256 / 256), BitVec.ofNat 8 (x.toNat / 256 / 256), BitVec.ofNat 8 (x.toNat / 256), BitVec.ofNat 8 x.toNat] := rfl
  intro fr
  have hf : fr = [2#8, 0x46#8, 0x52#8, 0x56#8, 0x10#8, 0#8] ++ nodeMac 0 3 ++ [0x88#8, 0xB6#8, 1#8, 4#8, 0#8, 0#8, 0#8, 5#8, 0#8, 20#8, 0#8, 0#8, 0#8, 0#8, 3#8, 9#8, 0#8, 0#8] ++ beBytes 4 x.toNat := by
    simp [fr, respFr, etherFrame, frameHead, moduleMac, nodeMac, ringAddr, beBytes, leBytes]
  have hn : nodeMac 0 3 = [2#8, 0x46#8, 0x52#8, 0x56#8, 0x20#8, 3#8] := by decide +kernel
  rw [hf, hb, hn]
  refine ⟨?_, ?_, ?_, ?_, ?_, ?_, ?_⟩
  · simp [headOk, frameBody, slice, leAt, leNat, beAt, beNat]
  · simp [frameBody]
  · have hm : (commitUp n).xl.mid = 0 := rfl
    simp [forModule, frameDst, hm, moduleMac, ringAddr]
  · simp [slotOfMac, frameSrc, slice, leAt, leNat, nodeMac, ringAddr]
  · simp [frameBody, slice, leAt, leNat]
  · simp [frameBody, slice, leAt, leNat]
  · simp [frameBody]

/-- Cross-link words of slot 3: module 1's service container of cycle count 0 with a first word. -/
def xlWs (w : Word) (crc : Word) : List Word := [0x19#32, w] ++ List.replicate 31 0#32 ++ [crc]

theorem xlWs_0 (j : Bool) (hj : j = false) : xlAccepts 3 0 j (xlWs 0 0xFAE813AC) = true := by
  subst hj
  simp only [xlAccepts]
  rw [xlCrc, crc32c_parts _ 45 0xD90EEB9D#32 (by decide +kernel), crc32c_part _ 45 _ 0x37CAEC85#32 (by decide +kernel)]
  decide +kernel

theorem xlWs_1 (j : Bool) (hj : j = false) : xlAccepts 3 0 j (xlWs 1 0x946C712C) = true := by
  subst hj
  simp only [xlAccepts]
  rw [xlCrc, crc32c_parts _ 45 0x266B9A3F#32 (by decide +kernel), crc32c_part _ 45 _ 0x52B5B561#32 (by decide +kernel)]
  decide +kernel

/-- A module of a pair. -/
def paired (s : State) : State := { s with fuse := { s.fuse with live := BitVec.ofNat 8192 (2 ^ 6144), liveSt := vset s.fuse.liveSt 7 1 }, xl := { s.xl with pairCfg := true } }

theorem wit_StepRunsFront_queue : ∃ (c : Instr) (r : List Instr) (s : State), s.pending = c :: r := ⟨.hrst, [.commit], { up with pending := [.hrst, .commit] }, by decide +kernel⟩

theorem wit_EveryCommandCompletesAndTimePasses_runs : ∃ (s : State), s.pending = [] ∧ s.time.tclkRun = true ∧ s.time.phase < 32 := ⟨up, by decide +kernel⟩

theorem wit_EveryCommandCompletesAndTimePasses_stopped : ∃ (s : State), s.pending = [] ∧ s.time.tclkRun = false ∧ s.time.phase < 32 := ⟨State.reset, by decide +kernel⟩

theorem wit_CommandsAreTakenJudgedAndServed_waits : ∃ (i : Instr) (op : Nat) (q : Req) (r : Fin 64) (s : State), supOf i = some (op, q) ∧ q.src = .ring r ∧ takenOf s op q = none ∧ canTake q s = false := ⟨.nop (rq []), 0, rq [], 0, up, by decide +kernel⟩

theorem wit_CommandsAreTakenJudgedAndServed_taken : ∃ (i : Instr) (op : Nat) (q : Req) (r : Fin 64) (s : State), supOf i = some (op, q) ∧ q.src = .ring r ∧ takenOf s op q = none ∧ canTake q s = true := ⟨.nop (rq []), 0, rq [], 0, hostUp, by decide +kernel⟩

theorem wit_CommandsAreTakenJudgedAndServed_halted : ∃ (i : Instr) (op : Nat) (q : Req) (s : State) (t : Taken), supOf i = some (op, q) ∧ entryOf op q s = q ∧ takenOf s op q = some t ∧ s.sup.sup ≠ .serving := ⟨.nop (rq []), 0, rq [], { nopTaken with sup := { nopTaken.sup with sup := .halted } }, { src := .ring 0, tag := 7, at_ := 32000000 }, by decide +kernel⟩

theorem wit_CommandsAreTakenJudgedAndServed_group : ∃ (i : Instr) (op : Nat) (q : Req) (s : State) (t : Taken), supOf i = some (op, q) ∧ entryOf op q s = q ∧ takenOf s op q = some t ∧ mayStart op q s = false := ⟨.nop (rq []), 0, rq [], { nopTaken with sup := { nopTaken.sup with taken := { src := .ring 0, tag := 6, opcode := 1 } :: nopTaken.sup.taken } }, { src := .ring 0, tag := 7, at_ := 32000000 }, by decide +kernel⟩

theorem wit_CommandsAreTakenJudgedAndServed_noPresence : ∃ (i : Instr) (op : Nat) (q : Req) (s : State) (t : Taken) (st : Status), supOf i = some (op, q) ∧ entryOf op q s = q ∧ takenOf s op q = some t ∧ t.refusal = some st ∧ st ≠ .authFailed ∧ s.sup.sup = .serving ∧ mayStart op q s = true ∧ (q.flag 0 && q.inErr) = false := ⟨.holdAck (rq []), 0x0403, rq [], { up with sup := { up.sup with taken := [{ src := .ring 0, tag := 7, opcode := 0x0403, refusal := some .noPresence }] } }, { src := .ring 0, tag := 7, opcode := 0x0403, refusal := some .noPresence }, .noPresence, by decide +kernel⟩

theorem wit_AuthorityByClass_noRecord : ∃ (op : Nat) (r : Requester) (s : State), op ≠ 0x0100 ∧ windowOpen s = true ∧ s.sess.owner = some r ∧ pwRecord s = none := ⟨0x0403, .ring 0, sess2 up, by decide +kernel⟩

theorem wit_AuthorityByClass_noWindow : ∃ (op : Nat) (s : State), op ≠ 0x0100 ∧ windowOpen s = false := ⟨0x0403, up, by decide +kernel⟩

theorem wit_AuthorityByClass_noSession : ∃ (op : Nat) (s : State), op ≠ 0x0100 ∧ windowOpen s = true ∧ s.sess.owner = none := ⟨0x0403, win up, by decide +kernel⟩

theorem wit_AuthorityByClass_held : ∃ (op : Nat) (r : Requester) (s : State), op ≠ 0x0100 ∧ windowOpen s = true ∧ s.sess.owner = some .sideband ∧ Requester.sideband ≠ r := ⟨0x0403, .ring 0, { win up with sess := { (win up).sess with owner := some .sideband } }, by decide +kernel⟩

theorem wit_AuthorityByClass_password : ∃ (op : Nat) (r : Requester) (s : State), op ≠ 0x0100 ∧ windowOpen s = true ∧ s.sess.owner = some r ∧ pwRecord s ≠ none ∧ s.sess.level = .p2 := ⟨0x0403, .ring 0, { sess2 up with nv := { up.nv with cfg := vset up.nv.cfg 0 { commit := 1, pw := { crcOk := true } } } }, by decide +kernel⟩

theorem wit_AuthorityByClass_noPassword : ∃ (op : Nat) (r : Requester) (s : State), op ≠ 0x0100 ∧ windowOpen s = true ∧ s.sess.owner = some r ∧ pwRecord s ≠ none ∧ s.sess.level ≠ .p2 := ⟨0x0403, .ring 0, { { sess2 up with nv := { up.nv with cfg := vset up.nv.cfg 0 { commit := 1, pw := { crcOk := true } } } } with sess := { (sess2 up).sess with level := .p1 } }, by decide +kernel⟩

theorem wit_ChangeLogEntryIsChained_session : ∃ (q : Req) (s : State), s.sess.owner = some q.src := ⟨rq [], sess2 up, by decide +kernel⟩

theorem wit_ChangeLogEntryIsChained_none : ∃ (q : Req) (s : State), s.sess.owner ≠ some q.src := ⟨rq [], up, by decide +kernel⟩

theorem wit_ChunksAreStoredAndReadBack_mem : ∃ (m : Mem 8), Mem.wf 0 m = true := ⟨[(3, 7)], by decide +kernel⟩

theorem wit_SidebandLine_noPresence : ∃ (cmd : Nat) (f : Frame) (n : KpNeeds) (st : Status) (s : State), keeperHears s = true ∧ f.mine cmd s = true ∧ s.keep.waiting = none ∧ f.payload.length ≤ 1024 ∧ s.keep.lastReq ≠ some (f.tag, cmd, f.crc cmd) ∧ n.refuse (kpHeard cmd f s) = some st := ⟨0x8006, fr [], { p1 := true }, .noPresence, up, by decide +kernel⟩

theorem wit_SidebandLine_repeat : ∃ (tag : Half) (cmd : Half) (crc : Half) (s : State), keeperHears s = true ∧ s.keep.lastReq = some (tag, cmd.toNat, crc) ∧ s.keep.waiting = none := ⟨9, 0x8000, 5, { up with keep := { up.keep with lastReq := some (9, 0x8000, 5) } }, by decide +kernel⟩

theorem wit_SidebandLine_other : ∃ (tag : Half) (cmd : Half) (crc : Half) (s : State), keeperHears s = true ∧ s.keep.lastReq ≠ some (tag, cmd.toNat, crc) := ⟨9, 0x8000, 5, up, by decide +kernel⟩

theorem wit_SidebandLine_rate : ∃ (s : State) (t : Nat), s.keep.baudAt = some t := ⟨{ up with keep := { up.keep with baudAt := some 31000000, baud := 3 } }, 31000000, by decide +kernel⟩

theorem wit_SidebandLine_firmware : ∃ (s : State) (d : Nat), s.keep.fwSwitchDue = some d ∧ s.keep.fwSwitchReq = none ∧ now s ≤ d := ⟨{ up with keep := { up.keep with fwSwitchDue := some 32000100, fwNewVer := 5 } }, 32000100, by decide +kernel⟩

theorem wit_PresenceAndKeeperWork_opens : ∃ (p : Pins) (s : State), keeperHears s = true ∧ (s.sess.winOpen = true → now s < s.sess.winEnd) ∧ p.pressed = true ∧ s.sess.released = true ∧ (reqCfg s = true → p.cfg = true) ∧ (reqSeal s = true → p.sealed = false) := ⟨{ pressed := true, cfg := true, sealed := false }, up, by decide +kernel⟩

theorem wit_PresenceAndKeeperWork_closes : ∃ (p : Pins) (s : State), s.sess.winOpen = true ∧ keeperHears s = true ∧ now s < s.sess.winEnd ∧ reqCfg s = true ∧ p.cfg = false := ⟨{}, win up, by decide +kernel⟩

theorem wit_PresenceAndKeeperWork_fails : ∃ (s : State), (s.md.mstate = .starting ∨ s.md.mstate = .run ∨ s.md.mstate = .quiet ∨ s.md.mstate = .safeHold) := ⟨up, by decide +kernel⟩

theorem wit_PresenceAndKeeperWork_mark : ∃ (s : State), s.pwr.inhibit = false ∧ s.time.tclkRun = true := ⟨{ up with time := { up.time with tbase := 4294967290 } }, by decide +kernel⟩

theorem wit_PresenceAndKeeperWork_bank : ∃ (r : Rails) (s : State), 2000 ≤ r.vlog.toNat ∧ s.pwr.onHu = false ∧ (s.md.mstate = .starting ∨ s.md.mstate = .run ∨ s.md.mstate = .quiet ∨ s.md.mstate = .safeHold) := ⟨{}, up, by decide +kernel⟩

theorem wit_RingsStartAndStop_starts : ∃ (r : Fin 128) (s : State), hostServed s = true ∧ (vget s.hp.rings r.val).en = false ∧ s.hp.qspi = false ∧ ringCheck s r.val = true := ⟨1, withHp { hostUp.hp with rings := vset hostUp.hp.rings 1 { log2 := 12, cpl := 64, base := 0x3000 } }, by decide +kernel⟩

theorem wit_RingsStartAndStop_fails : ∃ (r : Fin 128) (s : State), hostServed s = true ∧ (vget s.hp.rings r.val).en = false ∧ ringCheck s r.val = false := ⟨1, withHp { hostUp.hp with rings := vset hostUp.hp.rings 1 { log2 := 3, cpl := 64, base := 0x3000 } }, by decide +kernel⟩

theorem wit_RingsStartAndStop_disable : ∃ (r : Fin 128) (s : State), hostServed s = true ∧ (vget s.hp.rings r.val).en = true ∧ r.val < 64 := ⟨0, hostUp, by decide +kernel⟩

theorem wit_RingsStartAndStop_stopped : ∃ (r : Fin 128) (s : State), hostServed s = true ∧ (vget s.hp.rings r.val).en = false := ⟨1, hostUp, by decide +kernel⟩

theorem wit_RingsStartAndStop_inRange : ∃ (r : Fin 128) (v : Half) (s : State), hostServed s = true ∧ (vget s.hp.rings r.val).en = true ∧ r.val < 64 ∧ (v - (vget s.hp.rings r.val).head).toNat ≤ 2 ^ (vget s.hp.rings r.val).log2.toNat ∧ (v - (vget s.hp.rings r.val).tail).toNat ≤ 2 ^ (vget s.hp.rings r.val).log2.toNat := ⟨0, 16, hostUp, by decide +kernel⟩

theorem wit_RingsStartAndStop_outOfRange : ∃ (r : Fin 128) (v : Half) (s : State), hostServed s = true ∧ (vget s.hp.rings r.val).en = true ∧ r.val < 64 ∧ ¬((v - (vget s.hp.rings r.val).head).toNat ≤ 2 ^ (vget s.hp.rings r.val).log2.toNat ∧ (v - (vget s.hp.rings r.val).tail).toNat ≤ 2 ^ (vget s.hp.rings r.val).log2.toNat) := ⟨0, 17, hostUp, by decide +kernel⟩

theorem wit_RingsStartAndStop_completion : ∃ (r : Fin 128) (v : Half) (s : State), hostServed s = true ∧ (vget s.hp.rings r.val).en = true ∧ 64 ≤ r.val ∧ ((vget s.hp.rings r.val).tail - v).toNat ≤ ((vget s.hp.rings r.val).tail - (vget s.hp.rings r.val).head).toNat := ⟨64, 2, withHp { hostUp.hp with rings := vset hostUp.hp.rings 64 { en := true, log2 := 4, tail := 2 } }, by decide +kernel⟩

theorem wit_PortResetsAndPowerStates_qspi : ∃ (s : State), s.hp.qspi = true ∧ s.md.mstate ≠ .off ∧ s.hp.disabled = false := ⟨withHp { hostUp.hp with qspi := true }, by decide +kernel⟩

theorem wit_PortResetsAndPowerStates_pcie : ∃ (s : State), s.hp.qspi = false := ⟨hostUp, by decide +kernel⟩

theorem wit_HostRequestsWatchdogAndRegisters_commit : ∃ (v : Word) (s : State), hostServed s = true ∧ s.hp.wdogExpired = false ∧ (∀ i < 32, ¬((vget s.hp.streams i).open_ = true ∧ (vget s.hp.streams i).pull = true)) ∧ v.toNat % 65536 ≤ 60000 := ⟨500, hostUp, by decide +kernel⟩

theorem wit_HostRequestsWatchdogAndRegisters_ignored : ∃ (s : State), hostServed s = true ∧ s.hp.wdogExpired = true := ⟨withHp { hostUp.hp with wdogExpired := true }, by decide +kernel⟩

theorem wit_HostRequestsWatchdogAndRegisters_expires : ∃ (s : State), hostServed s = true ∧ s.hp.wdog ≠ 0 ∧ s.hp.wdogExpired = false := ⟨withHp { hostUp.hp with wdog := 5, wdogAt := 31990000 }, by decide +kernel⟩

theorem wit_HostRequestsWatchdogAndRegisters_stopped : ∃ (be : BitVec 4) (o : Nat) (r : Fin 128) (s : State), hostServed s = true ∧ s.hp.qspi = false ∧ (vget s.hp.rings r.val).en = false ∧ (be ≠ 15 ∨ o % 4 ≠ 0) ∧ s.hp.pba = 0 := ⟨3, 16, 1, hostUp, by decide +kernel⟩

theorem wit_HostRequestsWatchdogAndRegisters_active : ∃ (be : BitVec 4) (o : Nat) (r : Fin 128) (s : State), hostServed s = true ∧ s.hp.qspi = false ∧ (vget s.hp.rings r.val).en = true ∧ (be ≠ 15 ∨ o % 4 ≠ 0) := ⟨15, 17, 64, hostUp, by decide +kernel⟩

theorem wit_HostRequestsWatchdogAndRegisters_spi : ∃ (a : Nat) (s : State), hostServed s = true ∧ s.hp.qspi = true ∧ 0x10000 ≤ a ∧ a < 0x20000 ∧ a % 4 = 0 :=
  ⟨0x1FFFC, withHp { hostUp.hp with qspi := true }, by decide +kernel⟩

theorem wit_HostRequestsWatchdogAndRegisters_spiPart : ∃ (op : Byte) (a : Nat) (be : BitVec 4) (s : State), hostServed s = true ∧ s.hp.qspi = true ∧ op = 0xB2 ∧ a < 0x20000 ∧ be ≠ 15 :=
  ⟨0xB2, 0x410, 7, withHp { hostUp.hp with qspi := true }, by decide +kernel⟩

theorem wit_HostRequestsWatchdogAndRegisters_spiOther : ∃ (op : Byte) (s : State), hostServed s = true ∧ s.hp.qspi = true ∧ op ≠ 0xB2 :=
  ⟨0xB3, withHp { hostUp.hp with qspi := true }, by decide +kernel⟩

theorem wit_HostRequestsWatchdogAndRegisters_unserved : ∃ (s : State), hostServed s = false :=
  ⟨State.reset, by decide +kernel⟩

theorem wit_EntriesAreTakenInOrder_nothing : ∃ (r : Fin 64) (s : State), (vget s.hp.rings r.val).head = (vget s.hp.rings r.val).tail := ⟨0, hostUp, by decide +kernel⟩

theorem wit_EntriesAreTakenInOrder_taken : ∃ (r : Fin 64) (e : List Byte) (ib : List Byte) (c : Cls) (s : State), s.sup.sup = .serving ∧ dmaOn s = true ∧ s.hp.qspi = false ∧ (vget s.hp.rings r.val).en = true ∧ (vget s.hp.rings r.val).head ≠ (vget s.hp.rings r.val).tail ∧ stalled s r.val = false ∧ ringTurn s r.val = true ∧ baseCls (leAt (padTo 64 e) 0 2) (entryReq r (padTo 64 e) ib false) s = some c ∧ (∀ x ∈ s.sup.taken, x.isOf (entryReq r (padTo 64 e) ib false) = false) := ⟨0, leBytes 2 0x0402 ++ leBytes 2 77, [], .p0, withHp { hostUp.hp with rings := vset hostUp.hp.rings 0 { en := true, log2 := 4, cpl := 64, tail := 1 } }, by decide +kernel⟩

theorem wit_CompletionsAndEventsArePosted_posted : ∃ (c : Cpl) (s : State), dmaOn s = true ∧ s.hp.cpls.find? (fun c => (vget s.hp.rings c.ring).en && !(vget s.hp.rings c.ring).full) = some c ∧ c.ring < 128 ∧ c.restart = false := ⟨{ ring := 64, tag := 7, result := [1] }, withHp { hostUp.hp with cpls := [{ ring := 64, tag := 7, result := [1] }] }, by decide +kernel⟩

theorem wit_ResultLayouts_inline : ∃ (c : Cpl), c.src < 256 ∧ c.result.length ≤ 51 := ⟨{ src := 63, tag := 7, result := List.replicate 51 1 }, by decide +kernel⟩

theorem wit_CompletionsAndEventsArePosted_gone : ∃ (e : HEvent) (l : List HEvent) (s : State), dmaOn s = true ∧ s.hp.events = e :: l ∧ (e.ring.getD s.hp.evtRing.toNat) < 128 ∧ (vget s.hp.rings (e.ring.getD s.hp.evtRing.toNat)).en = false := ⟨{ kind := 3, tbase := 5 }, [], withHp { hostUp.hp with events := [{ kind := 3, tbase := 5 }], evtRing := 70 }, by decide +kernel⟩

theorem wit_CompletionsAndEventsArePosted_dropped : ∃ (e : HEvent) (l : List HEvent) (s : State), dmaOn s = true ∧ s.hp.events = e :: l ∧ (e.ring.getD s.hp.evtRing.toNat) < 128 ∧ (vget s.hp.rings (e.ring.getD s.hp.evtRing.toNat)).en = true ∧ (vget s.hp.rings (e.ring.getD s.hp.evtRing.toNat)).full = true ∧ e.kind ≠ 1 := ⟨{ kind := 3, tbase := 5 }, [], withHp { hostUp.hp with events := [{ kind := 3, tbase := 5 }], rings := vset hostUp.hp.rings 64 { en := true, log2 := 4, tail := 16 } }, by decide +kernel⟩

theorem wit_CompletionsAndEventsArePosted_waits : ∃ (e : HEvent) (l : List HEvent) (s : State), dmaOn s = true ∧ s.hp.events = e :: l ∧ (e.ring.getD s.hp.evtRing.toNat) < 128 ∧ (vget s.hp.rings (e.ring.getD s.hp.evtRing.toNat)).en = true ∧ (vget s.hp.rings (e.ring.getD s.hp.evtRing.toNat)).full = true ∧ e.kind = 1 ∧ l = [] := ⟨{ kind := 1 }, [], withHp { hostUp.hp with events := [{ kind := 1 }], rings := vset hostUp.hp.rings 64 { en := true, log2 := 4, tail := 16 } }, by decide +kernel⟩

theorem wit_CompletionsAndEventsArePosted_event : ∃ (e : HEvent) (l : List HEvent) (s : State), dmaOn s = true ∧ s.hp.events = e :: l ∧ (e.ring.getD s.hp.evtRing.toNat) < 128 ∧ (vget s.hp.rings (e.ring.getD s.hp.evtRing.toNat)).en = true ∧ (vget s.hp.rings (e.ring.getD s.hp.evtRing.toNat)).full = false := ⟨{ kind := 3, tbase := 5 }, [{}], withHp { hostUp.hp with events := [{ kind := 3, tbase := 5 }, {}] }, by decide +kernel⟩

theorem wit_CompletionsAndEventsArePosted_coalesced : ∃ (e : HEvent) (l : List HEvent) (s : State) (k : Fin 64), dmaOn s = true ∧ s.hp.events = e :: l ∧ (e.ring.getD s.hp.evtRing.toNat) < 128 ∧ (vget s.hp.rings (64 + k.val)).en = true ∧ (vget s.hp.rings (64 + k.val)).sinceIrq ≠ 0 ∧ (vget s.hp.rings (64 + k.val)).coalT ≠ 0 ∧ (vget s.hp.rings (64 + k.val)).coalCnt ≠ 0 ∧ s.hp.qspi = true := ⟨{ kind := 3, tbase := 5 }, [], withHp { hostUp.hp with events := [{ kind := 3, tbase := 5 }], qspi := true, rings := vset hostUp.hp.rings 66 { en := true, log2 := 4, sinceIrq := 2, coalT := 5, coalCnt := 9, vec := 3, firstAt := 31999999 } }, 2, by decide +kernel⟩

theorem wit_CompletionsAndEventsArePosted_masked : ∃ (k : Fin 64) (s : State), dmaOn s = true ∧ (vget s.hp.rings (64 + k.val)).en = true ∧ (vget s.hp.rings (64 + k.val)).sinceIrq ≠ 0 ∧ (vget s.hp.rings (64 + k.val)).coalT ≠ 0 ∧ (vget s.hp.rings (64 + k.val)).coalCnt ≠ 0 ∧ s.hp.qspi = false ∧ s.hp.ien = true ∧ s.hp.fmask = true :=
  ⟨2, withHp { hostUp.hp with ien := true, fmask := true, msix := vset hostUp.hp.msix 3 { addrLo := 0xFEE00000, data := 7, masked := false }, rings := vset hostUp.hp.rings 66 { en := true, log2 := 4, sinceIrq := 2, coalT := 5, coalCnt := 9, vec := 3, firstAt := 31999999 } }, by decide +kernel⟩

theorem wit_CompletionsAndEventsArePosted_interrupts : ∃ (k : Fin 64) (s : State), dmaOn s = true ∧ (vget s.hp.rings (64 + k.val)).en = true ∧ (vget s.hp.rings (64 + k.val)).sinceIrq ≠ 0 ∧ (vget s.hp.rings (64 + k.val)).coalT ≠ 0 ∧ (vget s.hp.rings (64 + k.val)).coalCnt ≠ 0 ∧ s.hp.qspi = false ∧ s.hp.ien = true ∧ s.hp.fmask = false ∧ (vget s.hp.msix (vget s.hp.rings (64 + k.val)).vec.toNat).masked = false :=
  ⟨2, withHp { hostUp.hp with ien := true, fmask := false, msix := vset hostUp.hp.msix 3 { addrLo := 0xFEE00000, data := 7, masked := false }, rings := vset hostUp.hp.rings 66 { en := true, log2 := 4, sinceIrq := 2, coalT := 5, coalCnt := 9, vec := 3, firstAt := 31999999 } }, by decide +kernel⟩

theorem wit_StreamRecords_push : ∃ (j : Fin 32) (b : List Byte) (s : State), (vget s.hp.streams j.val).inFlight = some b ∧ (vget s.hp.streams j.val).sflags.testBit 1 = false := ⟨5, [1, 2], withHp { hostUp.hp with streams := vset hostUp.hp.streams 5 { open_ := true, buf := 0x8000, nrec := 4, sprod := 5, ranges := [(0x2980, 2)], inFlight := some [1, 2] } }, by decide +kernel⟩

theorem wit_StreamRecords_accepted : ∃ (j : Fin 32) (ws : List Word) (s : State), (vget s.hp.streams j.val).reading = true ∧ dmaOn s = true ∧ s.hp.qspi = false ∧ s.hp.wdogExpired = false ∧ (vget s.hp.streams j.val).sflags.testBit 1 = false ∧ lget ws 0 0 = lget ws ((vget s.hp.streams j.val).cells.length + 1) 0 := ⟨5, [3, 9, 3], withHp { hostUp.hp with streams := vset hostUp.hp.streams 5 { open_ := true, pull := true, buf := 0x8000, ranges := [(0x2A00, 1)], reading := true } }, by decide +kernel⟩

theorem wit_StreamRecords_torn : ∃ (j : Fin 32) (ws : List Word) (s : State), (vget s.hp.streams j.val).reading = true ∧ dmaOn s = true ∧ s.hp.qspi = false ∧ (vget s.hp.streams j.val).sflags.testBit 2 = false ∧ lget ws 0 0 ≠ lget ws ((vget s.hp.streams j.val).cells.length + 1) 0 := ⟨5, [3, 9, 4], withHp { hostUp.hp with streams := vset hostUp.hp.streams 5 { open_ := true, pull := true, buf := 0x8000, ranges := [(0x2A00, 1)], reading := true } }, by decide +kernel⟩

theorem wit_StreamRecords_consumed : ∃ (j : Fin 32) (v : Word) (s : State), hostServed s = true ∧ (vget s.hp.streams j.val).open_ = true ∧ (vget s.hp.streams j.val).pull = false ∧ ((vget s.hp.streams j.val).sprod - v).toNat ≤ (vget s.hp.streams j.val).nrec := ⟨5, 5, withHp { hostUp.hp with streams := vset hostUp.hp.streams 5 { open_ := true, nrec := 4, sprod := 9 } }, by decide +kernel⟩

theorem wit_StreamRecords_error : ∃ (j : Fin 32) (s : State), (vget s.hp.streams j.val).open_ = true ∧ (vget s.hp.streams j.val).err = false := ⟨5, withHp { hostUp.hp with streams := vset hostUp.hp.streams 5 { open_ := true, pull := true, buf := 0x8000, ranges := [(0x2A00, 1)], reading := true } }, by decide +kernel⟩

theorem wit_RegisterReadsLatch_offset : ∃ (s : State), 0 ≤ s.xl.ofs ∧ s.xl.ofs < 2 ^ 63 := ⟨{ up with xl := { up.xl with ofs := 5000000000 } }, by decide +kernel⟩

theorem wit_RegisterReadsLatch_plain : ∃ (n : Fin 32) (s : State) (c : Chan), c = vget s.tmr.chans n.val ∧ s.tmr.link.getLsbD n.val = false := ⟨3, { up with tmr := { up.tmr with chans := vset up.tmr.chans 3 { cfg := 0x01080000, cnt := 5, cap := 3, capt := true } } }, { cfg := 0x01080000, cnt := 5, cap := 3, capt := true }, by decide +kernel⟩

theorem wit_RegisterReadsLatch_linked : ∃ (n : Fin 32) (s : State) (c : Chan), c = vget s.tmr.chans n.val ∧ s.tmr.link.getLsbD n.val = true := ⟨3, { up with tmr := { up.tmr with link := 8, chans := vset up.tmr.chans 3 { cfg := 0x01080000, cnt := 5, cap := 3, capt := true } } }, { cfg := 0x01080000, cnt := 5, cap := 3, capt := true }, by decide +kernel⟩

theorem wit_RegisterReadsLatch_capture : ∃ (n : Fin 32) (s : State) (c : Chan), c = vget s.tmr.chans n.val ∧ c.capsrc ≠ 0 := ⟨3, { up with tmr := { up.tmr with chans := vset up.tmr.chans 3 { cfg := 0x80000, cnt := 5 } } }, { cfg := 0x80000, cnt := 5 }, by decide +kernel⟩

theorem wit_ChannelWrites_free : ∃ (n : Fin 32) (s : State), (vget s.tmr.chans n.val).own = false ∧ s.time.tclkRun = true := ⟨3, up, by decide +kernel⟩

theorem wit_ChannelWrites_stopped : ∃ (n : Fin 32) (s : State), (vget s.tmr.chans n.val).own = false ∧ s.time.tclkRun = false := ⟨3, State.reset, by decide +kernel⟩

theorem wit_ChannelWrites_none : ∃ (n : Fin 32) (s : State), (vget s.tmr.chans n.val).own = true ∧ s.sess.owner = none := ⟨3, { up with tmr := { up.tmr with chans := vset up.tmr.chans 3 { cfg := 0x04000000 } } }, by decide +kernel⟩

theorem wit_ChannelWrites_session : ∃ (n : Fin 32) (s : State), (vget s.tmr.chans n.val).own = true ∧ s.sess.owner ≠ none := ⟨3, { { up with tmr := { up.tmr with chans := vset up.tmr.chans 3 { cfg := 0x04000000 } } } with sess := (sess2 up).sess }, by decide +kernel⟩

theorem wit_ChannelsMatchWrapAndCapture_match : ∃ (n : Fin 32) (s : State), s.time.tclkRun = true ∧ (vget s.tmr.chans n.val).clk = 0 ∧ (vget s.tmr.chans n.val).smode = 0 ∧ (vget s.tmr.chans n.val).en = true ∧ (vget s.tmr.chans n.val).arm = true ∧ (vget s.tmr.chans n.val).passed = false ∧ (vget s.tmr.chans n.val).pre.toNat < 2 ^ 47 := ⟨3, { up with tmr := { up.tmr with chans := vset up.tmr.chans 3 { cfg := 0x01000000, cnt := 5, cmp := 9, pre := 4, arm := true } } }, by decide +kernel⟩

theorem wit_ChannelsMatchWrapAndCapture_wrap : ∃ (n : Fin 32) (s : State), s.time.tclkRun = true ∧ (vget s.tmr.chans n.val).clk = 0 ∧ (vget s.tmr.chans n.val).smode = 0 ∧ (vget s.tmr.chans n.val).en = true ∧ (vget s.tmr.chans n.val).arm = false := ⟨3, { up with tmr := { up.tmr with chans := vset up.tmr.chans 3 { cfg := 0x01000000, cnt := 0xFFFFFFFFFFFE } } }, by decide +kernel⟩

theorem wit_ChannelsMatchWrapAndCapture_capture : ∃ (n : Fin 32) (s : State), s.time.tclkRun = true ∧ (vget s.tmr.chans n.val).clk = 0 ∧ (vget s.tmr.chans n.val).smode = 0 ∧ (vget s.tmr.chans n.val).en = true ∧ (vget s.tmr.chans n.val).capsrc ≠ 0 := ⟨3, { up with tmr := { up.tmr with chans := vset up.tmr.chans 3 { cfg := 0x01080000, cnt := 5 } } }, by decide +kernel⟩

theorem wit_EveryCommandCompletesAndTimePasses_past : ∃ (t : Nat) (s : State), s.time.tclkRun = true ∧ t ≤ s.time.tbase := ⟨5, up, by decide +kernel⟩

theorem wit_EveryCommandCompletesAndTimePasses_ahead : ∃ (t : Nat) (s : State), s.time.tclkRun = true ∧ s.time.tbase ≤ t ∧ t < 2 ^ 64 := ⟨32000009, up, by decide +kernel⟩

theorem wit_EveryCommandCompletesAndTimePasses_queue : ∃ (c : Instr) (s : State), s.pending = [c] :=
  ⟨.hrst, { up with pending := [.hrst] }, by decide +kernel⟩

theorem wit_CyclesBeginAndCommit_next : ∃ (s : State), cyclesRun s = true ∧ s.cyc.open_ = false ∧ s.cyc.p3Due = false ∧ s.time.tclkRun = true := ⟨runs, by decide +kernel⟩

theorem wit_CyclesBeginAndCommit_commits : ∃ (s : State), cyclesRun s = true ∧ s.cyc.open_ = true := ⟨cycOpen, by decide +kernel⟩

theorem wit_CyclesBeginAndCommit_ends : ∃ (s : State), cyclesRun s = true ∧ s.cyc.p3Due = true ∧ (laneIn s .prism).isNone = true := ⟨p3, by decide +kernel⟩

theorem wit_CyclesBeginAndCommit_notDue : ∃ (s : State), s.cyc.open_ = false ∧ s.cyc.p3Due = false := ⟨runs, by decide +kernel⟩

theorem wit_SafeHoldCommitsOutputsZero_point : ∃ (s : State) (e : OwnE), cyclesRun s = true ∧ s.cyc.open_ = true ∧ s.md.mstate = .safeHold ∧ ((∀ m ∈ s.files, Mem.wf 0 m = true)) ∧ Mem.wf 0 s.cyc.committed = true ∧ s.lane.orphan = [] ∧ laneIn s .prism = none ∧ e ∈ (s.image.getD {}).own ∧ e.owner < 4 ∧ isOutPoint e.cell = true := ⟨{ inSt .safeHold cycOpen with image := some img0 }, { cell := 0x4000, owner := 0 }, by decide +kernel⟩

theorem wit_RunsOfLogicalLanes_first : ∃ (j : Fin 5) (k : Nat) (s : State), (llOf s j.val).lane = some k ∧ ((llOf s j.val).st = .first ∨ (llOf s j.val).st = .rerun) ∧ (llRun s [] j.val).mis = none := ⟨1, 2, { cycOpen with lane := { up.lane with lanes := vset up.lane.lanes 2 { role := .safety, hosts := some 1 }, lls := vset up.lane.lls 1 { lane := some 2, st := .first } } }, by decide +kernel⟩

theorem wit_RunsOfLogicalLanes_firstMis : ∃ (j : Fin 5) (k : Nat) (s : State), (llOf s j.val).lane = some k ∧ (llOf s j.val).st = .first := ⟨1, 2, { cycOpen with lane := { up.lane with lanes := vset up.lane.lanes 2 { role := .safety, hosts := some 1 }, lls := vset up.lane.lls 1 { lane := some 2, st := .first } } }, by decide +kernel⟩

theorem wit_RunsOfLogicalLanes_rerun : ∃ (j : Fin 5) (k : Nat) (s : State), (llOf s j.val).lane = some k ∧ ((llOf s j.val).st = .first ∨ (llOf s j.val).st = .rerun) ∧ (llRun s [] j.val).mis = none := ⟨1, 2, { cycOpen with lane := { up.lane with lanes := vset up.lane.lanes 2 { role := .safety, hosts := some 1 }, lls := vset up.lane.lls 1 { lane := some 2, st := .rerun } } }, by decide +kernel⟩

theorem wit_RunsOfLogicalLanes_rerunMis : ∃ (j : Fin 5) (k : Nat) (s : State), (llOf s j.val).lane = some k ∧ (llOf s j.val).st = .rerun := ⟨1, 2, { cycOpen with lane := { up.lane with lanes := vset up.lane.lanes 2 { role := .safety, hosts := some 1 }, lls := vset up.lane.lls 1 { lane := some 2, st := .rerun } } }, by decide +kernel⟩

theorem wit_RunsOfLogicalLanes_agreed : ∃ (j : Fin 5) (k : Nat) (s : State), (llOf s j.val).lane = some k ∧ (llOf s j.val).st = .agreed := ⟨1, 2, { cycOpen with lane := { up.lane with lanes := vset up.lane.lanes 2 { role := .safety, hosts := some 1 }, lls := vset up.lane.lls 1 { lane := some 2, st := .agreed } } }, by decide +kernel⟩

theorem wit_RunsOfLogicalLanes_wake : ∃ (s : State) (i : Nat) (j : Nat), s.cyc.running = true ∧ s.pwr.lclkLock = true ∧ i < 5 ∧ (laneOf s i).role ∈ [LaneRole.spare, .safety, .observer, .prism] ∧ j < 5 ∧ (laneOf s j).role ∉ [LaneRole.spare, .safety, .observer, .prism] := ⟨{ cycOpen with lane := { up.lane with lanes := vset up.lane.lanes 2 { role := .safety, hosts := some 1 }, lls := vset up.lane.lls 1 { lane := some 2, st := .first } } }, 2, 4, by decide +kernel⟩

theorem wit_RunsOfLogicalLanes_checker : ∃ (k : Fin 5) (s : State) (i : Nat), (laneOf s k.val).role = .safety ∧ (laneOf s k.val).hosts = some i ∧ s.cyc.open_ = true ∧ (llOf s i).st = .first ∧ i < 5 := ⟨2, { cycOpen with lane := { up.lane with lanes := vset up.lane.lanes 2 { role := .safety, hosts := some 1 }, lls := vset up.lane.lls 1 { lane := some 2, st := .first } } }, 1, by decide +kernel⟩

theorem wit_RunsOfLogicalLanes_firstFound : ∃ (j : Fin 5) (l : List Hit) (k : Nat) (s : State) (m : Mis), (llOf s j.val).lane = some k ∧ (llOf s j.val).st = .first ∧ (llRun s l j.val).mis = some m :=
  ⟨1, [{ mirror := true, inst := 0x38 }], 2, { cycOpen with lane := { up.lane with lanes := vset up.lane.lanes 2 { role := .safety, hosts := some 1 }, lls := vset up.lane.lls 1 { lane := some 2, st := .first, graph := { present := true, blocks := [{ nodes := [0#64] }] } } } }, { field := 7 }, by decide +kernel⟩

theorem wit_RunsOfLogicalLanes_rerunFound : ∃ (j : Fin 5) (l : List Hit) (k : Nat) (s : State) (m : Mis), (llOf s j.val).lane = some k ∧ (llOf s j.val).st = .rerun ∧ (llRun s l j.val).mis = some m :=
  ⟨1, [{ mirror := true, inst := 0x38 }], 2, { cycOpen with lane := { up.lane with lanes := vset up.lane.lanes 2 { role := .safety, hosts := some 1 }, lls := vset up.lane.lls 1 { lane := some 2, st := .rerun, graph := { present := true, blocks := [{ nodes := [0#64] }] } } } }, { field := 7 }, by decide +kernel⟩

theorem wit_OutputGuard_trips : ∃ (s : State), s.cyc.guard.resync = false ∧ masterHeld s = false := ⟨{ cycOpen with cyc := { cycOpen.cyc with guard := { resync := false, run := 5 } } }, by decide +kernel⟩

theorem wit_OutputGuard_held : ∃ (s : State), s.cyc.guard.resync = false ∧ masterHeld s = true := ⟨{ inSt .safeHold cycOpen with cyc := { cycOpen.cyc with guard := { resync := false, run := 5 } } }, by decide +kernel⟩

theorem wit_LaneTestsAndRotation_bist : ∃ (k : Fin 5) (s : State), s.md.mstate ≠ .shuttingDown ∧ (laneOf s k.val).role = .bist ∧ laneFaults s k.val < 2 := ⟨3, { up with lane := { up.lane with lanes := vset up.lane.lanes 3 { role := .bist, faults := [31000000] } } }, by decide +kernel⟩

theorem wit_LaneTestsAndRotation_rotation : ∃ (s : State), s.lane.rotPeriodH ≠ 0 ∧ s.time.tclkRun = true ∧ s.lane.rotSince + hourTicks s.lane.rotPeriodH.toNat < 2 ^ 64 := ⟨{ up with lane := { up.lane with rotPeriodH := 1 } }, by decide +kernel⟩

theorem wit_LaneTestsAndRotation_observer : ∃ (s : State) (j : Nat), (llOf s 4).lane = some j ∧ j < 5 ∧ s.lane.qual.state = 1 ∧ s.lane.rotDue = true := ⟨{ up with lane := { up.lane with lanes := vset up.lane.lanes 3 { role := .observer, hosts := some 4 }, lls := vset up.lane.lls 4 { lane := some 3 }, qual := { state := 1 }, rotDue := true } }, 3, by decide +kernel⟩

theorem wit_LaneTestsAndRotation_shutDown : ∃ (k : Fin 5) (s : State), s.md.mstate = .shuttingDown ∧ s.md.shutBist = true ∧ (laneOf s k.val).role ≠ .retired :=
  ⟨3, { up with md := { up.md with mstate := .shuttingDown, shutBist := true }, lane := { up.lane with lanes := vset up.lane.lanes 3 { role := .bist } } }, by decide +kernel⟩

theorem wit_LaneTestsAndRotation_secondFault : ∃ (k : Fin 5) (s : State), 2 ≤ laneFaults s k.val ∧ s.md.mstate ≠ .shuttingDown ∧ (laneOf s k.val).role = .bist ∧ (laneOf s k.val).newUcode = none :=
  ⟨3, { up with lane := { up.lane with lanes := vset up.lane.lanes 3 { role := .bist, faults := [31000000, 31500000] } } }, by decide +kernel⟩

theorem wit_LaneTestsAndRotation_newUcode : ∃ (k : Fin 5) (s : State) (v : Byte), s.md.mstate ≠ .shuttingDown ∧ ((laneOf s k.val).role = .bist ∨ (laneOf s k.val).role = .ucodeLoad) ∧ (laneOf s k.val).newUcode = some v ∧ laneFaults s k.val < 2 ∧ (laneOf s k.val).reload = false :=
  ⟨3, { up with lane := { up.lane with lanes := vset up.lane.lanes 3 { role := .bist, newUcode := some 5, ucodeVer := 4 } } }, 5, by decide +kernel⟩

theorem wit_LaneTestsAndRotation_reload : ∃ (k : Fin 5) (s : State) (v : Byte), s.md.mstate ≠ .shuttingDown ∧ ((laneOf s k.val).role = .bist ∨ (laneOf s k.val).role = .ucodeLoad) ∧ (laneOf s k.val).newUcode = some v ∧ laneFaults s k.val < 2 ∧ (laneOf s k.val).reload = true :=
  ⟨3, { up with keep := { up.keep with targetUcode := 5 }, lane := { up.lane with roll := some 5, lanes := vset up.lane.lanes 3 { role := .bist, newUcode := some 4, ucodeVer := 4, reload := true } } }, 4, by decide +kernel⟩

theorem wit_QuietWakeAndRestart_wake : ∃ (pll : Byte) (s : State), s.md.mstate = .quiet ∧ s.pwr.lclkLock = false ∧ s.cyc.running = true ∧ s.pwr.xoOk = true ∧ pll.toNat ≤ 127 ∧ s.time.tclkRun = false := ⟨127, asleep, by decide +kernel⟩

theorem wit_QuietWakeAndRestart_restart : ∃ (wait : Half) (s : State) (f : Nat), s.time.tclkRun = false ∧ s.time.fllAt = some f ∧ s.time.phase ≤ 31 ∧ (s.time.capTbase - s.time.capPhase + 32 * (s.time.sclk + wait.toNat + 1 - s.time.capSclk)) % 2 ^ 64 < s.cyc.nextT0 := ⟨99, asleep, 1000, by decide +kernel⟩

theorem wit_QuietWakeAndRestart_earlier : ∃ (s : State) (d : Nat), s.time.tclkRun = false ∧ s.time.phase ≤ 31 ∧ s.md.mstate = .quiet ∧ nextWake s = some d ∧ max (now s) (s.time.capTbase + d) + 1000 < s.cyc.nextT0 := ⟨{ asleep with tmr := { asleep.tmr with chans := vset asleep.tmr.chans 3 { cfg := 0x01040000, cmp := 50000, pre := 0, arm := true } } }, 50000, by decide +kernel⟩

theorem wit_ClockFaults_lclkLost : ∃ (s : State), s.cyc.open_ = false ∧ s.pwr.lclkLock = true := ⟨runs, by decide +kernel⟩

theorem wit_ClockFaults_relock : ∃ (s : State), s.pwr.xoOk = true ∧ s.md.mstate ≠ .fault := ⟨runs, by decide +kernel⟩

theorem wit_ClockFaults_fll : ∃ (s : State), s.time.tclkRun = true ∧ s.cyc.open_ = false := ⟨runs, by decide +kernel⟩

theorem wit_ClockFaults_xoRestart : ∃ (s : State), s.pwr.xoOk = false ∧ corePowered s = true ∧ s.sup.sup = .halted := ⟨{ up with pwr := { up.pwr with xoOk := false }, sup := { sup := .halted } }, by decide +kernel⟩

theorem wit_ClockFaults_sclk : ∃ (s : State), (s.md.mstate = .starting ∨ s.md.mstate = .run ∨ s.md.mstate = .quiet ∨ s.md.mstate = .safeHold) := ⟨inSt .quiet, by decide +kernel⟩

theorem wit_SupervisorStates_stop : ∃ (s : State), s.sup.sup = .serving ∧ s.pwr.supLock = true := ⟨up, by decide +kernel⟩

theorem wit_SupervisorStates_serves : ∃ (s : State), s.sup.sup ≠ .serving ∧ supRuns s = true := ⟨{ up with sup := { sup := .restarting } }, by decide +kernel⟩

theorem wit_SupervisorStates_timeout : ∃ (s : State) (d : Nat), s.sup.switchDue = some d := ⟨{ up with sup := { sup := .updating, switchDue := some 40000000 } }, 40000000, by decide +kernel⟩

theorem wit_SupervisorStates_idle : ∃ (s : State), s.md.mstate = .quiet ∧ s.sup.sup = .serving ∧ s.sup.taken = [] ∧ s.pwr.supLock = true := ⟨inSt .quiet, by decide +kernel⟩

theorem wit_SupervisorStates_off : ∃ (s : State), s.pwr.supPllOff = true := ⟨{ inSt .quiet with pwr := { up.pwr with supPllOff := true, supLock := false } }, by decide +kernel⟩

theorem wit_SupervisorStates_relock : ∃ (s : State), s.pwr.supLock = false ∧ s.pwr.xoOk = true ∧ s.sup.sup = .halted := ⟨{ up with pwr := { up.pwr with supLock := false }, sup := { sup := .halted } }, by decide +kernel⟩

theorem wit_MonitorSamplesAndUnits_unused : ∃ (n : Fin 16) (s : State), (vget s.mm.mons n.val).used = false := ⟨3, runs, by decide +kernel⟩

theorem wit_MonitorSamplesAndUnits_used : ∃ (n : Fin 16) (s : State), (vget s.mm.mons n.val).used = true := ⟨3, { runs with mm := { up.mm with mons := vset up.mm.mons 3 { used := true } } }, by decide +kernel⟩

theorem wit_MonitorSamplesAndUnits_rotation : ∃ (u : Fin 18) (n : Fin 16) (s : State), s.mm.periodH ≠ 0 ∧ ((∀ i < 16, (vget s.mm.mons i).shadow = none)) ∧ spareUnit s = some u.val ∧ nextUnit s = some (17 - u.val) ∧ (vget s.mm.units (17 - u.val)).hosts = some n.val := ⟨9, 3, { runs with mm := { up.mm with periodH := 1, mons := vset up.mm.mons 3 { used := true, unit := some 8 }, units := vset (vset up.mm.units 9 { role := .spare }) 8 { role := .active, hosts := some 3 } } }, by decide +kernel⟩

theorem wit_MonitorSamplesAndUnits_bist : ∃ (u : Fin 18) (s : State), (vget s.mm.units u.val).role = .bist ∧ s.md.mstate ≠ .shuttingDown ∧ unitFaults s u.val < 2 ∧ s.mm.due = false := ⟨17, { runs with mm := { up.mm with units := vset up.mm.units 17 { role := .bist, faults := [5] } } }, by decide +kernel⟩

theorem wit_MonitorSamplesAndUnits_cured : ∃ (n : Fin 16) (f : UnitFault) (s : State), (vget s.mm.mons n.val).used = true ∧ (vget s.mm.mons n.val).unit = some f.unit.val ∧ f.word < 25 ∧ f.first ≠ 0 ∧ f.again = 0 :=
  ⟨3, { unit := 8, word := 24, first := 0x100 }, { runs with mm := { up.mm with mons := vset up.mm.mons 3 { used := true, unit := some 8 }, units := vset up.mm.units 8 { role := .active, hosts := some 3 } } }, by decide +kernel⟩

theorem wit_MonitorSamplesAndUnits_mismatch : ∃ (n : Fin 16) (f : UnitFault) (s : State), (vget s.mm.mons n.val).used = true ∧ (vget s.mm.mons n.val).unit = some f.unit.val ∧ f.word < 25 ∧ f.first ≠ 0 ∧ f.again ≠ 0 :=
  ⟨3, { unit := 8, word := 0, first := 1, again := 1 }, { runs with mm := { up.mm with mons := vset up.mm.mons 3 { used := true, unit := some 8 }, units := vset up.mm.units 8 { role := .active, hosts := some 3 } } }, by decide +kernel⟩

theorem wit_MonitorSamplesAndUnits_secondFault : ∃ (u : Fin 18) (s : State), (vget s.mm.units u.val).role = .bist ∧ s.md.mstate ≠ .shuttingDown ∧ s.mm.due = false ∧ 2 ≤ unitFaults s u.val :=
  ⟨17, { runs with mm := { up.mm with units := vset up.mm.units 17 { role := .bist, faults := [31000000, 31500000] } } }, by decide +kernel⟩

theorem wit_MonitorSamplesAndUnits_shutDown : ∃ (u : Fin 18) (s : State), s.md.mstate = .shuttingDown ∧ s.md.shutBist = true ∧ (vget s.mm.units u.val).role ≠ .retired :=
  ⟨0, { up with md := { up.md with mstate := .shuttingDown, shutBist := true }, mm := { up.mm with units := vset up.mm.units 0 { role := .bist } } }, by decide +kernel⟩

theorem wit_LocalInputs_edge : ∃ (k : Fin 8) (level : Bool) (s : State), s.time.tclkRun = true ∧ (vget s.inp.cis k.val).lvl ≠ level ∧ bandOf s (grpCi k.val) ≠ 3 := ⟨7, true, up, by decide +kernel⟩

theorem wit_LocalInputs_qualityReturns : ∃ (k : Fin 8) (s : State) (e : Nat), (vget s.inp.cis k.val).ends.min? = some e ∧ s.time.tclkRun = true ∧ e < 2 ^ 64 ∧ (vget s.inp.cis k.val).rate = true ∧ (vget s.inp.cis k.val).indet = true :=
  ⟨7, { runs with inp := { up.inp with cis := vset up.inp.cis 7 { rate := true, indet := true, rateAt := 31990000, indetAt := 31995000 } } }, 32150000, by decide +kernel⟩

theorem wit_LocalInputs_accepted : ∃ (n : Fin 32) (m : Meas) (a b : Nat) (s : State), (vget s.inp.inps n.val).used = true ∧ (vget s.inp.inps n.val).run = none ∧ (vget s.inp.inps n.val).srcBad = false ∧ inpCut s n.val (vget s.inp.inps n.val) = false ∧ s.time.tclkRun = true ∧ now s ≤ a ∧ a ≤ b ∧ b < 2 ^ 64 ∧ (vget s.inp.inps n.val).sampled ≤ a ∧ (s.cyc.running = false ∨ b < s.cyc.nextT0) ∧ (vget s.inp.inps n.val).win = none ∧ (vget s.inp.inps n.val).fband = some .off ∧ (vget s.inp.inps n.val).bandOf m = .on ∧ a + (vget s.inp.inps n.val).tf ≤ b ∧ (vget s.inp.inps n.val).e = true :=
  ⟨31, { v := 24000, i := 8000, src := 24000 }, 32000000, 32001600, { runs with cyc := { runs.cyc with nextT0 := 40000000 }, inp := { up.inp with inps := vset up.inp.inps 31 { used := true, src := 0x11, filt := 1, fband := some .off, e := true } } }, by decide +kernel⟩

theorem wit_LocalInputs_short : ∃ (n : Fin 32) (m : Meas) (a b : Nat) (s : State), (vget s.inp.inps n.val).used = true ∧ (vget s.inp.inps n.val).run = none ∧ (vget s.inp.inps n.val).srcBad = false ∧ inpCut s n.val (vget s.inp.inps n.val) = false ∧ s.time.tclkRun = true ∧ now s ≤ a ∧ a ≤ b ∧ b < 2 ^ 64 ∧ (vget s.inp.inps n.val).sampled ≤ a ∧ (s.cyc.running = false ∨ b < s.cyc.nextT0) ∧ (vget s.inp.inps n.val).win = none ∧ (vget s.inp.inps n.val).fband ≠ some ((vget s.inp.inps n.val).bandOf m) ∧ b < a + (vget s.inp.inps n.val).tf :=
  ⟨31, { v := 24000, i := 8000, src := 24000 }, 32000000, 32001599, { runs with cyc := { runs.cyc with nextT0 := 40000000 }, inp := { up.inp with inps := vset up.inp.inps 31 { used := true, src := 0x11, filt := 1, fband := some .off } } }, by decide +kernel⟩

theorem wit_LocalInputs_firstBand : ∃ (n : Fin 32) (a b : Nat) (s : State), (vget s.inp.inps n.val).used = true ∧ (vget s.inp.inps n.val).run = none ∧ (vget s.inp.inps n.val).srcBad = false ∧ inpCut s n.val (vget s.inp.inps n.val) = false ∧ s.time.tclkRun = true ∧ now s ≤ a ∧ a ≤ b ∧ b < 2 ^ 64 ∧ (vget s.inp.inps n.val).sampled ≤ a ∧ (s.cyc.running = false ∨ b < s.cyc.nextT0) ∧ (vget s.inp.inps n.val).win = none ∧ (vget s.inp.inps n.val).fband = none ∧ a + (vget s.inp.inps n.val).tf ≤ b :=
  ⟨31, 32000000, 32100000, { runs with cyc := { runs.cyc with nextT0 := 40000000 }, inp := { up.inp with inps := vset up.inp.inps 31 { used := true, src := 0x11, comp := true, compAt := 31000000 } } }, by decide +kernel⟩

theorem wit_LocalInputs_window : ∃ (n : Fin 32) (a b : Nat) (s : State), (vget s.inp.inps n.val).used = true ∧ (vget s.inp.inps n.val).run = none ∧ (vget s.inp.inps n.val).srcBad = false ∧ inpCut s n.val (vget s.inp.inps n.val) = false ∧ s.time.tclkRun = true ∧ now s ≤ a ∧ a ≤ b ∧ b < 2 ^ 64 ∧ (vget s.inp.inps n.val).sampled ≤ a ∧ (s.cyc.running = false ∨ b < s.cyc.nextT0) ∧ (vget s.inp.inps n.val).win.isSome = true :=
  ⟨31, 32000000, 32100000, { runs with cyc := { runs.cyc with nextT0 := 40000000 }, inp := { up.inp with inps := vset up.inp.inps 31 { used := true, src := 0x11, fband := some .off, win := some 31999000 } } }, by decide +kernel⟩

theorem wit_RawBandsByMeasurement_measured : ∃ (m : Meas), 0 < m.src ∧ 450 * m.src ≤ m.i * 24000 ∧ m.i * 24000 ≤ 1400 * m.src := ⟨{ v := 3000, i := 600, src := 24000 }, by decide +kernel⟩

theorem wit_TestPulsesAndCalibration_start : ∃ (k : Fin 16) (s : State) (i : Nat), pulsing s k.val = true ∧ (vget s.out.tos k.val).dark = false ∧ i < 32 ∧ (vget s.inp.inps i).used = true ∧ (vget s.inp.inps i).src.toNat = k.val ∧ bandOf s (grpIn i) ≤ 1 := ⟨5, { up with out := { up.out with tos := vset up.out.tos 5 { width := 100 } }, inp := { up.inp with inps := vset up.inp.inps 7 { used := true, src := 5 } } }, 7, by decide +kernel⟩

theorem wit_TestPulsesAndCalibration_windowEnd : ∃ (k : Fin 16) (low : Bool) (s : State) (i : Nat), (vget s.out.tos k.val).dark = true ∧ low = false ∧ 1 ≤ (vget s.out.tos k.val).miss ∧ i < 32 ∧ (vget s.inp.inps i).used = true ∧ (vget s.inp.inps i).src.toNat = k.val := ⟨5, false, { up with out := { up.out with tos := vset up.out.tos 5 { width := 100, dark := true, miss := 1 } }, inp := { up.inp with inps := vset up.inp.inps 7 { used := true, src := 5 } } }, 7, by decide +kernel⟩

theorem wit_TestPulsesAndCalibration_missed : ∃ (k : Fin 16) (obs : List PulseObs) (i : Fin 32) (p : PulseObs) (s : State), (vget s.out.tos k.val).dark = true ∧ obs.find? (fun q => q.inp.val == i.val) = some p ∧ (vget s.inp.inps i.val).used = true ∧ (vget s.inp.inps i.val).src.toNat = k.val ∧ (vget s.inp.inps i.val).win.isSome = true ∧ bandOf s (grpIn i.val) ≤ 1 ∧ (vget s.inp.inps i.val).judged = true ∧ (vget s.inp.inps i.val).grace = 0 ∧ (vget s.out.tos k.val).grace = 0 ∧ (vget s.inp.inps i.val).sees p.dip = false ∧ 1 ≤ (vget s.inp.inps i.val).missRow :=
  ⟨5, [{ inp := 7, dip := { off := 319 } }], 7, { inp := 7, dip := { off := 319 } }, { runs with out := { up.out with tos := vset up.out.tos 5 { width := 500, dark := true, darkAt := 31990000, miss := 1 } }, inp := { up.inp with inps := vset up.inp.inps 7 { used := true, src := 5, win := some 31990000, before := .on, missRow := 1 } } }, by decide +kernel⟩

theorem wit_TestPulsesAndCalibration_seen : ∃ (k : Fin 16) (obs : List PulseObs) (i : Fin 32) (p : PulseObs) (s : State), (vget s.out.tos k.val).dark = true ∧ obs.find? (fun q => q.inp.val == i.val) = some p ∧ (vget s.inp.inps i.val).used = true ∧ (vget s.inp.inps i.val).src.toNat = k.val ∧ (vget s.inp.inps i.val).win.isSome = true ∧ bandOf s (grpIn i.val) ≤ 1 ∧ (vget s.inp.inps i.val).judged = true ∧ (vget s.inp.inps i.val).grace = 0 ∧ (vget s.out.tos k.val).grace = 0 ∧ (vget s.inp.inps i.val).sees p.dip = true ∧ 1 ≤ (vget s.inp.inps i.val).seenRow ∧ (vget s.inp.inps i.val).missing = true :=
  ⟨5, [{ inp := 7, dip := { off := 320 } }], 7, { inp := 7, dip := { off := 320 } }, { runs with out := { up.out with tos := vset up.out.tos 5 { width := 500, dark := true, darkAt := 31990000, miss := 1 } }, inp := { up.inp with inps := vset up.inp.inps 7 { used := true, src := 5, win := some 31990000, before := .on, seenRow := 1, missing := true } } }, by decide +kernel⟩

theorem wit_TestPulsesAndCalibration_foreign : ∃ (k : Fin 16) (foreign : List Drop) (i : Fin 32) (s : State), (vget s.out.tos k.val).dark = true ∧ (vget s.inp.inps i.val).src.toNat ≠ k.val ∧ (vget s.inp.inps i.val).win = none ∧ pulseChecked s i.val (vget s.inp.inps i.val) = true ∧ (vget s.inp.inps i.val).judged = true ∧ (foreign.any fun d => d.inp.val == i.val && (vget s.inp.inps i.val).foreignDrop (vget s.out.tos k.val).width.toNat d) = true ∧ (vget s.inp.inps i.val).foreign.getLsbD k.val = true :=
  ⟨4, [{ inp := 7, start := 7999, back := some 8160, dip := { off := 320 } }], 7, { runs with out := { up.out with tos := vset (vset up.out.tos 5 { width := 300 }) 4 { width := 500, dark := true, darkAt := 31990000 } }, inp := { up.inp with inps := vset up.inp.inps 7 { used := true, src := 5, before := .on, foreign := 0x10 } } }, by decide +kernel⟩

theorem wit_TestPulsesAndCalibration_cal0 : ∃ (c : CalCheck) (s : State), s.inp.calNext < 32 ∧ (calDev (vget s.inp.inps s.inp.calNext) c).natAbs = 0 :=
  ⟨{ own := 8000, ref := 8000 }, { runs with inp := { up.inp with calNext := 31, inps := vset up.inp.inps 31 { used := true } } }, by decide +kernel⟩

theorem wit_TestPulsesAndCalibration_cal50 : ∃ (c : CalCheck) (s : State), s.inp.calNext < 32 ∧ (calDev (vget s.inp.inps s.inp.calNext) c).natAbs = 50 :=
  ⟨{ own := 8000, ref := 8050 }, { runs with inp := { up.inp with calNext := 31, inps := vset up.inp.inps 31 { used := true } } }, by decide +kernel⟩

theorem wit_TestPulsesAndCalibration_cal51 : ∃ (c : CalCheck) (s : State), s.inp.calNext < 32 ∧ (calDev (vget s.inp.inps s.inp.calNext) c).natAbs = 51 :=
  ⟨{ own := 8000, ref := 8051 }, { runs with inp := { up.inp with calNext := 31, inps := vset up.inp.inps 31 { used := true } } }, by decide +kernel⟩

theorem wit_TestPulsesAndCalibration_cal150 : ∃ (c : CalCheck) (s : State), s.inp.calNext < 32 ∧ (calDev (vget s.inp.inps s.inp.calNext) c).natAbs = 150 :=
  ⟨{ own := 8000, ref := 8150 }, { runs with inp := { up.inp with calNext := 31, inps := vset up.inp.inps 31 { used := true } } }, by decide +kernel⟩

theorem wit_TestPulsesAndCalibration_cal151 : ∃ (c : CalCheck) (s : State), s.inp.calNext < 32 ∧ (calDev (vget s.inp.inps s.inp.calNext) c).natAbs = 151 :=
  ⟨{ own := 8000, ref := 8151 }, { runs with inp := { up.inp with calNext := 31, inps := vset up.inp.inps 31 { used := true } } }, by decide +kernel⟩

theorem wit_OutputProtection_overload : ∃ (n : Fin 20) (s : State), 8 ∉ (vget s.out.outs n.val).latched := ⟨19, up, by decide +kernel⟩

theorem wit_OutputProtection_energised : ∃ (n : Fin 20) (s : State), energised s n.val = true := ⟨19, { up with out := { up.out with outs := vset up.out.outs 19 { used := true, cmd := true, ch := true }, grps := vset up.out.grps 1 { master := true } } }, by decide +kernel⟩

theorem wit_OutputProtection_short : ∃ (n : Fin 20) (coil : Nat) (s : State), (vget s.out.outs n.val).cmd = false ∧ bandOf s (grpOut n.val) ≤ 1 ∧ pairedOff s n.val = true ∧ (n.val < 16 ∨ 50 ≤ coil) ∧ s.out.ident = [] ∧ (vget s.out.outs n.val).latched = [] := ⟨19, 50, { up with out := { up.out with outs := vset up.out.outs 19 { used := true } } }, by decide +kernel⟩

theorem wit_OutputProtection_overloaded : ∃ (n : Fin 20) (s : State), 8 ∈ (vget s.out.outs n.val).latched :=
  ⟨19, { up with out := { up.out with outs := vset up.out.outs 19 { latched := [3, 8] } } }, by decide +kernel⟩

theorem wit_OutputProtection_alone : ∃ (n : Fin 20) (s : State) (x : ShortId), s.out.ident = [x] ∧ x.out = n.val ∧ s.out.test = none ∧ x.killed = false ∧ x.on = [] ∧ 9 ∉ (vget s.out.outs n.val).latched :=
  ⟨19, { up with out := { up.out with ident := [{ out := 19, due := 32000000 }], grps := vset up.out.grps 1 { latches := [3], codes := [4] } } }, { out := 19, due := 32000000 }, by decide +kernel⟩

theorem wit_OutputProtection_other : ∃ (n : Fin 20) (s : State) (x : ShortId) (i : Nat), s.out.ident = [x] ∧ x.out = n.val ∧ s.out.test = none ∧ x.killed = false ∧ x.on = [i] ∧ 3 ∉ (vget s.out.outs n.val).latched :=
  ⟨19, { up with out := { up.out with ident := [{ out := 19, on := [18], due := 32000000 }], grps := vset up.out.grps 1 { latches := [3], codes := [4] } } }, { out := 19, on := [18], due := 32000000 }, 18, by decide +kernel⟩

theorem wit_OutputProtection_killed : ∃ (n : Fin 20) (s : State) (x : ShortId), s.out.ident = [x] ∧ x.out = n.val ∧ s.out.test = none ∧ x.killed = true :=
  ⟨19, { up with out := { up.out with ident := [{ out := 19, due := 32000000, killed := true }], grps := vset up.out.grps 1 { latches := [3], codes := [4] } } }, { out := 19, due := 32000000, killed := true }, by decide +kernel⟩

theorem wit_OutputProtection_outside : ∃ (n : Fin 20) (s : State) (x : ShortId), s.out.ident = [x] ∧ x.out = n.val ∧ s.out.test = none ∧ (pairedNow s (vget s.out.outs n.val) = false ∨ x.killed = true) ∧ (∀ i ∈ members (1 - grpOut n.val), (vget s.out.outs i).cmd = false) ∧ 4 ∉ (vget s.out.outs n.val).latched :=
  ⟨19, { up with out := { up.out with ident := [{ out := 19, on := [18], due := 32000000 }], grps := vset up.out.grps 1 { latches := [3], codes := [4] } } }, { out := 19, on := [18], due := 32000000 }, by decide +kernel⟩

theorem wit_OutputProtection_cross : ∃ (n j : Fin 20) (s : State) (x : ShortId) (r : TestRun), s.out.ident = [x] ∧ x.out = n.val ∧ s.out.test = some r ∧ r.sel = .ident n.val j.val ∧ grpOut j.val ≠ grpOut n.val ∧ 3 ∉ (vget s.out.outs n.val).latched ∧ 3 ∉ (vget s.out.outs j.val).latched :=
  ⟨19, 0, { up with out := { up.out with ident := [{ out := 19, on := [18], due := 32000000, pulsed := [0] }], test := some { sel := .ident 19 0, until_ := 31999000 }, outs := vset up.out.outs 0 { used := true, cmd := true }, grps := vset up.out.grps 1 { latches := [3], codes := [4] } } }, { out := 19, on := [18], due := 32000000, pulsed := [0] }, { sel := .ident 19 0, until_ := 31999000 }, by decide +kernel⟩

theorem wit_OutputProtection_noCoil : ∃ (n : Fin 20) (coil : Nat) (s : State), (vget s.out.outs n.val).cmd = false ∧ bandOf s (grpOut n.val) ≤ 1 ∧ pairedOff s n.val = true ∧ 16 ≤ n.val ∧ coil < 50 ∧ 9 ∉ (vget s.out.outs n.val).latched :=
  ⟨16, 49, up, by decide +kernel⟩

theorem wit_WindowsBrakesAndBands_eco : ∃ (b : Fin 4) (s : State), (vget s.out.outs (16 + b.val)).eco = true ∧ (vget s.out.outs (16 + b.val)).cmd = true ∧ (vget s.out.outs (16 + b.val)).ch = true := ⟨3, { up with out := { up.out with outs := vset up.out.outs 19 { eco := true, cmd := true, ch := true } } }, by decide +kernel⟩

theorem wit_WindowsBrakesAndBands_phase14 : ∃ (b : Fin 4) (s : State), (vget s.out.outs (16 + b.val)).ecoAct = true ∧ bandOf s (b.val / 2) ≤ 1 ∧ (vget s.out.outs (16 + b.val)).offPhase < 15 := ⟨3, { up with out := { up.out with outs := vset up.out.outs 19 { ecoAct := true, offPhase := 14 } } }, by decide +kernel⟩

theorem wit_WindowsBrakesAndBands_phase15 : ∃ (b : Fin 4) (s : State), (vget s.out.outs (16 + b.val)).ecoAct = true ∧ bandOf s (b.val / 2) ≤ 1 ∧ (vget s.out.outs (16 + b.val)).offPhase = 15 ∧ (vget s.out.outs (16 + b.val)).retestDark = false := ⟨3, { up with out := { up.out with outs := vset up.out.outs 19 { ecoAct := true, offPhase := 15 } } }, by decide +kernel⟩

theorem wit_WindowsBrakesAndBands_band : ∃ (g : Fin 2) (s : State), (vget s.out.grps g.val).band ≠ 3 ∧ cutLatches s = true := ⟨1, up, by decide +kernel⟩

theorem wit_WindowsBrakesAndBands_masterTest : ∃ (g : Fin 2) (s : State), s.out.ident = [] ∧ s.sup.waitAck = [] ∧ s.md.mstate = .run ∧ (vget s.out.grps g.val).mtRetest = true ∧ (vget s.out.grps g.val).master = true ∧ (vget s.out.grps g.val).band = 0 ∧ (g.val = 1 → (vget s.out.grps 0).mtRetest = false) := ⟨1, { up with out := { up.out with grps := vset up.out.grps 1 { master := true, mtRetest := true } } }, by decide +kernel⟩

theorem wit_WindowsBrakesAndBands_phase15again : ∃ (b : Fin 4) (s : State), (vget s.out.outs (16 + b.val)).ecoAct = true ∧ bandOf s (b.val / 2) ≤ 1 ∧ (vget s.out.outs (16 + b.val)).offPhase = 15 ∧ (vget s.out.outs (16 + b.val)).retestDark = true ∧ (vget s.out.outs (16 + b.val)).classified = false ∧ s.out.ident = [] :=
  ⟨3, { up with out := { up.out with outs := vset up.out.outs 19 { used := true, ecoAct := true, offPhase := 15, retestDark := true }, grps := vset up.out.grps 1 { master := true } } }, by decide +kernel⟩

theorem wit_WindowsBrakesAndBands_duty : ∃ (v : Nat), 1200 < v ∧ v < 2400 :=
  ⟨1201, by decide +kernel⟩

theorem wit_WindowsBrakesAndBands_retry : ∃ (k : Fin 16) (s : State), (vget s.out.tos k.val).ovl = true :=
  ⟨15, { up with out := { up.out with tos := vset up.out.tos 15 { ovl := true, ovlAt := 31000000 } } }, by decide +kernel⟩

theorem wit_WindowsBrakesAndBands_pass : ∃ (g : Fin 2) (r : TestRun) (s : State), s.out.test = some r ∧ r.sel = .master g.val ∧ r.until_ ≤ instant s ∧ r.pass = true :=
  ⟨1, { sel := .master 1, until_ := 31999000, pass := true }, { up with out := { up.out with test := some { sel := .master 1, until_ := 31999000, pass := true }, outs := vset up.out.outs 19 { used := true, ch := true }, grps := vset up.out.grps 1 { drive := true, mtRetest := true } } }, by decide +kernel⟩

theorem wit_WindowsBrakesAndBands_fails : ∃ (g : Fin 2) (r : TestRun) (s : State), s.out.test = some r ∧ r.sel = .master g.val ∧ r.until_ ≤ instant s ∧ r.pass = false ∧ (vget s.out.grps g.val).mtRetest = false :=
  ⟨1, { sel := .master 1, until_ := 31999000, pass := false }, { up with out := { up.out with test := some { sel := .master 1, until_ := 31999000, pass := false }, outs := vset up.out.outs 19 { used := true, ch := true }, grps := vset up.out.grps 1 { drive := true,  } } }, by decide +kernel⟩

theorem wit_WindowsBrakesAndBands_failsAgain : ∃ (g : Fin 2) (r : TestRun) (s : State), s.out.test = some r ∧ r.sel = .master g.val ∧ r.until_ ≤ instant s ∧ r.pass = false ∧ (vget s.out.grps g.val).mtRetest = true :=
  ⟨1, { sel := .master 1, until_ := 31999000, pass := false }, { up with out := { up.out with test := some { sel := .master 1, until_ := 31999000, pass := false }, outs := vset up.out.outs 19 { used := true, ch := true }, grps := vset up.out.grps 1 { drive := true, mtRetest := true } } }, by decide +kernel⟩

theorem wit_OutputGuard_notClosed : ∃ (s : State), (masterHeld s = true ∨ s.cyc.guard.run < 2) := ⟨inSt .safeHold, by decide +kernel⟩

theorem wit_OutputGuard_latched : ∃ (g : Fin 2) (s : State), (vget s.out.grps g.val).latches ≠ [] := ⟨1, { up with out := { up.out with grps := vset up.out.grps 1 { latches := [3] } } }, by decide +kernel⟩

theorem wit_OutputGuard_closes : ∃ (g : Fin 2) (s : State), masterHeld s = false ∧ 2 ≤ s.cyc.guard.run ∧ (vget s.out.grps g.val).latches = [] := ⟨1, { up with cyc := { up.cyc with guard := { run := 2 } } }, by decide +kernel⟩

theorem wit_FramesAtRingPorts_link : ∃ (p : Fin 4) (k : Fin 2) (s : State), p.val / 2 = k.val ∧ (vget s.ring.ports p.val).link = true := ⟨0, 0, { up with ring := { up.ring with ports := vset up.ring.ports 0 { link := true } } }, by decide +kernel⟩

theorem wit_FramesAtRingPorts_bringup : ∃ (p : Fin 4) (k : Fin 2) (speed : Fin 3) (s : State), p.val / 2 = k.val ∧ (vget s.ring.ports (2 * k.val)).link = false ∧ (vget s.ring.ports (2 * k.val + 1)).link = false ∧ speed ≠ 0 ∧ 0 < nCfg s k.val ∧ s.md.mstate ≠ .starting ∧ speed = 1 ∧ (vget s.ring.rings k.val).plan100 = false := ⟨0, 0, 1, nodeUp { conn := 1 }, by decide +kernel⟩

theorem wit_FramesAtRingPorts_discover : ∃ (p : Fin 4) (k : Fin 2) (s : State), p.val / 2 = k.val ∧ (vget s.ring.rings k.val).sched = true ∧ (vget s.ring.rings k.val).master = true := ⟨0, 0, { up with ring := { up.ring with rings := vset up.ring.rings 0 { sched := true, master := true } } }, by decide +kernel⟩

theorem wit_FramesAtRingPorts_badHead : ∃ (p : Fin 4) (k : Fin 2) (fr : List Byte), p.val / 2 = k.val ∧ headOk k.val 1 fr = false := ⟨0, 0, [], by decide +kernel⟩

theorem wit_FramesAtRingPorts_discoverDue : ∃ (p : Fin 4) (k : Fin 2) (s : State), p.val / 2 = k.val ∧ (vget s.ring.rings k.val).sched = true ∧ (vget s.ring.rings k.val).master = true ∧ ringLive s = true ∧ 1024 ≤ ((vget s.ring.rings k.val).rpn + 2 ^ 32 - (vget s.ring.rings k.val).discAt) % 2 ^ 32 :=
  ⟨2, 1, { up with ring := { up.ring with rings := vset up.ring.rings 1 { sched := true, master := true, rpn := 1023, discAt := 4294967295 } } }, by decide +kernel⟩

theorem wit_FramesAtRingPorts_discoverEarly : ∃ (p : Fin 4) (k : Fin 2) (s : State), p.val / 2 = k.val ∧ (vget s.ring.rings k.val).sched = true ∧ (vget s.ring.rings k.val).master = true ∧ ringLive s = true ∧ ((vget s.ring.rings k.val).rpn + 2 ^ 32 - (vget s.ring.rings k.val).discAt) % 2 ^ 32 < 1024 :=
  ⟨2, 1, { up with ring := { up.ring with rings := vset up.ring.rings 1 { sched := true, master := true, rpn := 1023 } } }, by decide +kernel⟩

theorem wit_FramesAtRingPorts_ownWest : ∃ (p : Fin 4) (k : Fin 2) (fr : List Byte) (s : State), p.val / 2 = k.val ∧ headOk k.val 1 fr = true ∧ frameSrc fr = moduleMac s.xl.mid k.val ∧ (leAt (frameBody fr) 2 1).testBit 1 = true ∧ p.val % 2 = 0 :=
  ⟨0, 0, etherFrame (mcastMac 0) (moduleMac 0 0) (frameHead 1 2 3 12 7), up, by decide +kernel⟩

theorem wit_FramesAtRingPorts_ownEast : ∃ (p : Fin 4) (k : Fin 2) (fr : List Byte) (s : State), p.val / 2 = k.val ∧ headOk k.val 1 fr = true ∧ frameSrc fr = moduleMac s.xl.mid k.val ∧ (leAt (frameBody fr) 2 1).testBit 1 = false ∧ p.val % 2 = 1 :=
  ⟨1, 0, etherFrame (mcastMac 0) (moduleMac 0 0) (frameHead 1 0 3 12 7), up, by decide +kernel⟩

theorem wit_FramesAtRingPorts_ownBack : ∃ (p : Fin 4) (k : Fin 2) (fr : List Byte) (s : State), p.val / 2 = k.val ∧ headOk k.val 1 fr = true ∧ frameSrc fr = moduleMac s.xl.mid k.val ∧ (leAt (frameBody fr) 2 1).testBit 1 = true ∧ p.val % 2 = 1 :=
  ⟨1, 0, etherFrame (mcastMac 0) (moduleMac 0 0) (frameHead 1 2 3 12 7), up, by decide +kernel⟩

theorem wit_FramesAtRingPorts_foreign : ∃ (p : Fin 4) (k : Fin 2) (fr : List Byte) (s : State), p.val / 2 = k.val ∧ headOk k.val 1 fr = true ∧ frameSrc fr ≠ moduleMac s.xl.mid k.val ∧ (pairMode s = false ∨ frameSrc fr ≠ moduleMac (partnerMid s) k.val) :=
  ⟨0, 0, etherFrame (mcastMac 0) (moduleMac 5 0) (frameHead 1 0 3 12 7), up, by decide +kernel⟩

theorem wit_FramesAtRingPorts_heard : ∃ (p : Fin 4) (k : Fin 2) (fr : List Byte) (s : State), p.val / 2 = k.val ∧ headOk k.val 1 fr = true ∧ frameSrc fr ≠ moduleMac s.xl.mid k.val ∧ pairMode s = true ∧ frameSrc fr = moduleMac (partnerMid s) k.val ∧ (vget s.ring.rings k.val).master = false :=
  ⟨0, 0, etherFrame (mcastMac 0) (moduleMac 1 0) (frameHead 1 0 3 12 7), paired up, by decide +kernel⟩

theorem wit_FramesAtRingPorts_heardMaster : ∃ (p : Fin 4) (k : Fin 2) (fr : List Byte) (s : State), p.val / 2 = k.val ∧ headOk k.val 1 fr = true ∧ frameSrc fr ≠ moduleMac s.xl.mid k.val ∧ pairMode s = true ∧ frameSrc fr = moduleMac (partnerMid s) k.val ∧ (vget s.ring.rings k.val).master = true :=
  ⟨0, 0, etherFrame (mcastMac 0) (moduleMac 1 0) (frameHead 1 0 3 12 7), paired { up with ring := { up.ring with rings := vset up.ring.rings 0 { sched := true, master := true } } }, by decide +kernel⟩

theorem wit_FramesAtRingPorts_forwarded : ∃ (p : Fin 4) (k : Fin 2) (fr : List Byte) (s : State), p.val / 2 = k.val ∧ pairMode s = true ∧ slice fr 12 2 = [0x88#8, 0xB6#8] ∧ leAt (frameBody fr) 0 1 = 1 ∧ frameDst fr ≠ localMac ∧ frameSrc fr ≠ moduleMac s.xl.mid k.val ∧ frameDst fr ≠ moduleMac s.xl.mid k.val ∧ beAt (frameBody fr) 4 2 = 299 :=
  ⟨3, 1, etherFrame (moduleMac 1 1) (nodeMac 1 3) (frameHead 2 1 299 12 7), paired up, by decide +kernel⟩

theorem wit_FramesAtRingPorts_notForwarded : ∃ (p : Fin 4) (k : Fin 2) (fr : List Byte) (s : State), p.val / 2 = k.val ∧ pairMode s = true ∧ slice fr 12 2 = [0x88#8, 0xB6#8] ∧ leAt (frameBody fr) 0 1 = 1 ∧ frameDst fr ≠ localMac ∧ frameSrc fr ≠ moduleMac s.xl.mid k.val ∧ frameDst fr ≠ moduleMac s.xl.mid k.val ∧ beAt (frameBody fr) 4 2 = 300 :=
  ⟨3, 1, etherFrame (moduleMac 1 1) (nodeMac 1 3) (frameHead 2 1 300 12 7), paired up, by decide +kernel⟩

theorem wit_RingPeriods_good : ∃ (k : Fin 2) (g : Fin 512) (s : State), pairMode s = false ∧ g.val / 256 = k.val ∧ (vget s.ring.nodes g.val).conf = true ∧ ((vget s.ring.nodes g.val).conn = 4 ∨ (vget s.ring.nodes g.val).conn = 5) ∧ (vget s.ring.rings k.val).todo = [] ∧ (vget s.ring.rings k.val).sched = true ∧ (vget s.ring.rings k.val).master = true ∧ ringLive s = true := ⟨0, 3, nodeUp { conn := 5, age := 2 }, by decide +kernel⟩

theorem wit_RingPeriods_reintegrating : ∃ (k : Fin 2) (g : Fin 512) (s : State), pairMode s = false ∧ g.val / 256 = k.val ∧ (vget s.ring.nodes g.val).conf = true ∧ ((vget s.ring.nodes g.val).conn = 4 ∨ (vget s.ring.nodes g.val).conn = 5) ∧ (vget s.ring.rings k.val).todo = [] ∧ (vget s.ring.rings k.val).sched = true ∧ (vget s.ring.rings k.val).master = true ∧ ringLive s = true := ⟨0, 3, nodeUp { conn := 4, age := 0 }, by decide +kernel⟩

theorem wit_RingPeriods_other : ∃ (k : Fin 2) (g : Fin 512) (s : State), pairMode s = false ∧ g.val / 256 ≠ k.val := ⟨1, 3, nodeUp {}, by decide +kernel⟩

theorem wit_RingPeriods_expires : ∃ (g : Fin 512) (s : State), ((vget s.ring.nodes g.val).conn = 4 ∨ (vget s.ring.nodes g.val).conn = 5) ∧ (vget s.ring.nodes g.val).age < (vget s.ring.nodes g.val).w ∧ (vget s.ring.rings (g.val / 256)).todo = [] := ⟨3, nodeUp { conn := 5, age := 2 }, by decide +kernel⟩

theorem wit_RingPeriods_takeover : ∃ (k : Fin 2) (s : State), pairMode s = true ∧ (vget s.ring.rings k.val).master = false ∧ (vget s.ring.rings k.val).heard = false ∧ s.md.qualPartner = false := ⟨0, paired up, by decide +kernel⟩

theorem wit_RingPeriods_laysDown : ∃ (k : Fin 2) (s : State), pairMode s = true ∧ (vget s.ring.rings k.val).master = true ∧ (vget s.ring.rings k.val).heard = true ∧ b2n s.xl.rmRole ≠ roleOf s ∧ s.xl.killOut = false :=
  ⟨0, { paired up with xl := { up.xl with pairCfg := true, rmRole := true }, ring := { up.ring with rings := vset up.ring.rings 0 { sched := true, master := true, heard := true, rpn := 4294967295 } } }, by decide +kernel⟩

theorem wit_RingPeriods_discovers : ∃ (k : Fin 2) (s : State), pairMode s = false ∧ (vget s.ring.rings k.val).master = true ∧ ringLive s = true ∧ (vget s.ring.rings k.val).todo = [] ∧ (vget s.ring.rings k.val).bringing = false ∧ (vget s.ring.rings k.val).disc = some (((vget s.ring.rings k.val).rpn + 1) % 2 ^ 32) :=
  ⟨1, { up with ring := { up.ring with rings := vset up.ring.rings 1 { sched := true, master := true, rpn := 4294967295, disc := some 0 } } }, by decide +kernel⟩

theorem wit_NodesAreConfigured_bringup : ∃ (k : Fin 2) (s : State), (vget s.ring.rings k.val).bring = true ∧ (vget s.ring.rings k.val).bringing = false ∧ (vget s.ring.ports (2 * k.val)).link = true ∧ (vget s.ring.rings k.val).master = true :=
  ⟨0, { nodeUp { conn := 5, ref := some 9, run := 2, age := 1 } with ring := { (nodeUp { conn := 5, ref := some 9, run := 2, age := 1 }).ring with ports := vset up.ring.ports 0 { link := true }, rings := vset up.ring.rings 0 { bring := true, sched := true, rpn := 4294967295, master := true } } }, by decide +kernel⟩

theorem wit_NodesAreConfigured_standby : ∃ (k : Fin 2) (s : State), (vget s.ring.rings k.val).bring = true ∧ (vget s.ring.rings k.val).bringing = false ∧ (vget s.ring.ports (2 * k.val)).link = true ∧ (vget s.ring.rings k.val).master = false :=
  ⟨0, { nodeUp { conn := 5, ref := some 9, run := 2, age := 1 } with ring := { (nodeUp { conn := 5, ref := some 9, run := 2, age := 1 }).ring with ports := vset up.ring.ports 0 { link := true }, rings := vset up.ring.rings 0 { bring := true, sched := true, rpn := 4294967295, master := false } } }, by decide +kernel⟩

theorem wit_NodesAreConfigured_noBringup : ∃ (k : Fin 2) (s : State), (vget s.ring.rings k.val).bring = false :=
  ⟨1, up, by decide +kernel⟩

theorem wit_NodesAreConfigured_bringupEnds : ∃ (k : Fin 2) (s : State), (vget s.ring.rings k.val).bringing = true ∧ (vget s.ring.rings k.val).disc = none ∧ (vget s.ring.rings k.val).todo = [] ∧ (vget s.ring.rings k.val).mgmt = [] ∧ pairMode s = false ∧ s.md.mstate ≠ .shuttingDown :=
  ⟨0, { up with ring := { up.ring with ports := vset up.ring.ports 0 { link := true }, rings := vset up.ring.rings 0 { bring := true, bringing := true, master := true } } }, by decide +kernel⟩

theorem wit_NodesAreConfigured_badFrame : ∃ (p : Fin 4) (fr : List Byte), headOk (p.val / 2) 4 fr = false ∨ (frameBody fr).length < 16 :=
  ⟨3, [], by decide +kernel⟩

theorem wit_NodesAreConfigured_notServed : ∃ (p : Fin 4) (fr : List Byte) (s : State), headOk (p.val / 2) 4 fr = true ∧ 16 ≤ (frameBody fr).length ∧ (vget s.ring.rings (p.val / 2)).master = false :=
  ⟨0, respFr 0 5 0 0 [], up, by decide +kernel⟩

theorem wit_NodesAreConfigured_stranger : ∃ (p : Fin 4) (fr : List Byte) (s : State), headOk (p.val / 2) 4 fr = true ∧ 16 ≤ (frameBody fr).length ∧ (vget s.ring.rings (p.val / 2)).master = true ∧ forModule s (p.val / 2) fr = true ∧ leAt (frameBody fr) 12 1 = 0 ∧ (identOf ((frameBody fr).drop 16) 0).uid = 5 ∧ slotOfUid s (p.val / 2) 5 = none :=
  ⟨0, respFr 0 5 0 0 (identBytes 5 0 100000), { up with ring := { up.ring with rings := vset up.ring.rings 0 { sched := true, master := true } } }, by decide +kernel⟩

theorem wit_NodesAreConfigured_strangerWest : ∃ (p : Fin 4) (fr : List Byte) (s : State), headOk (p.val / 2) 4 fr = true ∧ 16 ≤ (frameBody fr).length ∧ (vget s.ring.rings (p.val / 2)).master = true ∧ forModule s (p.val / 2) fr = true ∧ leAt (frameBody fr) 12 1 = 0 ∧ (identOf ((frameBody fr).drop 16) 0).uid = 5 ∧ slotOfUid s (p.val / 2) 5 = none :=
  ⟨1, respFr 0 5 0 0 (identBytes 5 0 100000), { up with ring := { up.ring with rings := vset up.ring.rings 0 { sched := true, master := true } } }, by decide +kernel⟩

theorem wit_NodesAreConfigured_fitting : ∃ (p : Fin 4) (fr : List Byte) (s : State), headOk (p.val / 2) 4 fr = true ∧ 16 ≤ (frameBody fr).length ∧ (vget s.ring.rings (p.val / 2)).master = true ∧ forModule s (p.val / 2) fr = true ∧ leAt (frameBody fr) 12 1 = 0 ∧ (identOf ((frameBody fr).drop 16) 0).uid = 5 ∧ slotOfUid s (p.val / 2) 5 = some 3 ∧ (nodeOf s 3).ntype = (identOf ((frameBody fr).drop 16) 0).ntype ∧ (identOf ((frameBody fr).drop 16) 0).tNin = 100000 ∧ (identOf ((frameBody fr).drop 16) 0).tNout ≤ 250000 ∧ (nodeOf s 3).conn ∉ [3, 4, 5] :=
  ⟨0, respFr 0 5 0 0 (identBytes 5 0 100000), nodeUp { conn := 1, tries := 2 }, by decide +kernel⟩

theorem wit_NodesAreConfigured_mismatch : ∃ (p : Fin 4) (fr : List Byte) (s : State), headOk (p.val / 2) 4 fr = true ∧ 16 ≤ (frameBody fr).length ∧ (vget s.ring.rings (p.val / 2)).master = true ∧ forModule s (p.val / 2) fr = true ∧ leAt (frameBody fr) 12 1 = 0 ∧ (identOf ((frameBody fr).drop 16) 0).uid = 5 ∧ slotOfUid s (p.val / 2) 5 = some 3 ∧ (identOf ((frameBody fr).drop 16) 0).tNin = 100001 :=
  ⟨0, respFr 0 5 0 0 (identBytes 5 0 100001), nodeUp { conn := 5 }, by decide +kernel⟩

theorem wit_NodesAreConfigured_committed : ∃ (p : Fin 4) (fr : List Byte) (s : State) (m : Mgmt), headOk (p.val / 2) 4 fr = true ∧ 16 ≤ (frameBody fr).length ∧ (vget s.ring.rings (p.val / 2)).master = true ∧ forModule s (p.val / 2) fr = true ∧ slotOfMac s (p.val / 2) (frameSrc fr) = some 3 ∧ (vget s.ring.rings (p.val / 2)).mgmt.find? (fun m => m.sent && m.slot == 3 && m.tag == leAt (frameBody fr) 13 1 && m.op == leAt (frameBody fr) 12 1) = some m ∧ m.op = 3 ∧ BitVec.ofNat 32 (beAt ((frameBody fr).drop 16) 0 4) = nodeCheck s (p.val / 2) 3 := by
  let n : Node := { conn := 3, filters := List.replicate 8 3 }
  let x := nodeCheck (commitUp n) 0 3
  obtain ⟨h1, h2, h3, h4, h5, h6, h7⟩ := commitFr x n
  exact ⟨0, respFr 3 5 3 0 (beBytes 4 x.toNat), commitUp n, { slot := 3, op := 3, tag := 9, sent := true, at_ := 4 }, h1, h2, rfl, h3, h4, by rw [h5, h6]; rfl, rfl, by rw [h7, beWord]; rfl⟩

theorem wit_NodesAreConfigured_wrongCheck : ∃ (p : Fin 4) (fr : List Byte) (s : State) (m : Mgmt), headOk (p.val / 2) 4 fr = true ∧ 16 ≤ (frameBody fr).length ∧ (vget s.ring.rings (p.val / 2)).master = true ∧ forModule s (p.val / 2) fr = true ∧ slotOfMac s (p.val / 2) (frameSrc fr) = some 3 ∧ (vget s.ring.rings (p.val / 2)).mgmt.find? (fun m => m.sent && m.slot == 3 && m.tag == leAt (frameBody fr) 13 1 && m.op == leAt (frameBody fr) 12 1) = some m ∧ m.op = 3 ∧ ¬BitVec.ofNat 32 (beAt ((frameBody fr).drop 16) 0 4) = nodeCheck s (p.val / 2) 3 ∧ (nodeOf s 3).tries = 1 := by
  let n : Node := { conn := 3, tries := 1 }
  let x := nodeCheck (commitUp n) 0 3 + 1#32
  obtain ⟨h1, h2, h3, h4, h5, h6, h7⟩ := commitFr x n
  exact ⟨0, respFr 3 5 3 0 (beBytes 4 x.toNat), commitUp n, { slot := 3, op := 3, tag := 9, sent := true, at_ := 4 }, h1, h2, rfl, h3, h4, by rw [h5, h6]; rfl, rfl, by rw [h7, beWord]; exact fun h => by have := BitVec.add_right_eq_self.mp (show nodeCheck (commitUp n) 0 3 + 1#32 = nodeCheck (commitUp n) 0 3 from h); simp at this, rfl⟩

theorem wit_NodesAreConfigured_wrongThrice : ∃ (p : Fin 4) (fr : List Byte) (s : State) (m : Mgmt), headOk (p.val / 2) 4 fr = true ∧ 16 ≤ (frameBody fr).length ∧ (vget s.ring.rings (p.val / 2)).master = true ∧ forModule s (p.val / 2) fr = true ∧ slotOfMac s (p.val / 2) (frameSrc fr) = some 3 ∧ (vget s.ring.rings (p.val / 2)).mgmt.find? (fun m => m.sent && m.slot == 3 && m.tag == leAt (frameBody fr) 13 1 && m.op == leAt (frameBody fr) 12 1) = some m ∧ m.op = 3 ∧ ¬BitVec.ofNat 32 (beAt ((frameBody fr).drop 16) 0 4) = nodeCheck s (p.val / 2) 3 ∧ (nodeOf s 3).tries = 2 := by
  let n : Node := { conn := 3, tries := 2 }
  let x := nodeCheck (commitUp n) 0 3 + 1#32
  obtain ⟨h1, h2, h3, h4, h5, h6, h7⟩ := commitFr x n
  exact ⟨0, respFr 3 5 3 0 (beBytes 4 x.toNat), commitUp n, { slot := 3, op := 3, tag := 9, sent := true, at_ := 4 }, h1, h2, rfl, h3, h4, by rw [h5, h6]; rfl, rfl, by rw [h7, beWord]; exact fun h => by have := BitVec.add_right_eq_self.mp (show nodeCheck (commitUp n) 0 3 + 1#32 = nodeCheck (commitUp n) 0 3 from h); simp at this, rfl⟩

theorem wit_NodesAreConfigured_restarts : ∃ (p : Fin 4) (fr : List Byte) (s : State) (m : Mgmt) (q : Req), headOk (p.val / 2) 4 fr = true ∧ 16 ≤ (frameBody fr).length ∧ (vget s.ring.rings (p.val / 2)).master = true ∧ forModule s (p.val / 2) fr = true ∧ slotOfMac s (p.val / 2) (frameSrc fr) = some 3 ∧ (vget s.ring.rings (p.val / 2)).mgmt.find? (fun m => m.sent && m.slot == 3 && m.tag == leAt (frameBody fr) 13 1 && m.op == leAt (frameBody fr) 12 1) = some m ∧ m.op = 6 ∧ leAt (frameBody fr) 14 1 = 0 ∧ s.sup.waitAct = [(256 * (p.val / 2) + 3, q)] ∧ s.sup.sup = .serving :=
  ⟨0, respFr 3 5 6 0 [], { nodeUp { conn := 5, staged := 8 } with ring := { (nodeUp { conn := 5, staged := 8 }).ring with rings := vset up.ring.rings 0 { sched := true, master := true, mgmt := [{ slot := 3, op := 6, tag := 9, sent := true, at_ := 4 }] } }, sup := { (sv 0x0805 (rq [3, 0])).sup with waitAct := [(3, rq [3, 0])] } }, { slot := 3, op := 6, tag := 9, sent := true, at_ := 4 }, rq [3, 0], by decide +kernel⟩

theorem wit_NodesAreConfigured_repeats : ∃ (k : Fin 2) (m : Mgmt) (s : State), (vget s.ring.rings k.val).mgmt = [m] ∧ m.sent = true ∧ m.slot < 256 ∧ m.repeats = 1 :=
  ⟨0, { slot := 255, op := 2, tag := 9, sent := true, at_ := 4, repeats := 1 }, { up with ring := { up.ring with nfw := { node := 255, phase := 1, total := 640 }, nodes := vset up.ring.nodes 255 { uid := 6, conn := 3 }, rings := vset up.ring.rings 0 { sched := true, master := true, rpn := 4294967295, mgmt := [{ slot := 255, op := 2, tag := 9, sent := true, at_ := 4, repeats := 1 }] } } }, by decide +kernel⟩

theorem wit_NodesAreConfigured_givesUp : ∃ (k : Fin 2) (m : Mgmt) (s : State), (vget s.ring.rings k.val).mgmt = [m] ∧ m.sent = true ∧ m.slot < 256 ∧ m.repeats = 2 ∧ m.op ≤ 3 :=
  ⟨0, { slot := 255, op := 3, tag := 9, sent := true, at_ := 4, repeats := 2 }, { up with ring := { up.ring with nfw := { node := 255, phase := 1, total := 640 }, nodes := vset up.ring.nodes 255 { uid := 6, conn := 3 }, rings := vset up.ring.rings 0 { sched := true, master := true, rpn := 4294967295, mgmt := [{ slot := 255, op := 3, tag := 9, sent := true, at_ := 4, repeats := 2 }] } } }, by decide +kernel⟩

theorem wit_NodesAreConfigured_firmwareFails : ∃ (k : Fin 2) (m : Mgmt) (s : State), (vget s.ring.rings k.val).mgmt = [m] ∧ m.sent = true ∧ m.slot < 256 ∧ m.repeats = 2 ∧ (m.op = 4 ∨ m.op = 5) :=
  ⟨0, { slot := 255, op := 5, tag := 9, sent := true, at_ := 4, repeats := 2 }, { up with ring := { up.ring with nfw := { node := 255, phase := 1, total := 640 }, nodes := vset up.ring.nodes 255 { uid := 6, conn := 3 }, rings := vset up.ring.rings 0 { sched := true, master := true, rpn := 4294967295, mgmt := [{ slot := 255, op := 5, tag := 9, sent := true, at_ := 4, repeats := 2 }] } } }, by decide +kernel⟩

theorem wit_NodesAreConfigured_restartFails : ∃ (k : Fin 2) (m : Mgmt) (s : State), (vget s.ring.rings k.val).mgmt = [m] ∧ m.sent = true ∧ m.slot < 256 ∧ m.repeats = 2 ∧ 6 ≤ m.op :=
  ⟨0, { slot := 255, op := 6, tag := 9, sent := true, at_ := 4, repeats := 2 }, { up with ring := { up.ring with nfw := { node := 255, phase := 1, total := 640 }, nodes := vset up.ring.nodes 255 { uid := 6, conn := 3 }, rings := vset up.ring.rings 0 { sched := true, master := true, rpn := 4294967295, mgmt := [{ slot := 255, op := 6, tag := 9, sent := true, at_ := 4, repeats := 2 }] } }, sup := { (sv 0x0805 (rq [255, 0])).sup with waitAct := [(255, rq [255, 0])] } }, by decide +kernel⟩

theorem wit_NodesAreConfigured_noRequest : ∃ (k : Fin 2) (s : State), (vget s.ring.rings k.val).mgmt.find? (·.sent) = none :=
  ⟨1, up, by decide +kernel⟩

theorem wit_InputContainersByTheirCount_badFrame : ∃ (p : Fin 4) (fr : List Byte), (headOk (p.val / 2) 2 fr = false ∨ (frameBody fr).length ≠ 120) := ⟨0, [], by decide +kernel⟩

theorem wit_InputContainersByTheirCount_expired : ∃ (fr : List Byte) (s : State), headOk 0 2 fr = true ∧ (frameBody fr).length = 120 ∧ ((vget s.ring.rings 0).plan100 = true ∨ (vget s.ring.ports 0).speed ≠ 1) ∧ 4 ≤ (vget s.ring.nodes 3).conn ∧ beAt ((frameBody fr).drop 12) 0 2 = 8 ∧ beAt ((frameBody fr).drop 12) 104 4 = (contCrc (cidOf s 0 3 (vget s.ring.nodes 3).uid) 0x49 0 3 (((frameBody fr).drop 12).take 104)).toNat ∧ (vget s.ring.nodes 3).conn = 6 :=
  ⟨contFr 0xd1b21e37, nodeUp { conn := 6 }, by decide +kernel, by decide +kernel, by decide +kernel, by decide +kernel, by decide +kernel, contFr_good _ (by decide +kernel), by decide +kernel⟩

theorem wit_InputContainersByTheirCount_good : ∃ (fr : List Byte) (s : State), headOk 0 2 fr = true ∧ (frameBody fr).length = 120 ∧ ((vget s.ring.rings 0).plan100 = true ∨ (vget s.ring.ports 0).speed ≠ 1) ∧ 4 ≤ (vget s.ring.nodes 3).conn ∧ beAt ((frameBody fr).drop 12) 0 2 = 8 ∧ beAt ((frameBody fr).drop 12) 104 4 = (contCrc (cidOf s 0 3 (vget s.ring.nodes 3).uid) 0x49 0 3 (((frameBody fr).drop 12).take 104)).toNat ∧ (vget s.ring.nodes 3).conn = 5 ∧ (8 + 65536 - (vget s.ring.nodes 3).ref.getD 0) % 65536 = 1 :=
  ⟨contFr 0xd1b21e37, nodeUp { conn := 5, ref := some 7 }, by decide +kernel, by decide +kernel, by decide +kernel, by decide +kernel, by decide +kernel, contFr_good _ (by decide +kernel), by decide +kernel, by decide +kernel⟩

theorem wit_InputContainersByTheirCount_third : ∃ (fr : List Byte) (s : State), headOk 0 2 fr = true ∧ (frameBody fr).length = 120 ∧ ((vget s.ring.rings 0).plan100 = true ∨ (vget s.ring.ports 0).speed ≠ 1) ∧ 4 ≤ (vget s.ring.nodes 3).conn ∧ beAt ((frameBody fr).drop 12) 0 2 = 8 ∧ beAt ((frameBody fr).drop 12) 104 4 = (contCrc (cidOf s 0 3 (vget s.ring.nodes 3).uid) 0x49 0 3 (((frameBody fr).drop 12).take 104)).toNat ∧ (vget s.ring.nodes 3).conn = 4 ∧ (8 + 65536 - (vget s.ring.nodes 3).ref.getD 0) % 65536 = 1 ∧ 3 ≤ (vget s.ring.nodes 3).run + 1 :=
  ⟨contFr 0xd1b21e37, nodeUp { conn := 4, ref := some 7, run := 2 }, by decide +kernel, by decide +kernel, by decide +kernel, by decide +kernel, by decide +kernel, contFr_good _ (by decide +kernel), by decide +kernel, by decide +kernel, by decide +kernel⟩

theorem wit_InputContainersByTheirCount_gap : ∃ (fr : List Byte) (s : State), headOk 0 2 fr = true ∧ (frameBody fr).length = 120 ∧ ((vget s.ring.rings 0).plan100 = true ∨ (vget s.ring.ports 0).speed ≠ 1) ∧ 4 ≤ (vget s.ring.nodes 3).conn ∧ beAt ((frameBody fr).drop 12) 0 2 = 8 ∧ beAt ((frameBody fr).drop 12) 104 4 = (contCrc (cidOf s 0 3 (vget s.ring.nodes 3).uid) 0x49 0 3 (((frameBody fr).drop 12).take 104)).toNat ∧ (vget s.ring.nodes 3).conn = 4 ∧ (8 + 65536 - (vget s.ring.nodes 3).ref.getD 0) % 65536 = (vget s.ring.nodes 3).w ∧ 1 < (vget s.ring.nodes 3).w :=
  ⟨contFr 0xd1b21e37, nodeUp { conn := 4, ref := some 5, run := 2 }, by decide +kernel, by decide +kernel, by decide +kernel, by decide +kernel, by decide +kernel, contFr_good _ (by decide +kernel), by decide +kernel, by decide +kernel, by decide +kernel⟩

theorem wit_InputContainersByTheirCount_ahead : ∃ (fr : List Byte) (s : State), headOk 0 2 fr = true ∧ (frameBody fr).length = 120 ∧ ((vget s.ring.rings 0).plan100 = true ∨ (vget s.ring.ports 0).speed ≠ 1) ∧ 4 ≤ (vget s.ring.nodes 3).conn ∧ beAt ((frameBody fr).drop 12) 0 2 = 8 ∧ beAt ((frameBody fr).drop 12) 104 4 = (contCrc (cidOf s 0 3 (vget s.ring.nodes 3).uid) 0x49 0 3 (((frameBody fr).drop 12).take 104)).toNat ∧ (vget s.ring.nodes 3).conn = 5 ∧ (vget s.ring.nodes 3).w < (8 + 65536 - (vget s.ring.nodes 3).ref.getD 0) % 65536 :=
  ⟨contFr 0xd1b21e37, nodeUp { conn := 5, ref := some 4 }, by decide +kernel, by decide +kernel, by decide +kernel, by decide +kernel, by decide +kernel, contFr_good _ (by decide +kernel), by decide +kernel, by decide +kernel⟩

theorem wit_InputContainersByTheirCount_repeat : ∃ (fr : List Byte) (s : State), headOk 0 2 fr = true ∧ (frameBody fr).length = 120 ∧ ((vget s.ring.rings 0).plan100 = true ∨ (vget s.ring.ports 0).speed ≠ 1) ∧ 4 ≤ (vget s.ring.nodes 3).conn ∧ beAt ((frameBody fr).drop 12) 0 2 = 8 ∧ beAt ((frameBody fr).drop 12) 104 4 = (contCrc (cidOf s 0 3 (vget s.ring.nodes 3).uid) 0x49 0 3 (((frameBody fr).drop 12).take 104)).toNat ∧ (vget s.ring.nodes 3).conn = 5 ∧ (8 + 65536 - (vget s.ring.nodes 3).ref.getD 0) % 65536 = 0 :=
  ⟨contFr 0xd1b21e37, nodeUp { conn := 5, ref := some 8 }, by decide +kernel, by decide +kernel, by decide +kernel, by decide +kernel, by decide +kernel, contFr_good _ (by decide +kernel), by decide +kernel, by decide +kernel⟩

theorem wit_InputContainersByTheirCount_badCrc : ∃ (fr : List Byte) (s : State), headOk 0 2 fr = true ∧ (frameBody fr).length = 120 ∧ 4 ≤ (vget s.ring.nodes 3).conn ∧ ¬beAt ((frameBody fr).drop 12) 104 4 = (contCrc (cidOf s 0 3 (vget s.ring.nodes 3).uid) 0x49 0 3 (((frameBody fr).drop 12).take 104)).toNat :=
  ⟨contFr 0, nodeUp { conn := 5, ref := some 7 }, by decide +kernel, by decide +kernel, by decide +kernel, fun h => absurd ((contFr_good (nodeUp { conn := 5, ref := some 7 }) (by decide +kernel)).trans h.symm) (by decide +kernel)⟩

theorem wit_CrossLinkContainers_sends : ∃ (s : State), xlSends s = true ∧ s.xl.mid < 8 ∧ s.md.mstate = .run := ⟨{ runs with xl := { up.xl with joined := true, locked := true, mid := 7 } }, by decide +kernel⟩

theorem wit_CrossLinkContainers_sendsZero : ∃ (s : State), xlSends s = true ∧ s.xl.mid < 8 ∧ s.md.mstate = .safeHold := ⟨inSt .safeHold { runs with xl := { up.xl with joined := true, locked := true, mid := 7 } }, by decide +kernel⟩

theorem wit_CrossLinkContainers_silent : ∃ (s : State), xlSends s = false := ⟨up, by decide +kernel⟩

theorem wit_CrossLinkContainers_first : ∃ (clb : Bool) (slot : Fin 16) (ws : List Word) (s : State), xlAccepts slot.val s.xl.pcnt (onCarrier s) ws = true ∧ (∀ c ∈ s.xl.copies, c.slot = slot.val → c.clb = clb) := ⟨false, 3, xlWs 0 0xFAE813AC, up, xlWs_0 _ (by decide +kernel), by decide +kernel⟩

theorem wit_CrossLinkContainers_clash : ∃ (clb : Bool) (slot : Fin 16) (ws : List Word) (s : State) (c : XlCopy), xlAccepts slot.val s.xl.pcnt (onCarrier s) ws = true ∧ s.xl.copies = [c] ∧ c.slot = slot.val ∧ c.clb ≠ clb ∧ c.words ≠ ws ∧ slot.val ∉ s.xl.clash := ⟨false, 3, xlWs 0 0xFAE813AC, { up with xl := { up.xl with copies := [{ slot := 3, clb := true, words := xlWs 1 0x946C712C }] } }, { slot := 3, clb := true, words := xlWs 1 0x946C712C }, xlWs_0 _ (by decide +kernel), by decide +kernel⟩

theorem wit_CrossLinkContainers_short : ∃ (slot : Fin 16) (ws : List Word), (ws.length ≠ 34 ∨ lget ws 33 0 ≠ xlCrc slot.val ws) := ⟨3, [], by decide +kernel⟩

theorem wit_CrossLinkMastersJoinsAndKills_acting : ∃ (s : State), s.xl.acting = true := ⟨{ runs with xl := { up.xl with acting := true } }, by decide +kernel⟩

theorem wit_CrossLinkMastersJoinsAndKills_edge : ∃ (at_ : Nat) (s : State) (e : Int), s.xl.acting = false ∧ e = (if tickDist at_ s.cyc.nextT0 < tickDist at_ s.cyc.lastT0 then (at_ : Int) - s.cyc.nextT0 else (at_ : Int) - s.cyc.lastT0) := ⟨32001990, runs, -10, by decide +kernel⟩

theorem wit_CrossLinkMastersJoinsAndKills_absent : ∃ (s : State), s.xl.acting = false ∧ s.xl.joined = true ∧ 4 + 4 * s.xl.mid ≤ s.xl.absent ∧ s.xl.pulse = false := ⟨{ runs with xl := { (runs).xl with joined := true, absent := 12, mid := 2 } }, by decide +kernel⟩

theorem wit_CrossLinkMastersJoinsAndKills_alone : ∃ (s : State), s.xl.acting = false ∧ s.xl.joined = false ∧ s.xl.sawSync = false ∧ s.cyc.running = true ∧ (pairMode s && s.xl.killIn) = false := ⟨runs, by decide +kernel⟩

theorem wit_CrossLinkMastersJoinsAndKills_joins : ∃ (s : State), s.xl.acting = false ∧ s.xl.joined = false ∧ 16 ≤ s.xl.observed ∧ joinCause s = none ∧ s.xl.locked = true ∧ 16 ≤ s.xl.lockRun ∧ (pairMode s && s.xl.killIn) = false := ⟨{ runs with xl := { (runs).xl with locked := true, lockRun := 16, observed := 16 } }, by decide +kernel⟩

theorem wit_CrossLinkMastersJoinsAndKills_cause : ∃ (s : State) (c : Byte), s.xl.acting = false ∧ s.xl.joined = false ∧ 16 ≤ s.xl.observed ∧ joinCause s = some c ∧ s.xl.joinFailed = false := ⟨{ runs with xl := { (runs).xl with observed := 16, svc := [(0, [])] } }, 0x15, by decide +kernel⟩

theorem wit_CrossLinkMastersJoinsAndKills_stop : ∃ (s : State), s.xl.stopRcv = true ∧ 2 ≤ s.xl.stopRun ∧ (s.md.mstate = .run ∨ s.md.mstate = .quiet) ∧ 0x14#8 ∉ s.md.holdPend ∧ 0x14#8 ∉ s.md.recorded := ⟨{ runs with xl := { (runs).xl with stopRcv := true, stopRun := 2 } }, by decide +kernel⟩

theorem wit_CrossLinkMastersJoinsAndKills_killAlone : ∃ (s : State), pairMode s = false := ⟨runs, by decide +kernel⟩

theorem wit_CrossLinkMastersJoinsAndKills_killed : ∃ (k : Fin 16) (s : State), pairMode s = true ∧ s.md.mstate ∈ [MState.starting, .run, .quiet, .safeHold] ∧ s.xl.toMask.getLsbD k.val = false := ⟨15, paired runs, by decide +kernel⟩

theorem wit_CrossLinkMastersJoinsAndKills_released : ∃ (s : State), s.xl.killOut = true ∧ 16 ≤ s.xl.killGone := ⟨{ runs with xl := { (runs).xl with killOut := true, killGone := 16 } }, by decide +kernel⟩

theorem wit_CrossLinkMastersJoinsAndKills_killedAlone : ∃ (s : State), s.xl.acting = false ∧ s.xl.joined = false ∧ s.xl.sawSync = false ∧ s.cyc.running = true ∧ (pairMode s && s.xl.killIn) = true ∧ s.md.mstate ∈ [MState.starting, .run, .quiet, .safeHold] :=
  ⟨paired { runs with xl := { up.xl with killIn := true } }, by decide +kernel⟩

theorem wit_CrossLinkMastersJoinsAndKills_killedJoin : ∃ (s : State), s.xl.acting = false ∧ s.xl.joined = false ∧ 16 ≤ s.xl.observed ∧ joinCause s = none ∧ s.xl.locked = true ∧ 16 ≤ s.xl.lockRun ∧ (pairMode s && s.xl.killIn) = true ∧ s.md.mstate ∈ [MState.starting, .run, .quiet, .safeHold] :=
  ⟨paired { runs with xl := { up.xl with locked := true, lockRun := 16, observed := 16, killIn := true } }, by decide +kernel⟩

theorem wit_CrossLinkMastersJoinsAndKills_differs : ∃ (s : State), s.xl.acting = false ∧ s.xl.joined = false ∧ 16 ≤ s.xl.observed ∧ joinCause s = none ∧ s.xl.locked = true ∧ 16 ≤ s.xl.lockRun ∧ (pairMode s && s.xl.killIn) = false ∧ pairDiffers s = true ∧ s.md.mstate = .run ∧ 0x12#8 ∉ s.md.recorded :=
  ⟨paired { runs with xl := { up.xl with locked := true, lockRun := 16, observed := 16, svc := [(1, [0x10000#32] ++ List.replicate 8 0#32 ++ [1#32, 0#32, 0#32, 9#32])] } }, by decide +kernel⟩

theorem wit_CrossLinkMastersJoinsAndKills_firstSync : ∃ (s : State), s.xl.acting = false ∧ s.xl.joined = false ∧ s.xl.sawSync = true ∧ s.xl.joinFailed = false ∧ (pairMode s && s.xl.killIn) = false ∧ 4 + 4 * s.xl.mid ≤ s.xl.absent ∧ s.xl.pulse = false :=
  ⟨{ runs with xl := { up.xl with sawSync := true, absent := 4 } }, by decide +kernel⟩

theorem wit_EventsMergeAndAreWritten_queued : ∃ (code : Half) (inst : Half) (data : List Byte) (s : State) (pre : List EvEntry) (x : EvEntry) (post : List EvEntry), evListed code.toNat = true ∧ s.evr.stopped = false ∧ s.evr.flushing = false ∧ s.md.mstate ≠ .off ∧ (evFirmware code.toNat = true → s.sup.sup = .serving) ∧ s.evr.queue = pre ++ x :: post ∧ x.key = (evKey code.toNat inst.toNat data) ∧ (∀ e ∈ pre, e.key ≠ (evKey code.toNat inst.toNat data)) := ⟨0x0401, 2, [1], { up with evr := { up.evr with queue := [{ key := evKey 0x0401 3 [1] }, { key := evKey 0x0401 2 [1], rep := 1 }] } }, [{ key := evKey 0x0401 3 [1] }], { key := evKey 0x0401 2 [1], rep := 1 }, [], by decide +kernel⟩

theorem wit_EventsMergeAndAreWritten_coalesced : ∃ (code : Half) (inst : Half) (data : List Byte) (s : State) (pre : List EvCo) (c : EvCo) (post : List EvCo), evListed code.toNat = true ∧ s.evr.stopped = false ∧ s.evr.flushing = false ∧ s.md.mstate ≠ .off ∧ (evFirmware code.toNat = true → s.sup.sup = .serving) ∧ (∀ e ∈ s.evr.queue, e.key ≠ (evKey code.toNat inst.toNat data)) ∧ (evKey code.toNat inst.toNat data).safety = true ∧ s.evr.coS = pre ++ c :: post ∧ c.key = (evKey code.toNat inst.toNat data) ∧ (∀ d ∈ pre, d.key ≠ (evKey code.toNat inst.toNat data)) ∧ now s < c.last + 160000000 ∧ lastOfs c.first (now s) ≤ 2 ^ 32 - 1 ∧ s.evr.konly = false := ⟨0x0401, 2, [1], { up with evr := { up.evr with coS := [{ key := evKey 0x0401 3 [1], first := 31000000, last := 31900000 }, { key := evKey 0x0401 2 [1], first := 31000000, last := 31900000 }] } }, [{ key := evKey 0x0401 3 [1], first := 31000000, last := 31900000 }], { key := evKey 0x0401 2 [1], first := 31000000, last := 31900000 }, [], by decide +kernel⟩

theorem wit_EventsMergeAndAreWritten_entry : ∃ (code : Half) (inst : Half) (data : List Byte) (s : State), evListed code.toNat = true ∧ s.evr.stopped = false ∧ s.evr.flushing = false ∧ s.md.mstate ≠ .off ∧ (evFirmware code.toNat = true → s.sup.sup = .serving) ∧ (∀ e ∈ s.evr.queue, e.key ≠ (evKey code.toNat inst.toNat data)) ∧ (∀ c ∈ (if (evKey code.toNat inst.toNat data).safety then s.evr.coS else s.evr.coO), c.key ≠ (evKey code.toNat inst.toNat data)) ∧ s.evr.queue.length < 256 := ⟨0x0401, 2, [1], up, by decide +kernel⟩

theorem wit_EventsMergeAndAreWritten_full : ∃ (code : Half) (inst : Half) (data : List Byte) (s : State), evListed code.toNat = true ∧ s.evr.stopped = false ∧ s.evr.flushing = false ∧ s.md.mstate ≠ .off ∧ (evFirmware code.toNat = true → s.sup.sup = .serving) ∧ (∀ e ∈ s.evr.queue, e.key ≠ (evKey code.toNat inst.toNat data)) ∧ (∀ c ∈ (if (evKey code.toNat inst.toNat data).safety then s.evr.coS else s.evr.coO), c.key ≠ (evKey code.toNat inst.toNat data)) ∧ 256 ≤ s.evr.queue.length ∧ (∀ e ∈ s.evr.queue, (evKey code.toNat inst.toNat data).sev ≤ e.key.sev) := ⟨0x0401, 2, [1], { up with evr := { up.evr with queue := List.replicate 256 { key := evKey 0x0401 3 [1] } } }, by decide +kernel⟩

theorem wit_EventsMergeAndAreWritten_safety : ∃ (w : RecWrite) (s : State) (x : EvEntry), firstDue s.evr.queue = some x ∧ s.pwr.inhibit = false ∧ s.evr.konly = false ∧ s.evr.sumS = none ∧ s.evr.sumO = none ∧ x.key.safety = true ∧ s.evr.recS.length < 65536 ∧ w.ok = true := ⟨{}, { up with evr := { up.evr with queue := [{ key := evKey 0x0401 2 [1], first := 31900000 }] } }, { key := evKey 0x0401 2 [1], first := 31900000 }, by decide +kernel⟩

theorem wit_EventsMergeAndAreWritten_operation : ∃ (w : RecWrite) (s : State) (x : EvEntry), firstDue s.evr.queue = some x ∧ s.pwr.inhibit = false ∧ s.evr.konly = false ∧ s.evr.sumS = none ∧ s.evr.sumO = none ∧ x.key.safety = false ∧ s.evr.recK.length < 16384 ∧ w.ok = true := ⟨{}, { up with evr := { up.evr with queue := [{ key := evKey 0x0402 1 [], first := 31900000 }] } }, { key := evKey 0x0402 1 [], first := 31900000 }, by decide +kernel⟩

theorem wit_EventsMergeAndAreWritten_spare : ∃ (w : RecWrite) (s : State) (x : EvEntry), firstDue s.evr.queue = some x ∧ s.pwr.inhibit = false ∧ s.evr.konly = false ∧ s.evr.sumS = none ∧ s.evr.sumO = none ∧ x.key.safety = true ∧ s.evr.recS.length < 65536 ∧ w.ok = false ∧ w.lost = [] ∧ s.evr.remap.length < 64 := ⟨{ ok := false }, { up with evr := { up.evr with queue := [{ key := evKey 0x0401 2 [1], first := 31900000 }], remap := List.replicate 63 (0, 0) } }, { key := evKey 0x0401 2 [1], first := 31900000 }, by decide +kernel⟩

theorem wit_EventsMergeAndAreWritten_inhibited : ∃ (s : State) (x : EvEntry), firstDue s.evr.queue = some x ∧ s.pwr.inhibit = true := ⟨{ { up with evr := { up.evr with queue := [{ key := evKey 0x0401 2 [1], first := 31900000 }] } } with pwr := { up.pwr with inhibit := true } }, { key := evKey 0x0401 2 [1], first := 31900000 }, by decide +kernel⟩

theorem wit_EventsMergeAndAreWritten_rewritten : ∃ (w : RecWrite) (s : State) (c : EvCo), nextRewrite (s.evr.coS ++ s.evr.coO) = some c ∧ w.ok = true ∧ s.pwr.inhibit = false ∧ s.evr.konly = false ∧ c.key.safety = true := ⟨{}, { up with evr := { up.evr with coS := [{ seq := 1, key := evKey 0x0401 2 [1], pend := 2 }], recS := [{ seq := 1, key := evKey 0x0401 2 [1] }], seqS := 1 } }, { seq := 1, key := evKey 0x0401 2 [1], pend := 2 }, by decide +kernel⟩

theorem wit_EventsMergeAndAreWritten_expired : ∃ (s : State) (o : Nat), oldestCo (s.evr.coS ++ s.evr.coO) = some o ∧ (∀ c ∈ s.evr.coS ++ s.evr.coO, c.pend = 0) := ⟨{ up with evr := { up.evr with coS := [{ seq := 1, key := evKey 0x0401 2 [1], last := 5 }] } }, 5, by decide +kernel⟩

theorem wit_ScrubbingGoesOn_clean : ∃ (raw : BitVec 44) (s : State) (d : Nat), rsDecode (foldMram (s.mem.scrubPos.toNat)) raw = .clean d := ⟨rsEncode 0 1, up, 1, by decide +kernel⟩

theorem wit_ScrubbingGoesOn_corrected : ∃ (raw : BitVec 44) (s : State) (d : Nat) (p : Nat), rsDecode (foldMram (s.mem.scrubPos.toNat)) raw = .corrected d p := ⟨rsEncode 0 1 ^^^ 0xF0, up, 1, 4, by decide +kernel⟩

theorem wit_ScrubbingGoesOn_passed : ∃ (b : Fin 36) (s : State), (vget s.mem.banks b.val).passed = true ∧ s.mem.scrubPassed = true := ⟨35, { up with mem := { up.mem with scrubPassed := true, banks := vset up.mem.banks 35 { passed := true } } }, by decide +kernel⟩

theorem wit_ScrubbingGoesOn_missed : ∃ (b : Fin 36) (s : State), (vget s.mem.banks b.val).passed = false ∧ s.mem.scrubPassed = false := ⟨35, up, by decide +kernel⟩

theorem wit_OneWrongSymbolIsCorrected_last : ∃ (f d e : Nat), f < 65536 ∧ d < 2 ^ 32 ∧ 0 < e ∧ e < 16 := ⟨65535, 4294967295, 15, by decide⟩

theorem wit_SuppliesAreJudged_low : ∃ (r : Rails) (s : State), (r.vlog.toNat) < 1680 ∧ s.pwr.vlogLowIn = false := ⟨{ vlog := 1679 }, up, by decide +kernel⟩

theorem wit_SuppliesAreJudged_lowEnds : ∃ (r : Rails) (s : State), 1700 < (r.vlog.toNat) ∧ s.pwr.vlogLowIn = true := ⟨{ vlog := 1701 }, { up with pwr := { up.pwr with vlogLowIn := true } }, by decide +kernel⟩

theorem wit_SuppliesAreJudged_high : ∃ (r : Rails) (s : State), 3300 < (r.vlog.toNat) ∧ s.pwr.vlogLowIn = false ∧ s.pwr.vlogHighIn = false := ⟨{ vlog := 3301 }, up, by decide +kernel⟩

theorem wit_SuppliesAreJudged_highEnds : ∃ (r : Rails) (s : State), 1680 ≤ (r.vlog.toNat) ∧ (r.vlog.toNat) < 3250 ∧ s.pwr.vlogLowIn = false ∧ s.pwr.vlogHighIn = true := ⟨{ vlog := 3249 }, { up with pwr := { up.pwr with vlogHighIn := true } }, by decide +kernel⟩

theorem wit_SuppliesAreJudged_dip : ∃ (r : Rails) (s : State), (r.vlog.toNat) < 1500 ∧ s.md.mstate ≠ .off ∧ s.md.mstate ∈ [MState.starting, .run, .quiet, .safeHold, .fault] := ⟨{ vlog := 1499 }, up, by decide +kernel⟩

theorem wit_SuppliesAreJudged_recover : ∃ (r : Rails) (s : State), 1500 < (r.vlog.toNat) ∧ s.pwr.onHu = true ∧ s.md.mstate ≠ .shuttingDown := ⟨{ vlog := 1501 }, { up with pwr := { up.pwr with onHu := true } }, by decide +kernel⟩

theorem wit_SuppliesAreJudged_huLow : ∃ (r : Rails) (s : State), 1500 < (r.vlog.toNat) ∧ s.pwr.onHu = false ∧ r.vhu.toNat < 2700 ∧ s.pwr.huLow = false := ⟨{ vhu := 2699 }, up, by decide +kernel⟩

theorem wit_SuppliesAreJudged_huOk : ∃ (r : Rails) (s : State), 1500 < (r.vlog.toNat) ∧ s.pwr.onHu = false ∧ 2700 ≤ r.vhu.toNat := ⟨{ vhu := 2700 }, up, by decide +kernel⟩

theorem wit_SuppliesAreJudged_inhibit : ∃ (r : Rails), (r.vhu.toNat < 900 ∨ r.v3v3.toNat < 3100) := ⟨{ v3v3 := 3099 }, by decide +kernel⟩

theorem wit_SuppliesAreJudged_clear : ∃ (r : Rails), 900 ≤ r.vhu.toNat ∧ 3100 ≤ r.v3v3.toNat := ⟨{ vhu := 900, v3v3 := 3100 }, by decide +kernel⟩

theorem wit_SuppliesAreJudged_keeper : ∃ (r : Rails), r.v3v3.toNat < 2900 := ⟨{ v3v3 := 2899 }, by decide +kernel⟩

theorem wit_SuppliesAreJudged_onHuLow : ∃ (r : Rails) (s : State), s.md.mstate ∈ [MState.starting, .run, .quiet, .safeHold, .fault] ∧ ((r.vlog.toNat) < 1500 ∨ (s.pwr.onHu = true ∧ r.vhu.toNat < 2700)) := ⟨{ vhu := 2699 }, { up with pwr := { up.pwr with onHu := true } }, by decide +kernel⟩

theorem wit_SuppliesAreJudged_vcore : ∃ (r : Rails) (s : State), s.md.mstate ∈ [MState.starting, .run, .quiet, .safeHold, .fault] ∧ (r.vcore.toNat < 855 ∨ 945 < r.vcore.toNat) := ⟨{ vcore := 946 }, up, by decide +kernel⟩

theorem wit_StartUpGoesStepByStep_unpowered : ∃ (unpowered : Bool) (r : Rails) (s : State), s.md.mstate = .off ∧ 1600 < r.vlog.toNat ∧ (unpowered || s.pwr.keeperDown) = true ∧ epochAbove (maxRecorded s) < 2 ^ 64 := ⟨true, { vlog := 1601 }, inSt .off, by decide +kernel⟩

theorem wit_StartUpGoesStepByStep_powered : ∃ (unpowered : Bool) (r : Rails) (s : State), s.md.mstate = .off ∧ 1600 < r.vlog.toNat ∧ (unpowered || s.pwr.keeperDown) = false ∧ s.md.offLatched = false ∧ 3100 ≤ r.v3v3.toNat ∧ s.time.tclkRun = false := ⟨false, { vlog := 1601 }, { inSt .off with time := {} }, by decide +kernel⟩

theorem wit_StartUpGoesStepByStep_step1 : ∃ (e : StepEnv) (s : State), s.md.mstate = .starting ∧ s.md.scrapped = false ∧ e.cap = none ∧ s.md.startStep = 1 ∧ e.keeperOk = true ∧ 2700 ≤ e.rails.vhu.toNat := ⟨{}, { State.reset with md := { startStep := 1 } }, by decide +kernel⟩

theorem wit_StartUpGoesStepByStep_step1bad : ∃ (e : StepEnv) (s : State), s.md.mstate = .starting ∧ s.md.scrapped = false ∧ e.cap = none ∧ s.md.startStep = 1 ∧ e.keeperOk = false := ⟨{ keeperOk := false }, { State.reset with md := { startStep := 1 } }, by decide +kernel⟩

theorem wit_StartUpGoesStepByStep_step2 : ∃ (e : StepEnv) (s : State), s.md.mstate = .starting ∧ s.md.scrapped = false ∧ e.cap = none ∧ s.md.startStep = 2 := ⟨{}, { State.reset with md := { startStep := 2 } }, by decide +kernel⟩

theorem wit_StartUpGoesStepByStep_step3 : ∃ (e : StepEnv) (s : State), s.md.mstate = .starting ∧ s.md.scrapped = false ∧ e.cap = none ∧ s.md.startStep = 3 := ⟨{}, { State.reset with md := { startStep := 3 } }, by decide +kernel⟩

theorem wit_StartUpGoesStepByStep_step4none : ∃ (e : StepEnv) (s : State), s.md.mstate = .starting ∧ s.md.scrapped = false ∧ e.cap = none ∧ s.md.startStep = 4 ∧ bankBoots s s.sup.prefer = false ∧ bankBoots s (!s.sup.prefer) = false := ⟨{}, { State.reset with md := { startStep := 4 } }, by decide +kernel⟩

/-- A start in step 4 with a firmware file in the preferred bank. -/
def bootUp : State := { State.reset with md := { startStep := 4 }, nv := { State.reset.nv with sup := vset State.reset.nv.sup 0 [(0, 1)] } }

/-- Signed supervisor firmware above a floor of 0 boots. -/
theorem wit_StartUpGoesStepByStep_step4 (h : Config.supSigned [(0, 1)] = true) : ∃ (e : StepEnv) (s : State), s.md.mstate = .starting ∧ s.md.scrapped = false ∧ e.cap = none ∧ s.md.startStep = 4 ∧
    bankBoots s s.sup.prefer = true ∧ s.time.tclkRun = false ∧ s.time.phase < 32 :=
  ⟨{}, bootUp, rfl, rfl, rfl, rfl, by
    rw [bankBoots]
    simp only [show vget bootUp.nv.sup (b2n bootUp.sup.prefer) = [(0, 1)] from by decide +kernel, show supMin bootUp = 0 from by decide +kernel, h]
    simp, by decide +kernel, by decide +kernel⟩

theorem wit_StartUpGoesStepByStep_step8 : ∃ (e : StepEnv) (s : State), s.md.mstate = .starting ∧ s.md.scrapped = false ∧ e.cap = none ∧ s.md.startStep = 8 := ⟨{}, { State.reset with md := { startStep := 8 } }, by decide +kernel⟩

theorem wit_StartUpGoesStepByStep_step9 : ∃ (e : StepEnv) (s : State), s.md.mstate = .starting ∧ s.md.scrapped = false ∧ e.cap = none ∧ s.md.startStep = 9 := ⟨{}, { State.reset with md := { startStep := 9 } }, by decide +kernel⟩

theorem wit_StartUpGoesStepByStep_step10 : ∃ (e : StepEnv) (s : State), s.md.mstate = .starting ∧ s.md.scrapped = false ∧ e.cap = none ∧ s.md.startStep = 10 := ⟨{}, { State.reset with md := { startStep := 10 } }, by decide +kernel⟩

theorem wit_StartUpGoesStepByStep_run : ∃ (s : State), cyclesRun s = true ∧ s.cyc.open_ = false ∧ s.cyc.p3Due = false ∧ startReady (advanceTo s.cyc.nextT0 s) = true ∧ s.md.holdPend = [] := ⟨{ runs with md := { startStep := 11, committedCycles := 16, firstT0 := some 30000000, holdPend := [] }, cyc := { runs.cyc with guard := { run := 2 } }, lane := { up.lane with lls := vset up.lane.lls 0 { lane := some 0 } }, out := { up.out with grps := Vector.replicate 2 { startOk := true } } }, by decide +kernel⟩

theorem wit_StartUpGoesStepByStep_safeHold : ∃ (s : State) (c : Byte) (l : List Byte), cyclesRun s = true ∧ s.cyc.open_ = false ∧ s.cyc.p3Due = false ∧ startReady (advanceTo s.cyc.nextT0 s) = true ∧ s.md.holdPend = c :: l := ⟨{ runs with md := { startStep := 11, committedCycles := 16, firstT0 := some 30000000, holdPend := [0x12] }, cyc := { runs.cyc with guard := { run := 2 } }, lane := { up.lane with lls := vset up.lane.lls 0 { lane := some 0 } }, out := { up.out with grps := Vector.replicate 2 { startOk := true } } }, 0x12, [], by decide +kernel⟩

theorem wit_ShutDownEnds_enter : ∃ (k : ShutKind) (s : State), s.md.shutReq = some k ∧ s.md.mstate ∈ [MState.starting, .run, .quiet, .safeHold, .fault] := ⟨.kpReset, { up with md := { up.md with shutReq := some .kpReset } }, by decide +kernel⟩

theorem wit_ShutDownEnds_bist : ∃ (s : State), s.md.shutBist = true ∧ s.cyc.running = false := ⟨{ up with md := { up.md with mstate := .shuttingDown, shut := some .kpReset, shutBist := true } }, by decide +kernel⟩

theorem wit_ShutDownEnds_noBist : ∃ (s : State), s.md.shutBist = false := ⟨up, by decide +kernel⟩

theorem wit_ShutDownEnds_ends : ∃ (k : ShutKind) (s : State), s.md.mstate = .shuttingDown ∧ s.md.shut = some k ∧ s.cyc.running = false := ⟨.kpReset, { up with md := { up.md with mstate := .shuttingDown, shut := some .kpReset } }, by decide +kernel⟩

theorem wit_LedsShowTheModule_held : ∃ (s : State), s.md.ledHold = some { run := .flash } :=
  ⟨{ up with md := { up.md with ledHold := some { run := .flash } } }, by decide +kernel⟩

theorem wit_LedsShowTheModule_starts : ∃ (s : State), s.md.ledHold = none ∧ s.md.mstate ≠ .off ∧ now s < s.md.ledStart + 3200000 :=
  ⟨{ inSt .starting with md := { up.md with mstate := .starting, ledStart := 28800001 } }, by decide +kernel⟩

theorem wit_LedsShowTheModule_opens : ∃ (s : State), s.md.ledHold = none ∧ ¬(s.md.mstate ≠ .off ∧ now s < s.md.ledStart + 3200000) ∧ s.md.ledWindow = some 16000001 ∧ now s < 16000001 + 16000000 :=
  ⟨{ up with md := { up.md with ledWindow := some 16000001 } }, by decide +kernel⟩

theorem wit_LedsShowTheModule_runOk : ∃ (s : State), s.md.ledHold = none ∧ ¬(s.md.mstate ≠ .off ∧ now s < s.md.ledStart + 3200000) ∧ s.md.ledWindow = none ∧ s.md.mstate = .run ∧ windowOpen s = false ∧ ¬((∃ g < 2, (vget s.out.grps g).master = false) ∨ s.cyc.llSafe ≠ 0) ∧ s.md.safeSeen = none ∧ degraded s = true :=
  ⟨{ up with out := { up.out with grps := Vector.replicate 2 { master := true } } }, by decide +kernel⟩

theorem wit_LedsShowTheModule_runHeld : ∃ (s : State), s.md.ledHold = none ∧ ¬(s.md.mstate ≠ .off ∧ now s < s.md.ledStart + 3200000) ∧ s.md.ledWindow = none ∧ s.md.mstate = .run ∧ s.md.safeSeen = some 16000001 ∧ now s < 16000001 + 16000000 :=
  ⟨{ up with md := { up.md with safeSeen := some 16000001 }, out := { up.out with grps := Vector.replicate 2 { master := true } } }, by decide +kernel⟩

theorem wit_LedsShowTheModule_window : ∃ (s : State), s.md.ledHold = none ∧ ¬(s.md.mstate ≠ .off ∧ now s < s.md.ledStart + 3200000) ∧ s.md.ledWindow = none ∧ windowOpen s = true ∧ s.md.mstate ≠ .off ∧ s.md.mstate ≠ .shuttingDown :=
  ⟨{ win up with md := { up.md with ledWindow := none } }, by decide +kernel⟩

theorem wit_LedsShowTheModule_scrapped : ∃ (s : State), s.md.ledHold = none ∧ ¬(s.md.mstate ≠ .off ∧ now s < s.md.ledStart + 3200000) ∧ s.md.ledWindow = none ∧ s.md.mstate = .starting ∧ s.md.scrapped = true :=
  ⟨{ inSt .starting with md := { up.md with mstate := .starting, scrapped := true } }, by decide +kernel⟩

theorem wit_step : ∃ t, step { up with pending := [.hrst] } = .next t := ⟨_, rfl⟩

theorem wit_MemoriesStayCanonical_up : State.canon up ∧ mastersOpen up = true := by unfold State.canon; decide +kernel

end Sys2Proof.Tests
end

section
/-! PROOFS. Frames, tables and committed cells, for every architecture statement (01). -/

-- One declaration after the other: side by side, their threads' stacks need more memory than the check allows.
set_option Elab.async false

namespace Sys2Proof.Machine

/-! ### Frames compose -/

section
variable {T U : List Blk} {s t u : State}

/-- A frame goes on over an operation that changes no other block. -/
theorem onlyChanges.next (h1 : onlyChanges T s t) (h2 : onlyChanges U t u) (hU : U.all (T.contains ·) = true := by decide) : onlyChanges T s u :=
  h1.trans (h2.mono hU)

/-- A frame of fewer blocks is a frame of more. -/
theorem onlyChanges.wider (h : onlyChanges U s t) (hU : U.all (T.contains ·) = true := by decide) : onlyChanges T s t := h.mono hU

theorem onlyChanges.foldl {α : Type} {f : State → α → State} (hf : ∀ s a, onlyChanges T s (f s a)) (l : List α) (s : State) :
    onlyChanges T s (l.foldl f s) := by
  induction l generalizing s with
  | nil => exact .refl T s
  | cons a l ih => exact (hf s a).trans (ih (f s a))

end

/-- What an operation keeps, a fold of it keeps. -/
theorem foldl_keeps {α β σ : Type} (p : σ → β) {f : σ → α → σ} (hf : ∀ s a, p (f s a) = p s) (l : List α) (s : σ) : p (l.foldl f s) = p s := by
  induction l generalizing s with
  | nil => rfl
  | cons a l ih => exact (ih (f s a)).trans (hf s a)

/-! ### Tables -/

section
variable {α β : Type} [Inhabited α] [Inhabited β] {n i j : Nat} {v : Vector α n}

theorem vget_of_lt (h : i < n) : vget v i = v[i] := dif_pos h

theorem vget_map {f : α → β} (h : i < n) : vget (v.map f) i = f (vget v i) := by simp [vget_of_lt h]

theorem vget_vset_same {a : α} (h : i < n) : vget (vset v i a) i = a := by simp [vget_of_lt h, vset, h]

theorem vget_vset_other {a : α} (h : j ≠ i) : vget (vset v i a) j = vget v j := by
  unfold vset
  split
  · unfold vget
    split
    · exact Vector.getElem_set_ne _ _ (Ne.symm h)
    · rfl
  · rfl

theorem vall_iff {p : α → Bool} : vall v p = true ↔ ∀ i < n, p (vget v i) = true := by
  simp only [vall, List.all_eq_true, Vector.mem_toList_iff, Vector.mem_iff_getElem]
  constructor
  · intro h i hi
    exact vget_of_lt (v := v) hi ▸ h _ ⟨i, hi, rfl⟩
  · rintro h _ ⟨i, hi, rfl⟩
    exact vget_of_lt (v := v) hi ▸ h i hi

end

/-! ### Cells committed 0 stay so -/

/-- From `s` to `t` the committed cells stay in canonical form, and every cell of `p` that was committed 0 still is. -/
structure KeepsZero (p : Nat → Prop) (s t : State) : Prop where
  wf : Mem.wf 0 s.cyc.committed = true → Mem.wf 0 t.cyc.committed = true
  zero : Mem.wf 0 s.cyc.committed = true → ∀ c, p c → Mem.read 0 s.cyc.committed c = 0 → Mem.read 0 t.cyc.committed c = 0

section
variable {p : Nat → Prop} {s t u : State} {c : Nat} {v : Word} {l : List Nat}

theorem KeepsZero.of_eq (h : t.cyc.committed = s.cyc.committed) : KeepsZero p s t where
  wf hw := by rwa [h]
  zero _ _ _ hz := by rwa [h]

theorem KeepsZero.trans (h1 : KeepsZero p s t) (h2 : KeepsZero p t u) : KeepsZero p s u where
  wf hw := h2.wf (h1.wf hw)
  zero hw c hc hz := h2.zero (h1.wf hw) c hc (h1.zero hw c hc hz)

theorem KeepsZero.foldl {α : Type} {f : State → α → State} (hf : ∀ s a, KeepsZero p s (f s a)) (l : List α) (s : State) : KeepsZero p s (l.foldl f s) := by
  induction l generalizing s with
  | nil => exact .of_eq rfl
  | cons a l ih => exact (hf s a).trans (ih (f s a))

theorem commitCell_frame : onlyChanges [.cyc] s (commitCell c v s) := by
  intro b hb
  cases b <;> simp_all [Blk.same, commitCell]

theorem commitCell_keepsZero (h : p c → v = 0) : KeepsZero p s (commitCell c v s) where
  wf hw := Mem.wf_write _ _ hw
  zero hw x hx hz := by
    by_cases hc : x = c
    · subst hc
      exact (Mem.read_write_same _ _ _ hw).trans (h hx)
    · exact (Mem.read_write_other v hc hw).trans hz

theorem commitZero_frame : onlyChanges [.cyc] s (commitZero l s) := onlyChanges.foldl (fun _ _ => commitCell_frame) l s

theorem commitZero_keepsZero : KeepsZero p s (commitZero l s) := KeepsZero.foldl (fun _ _ => commitCell_keepsZero fun _ => rfl) l s

/-- Every cell of the list is committed 0. -/
theorem commitZero_read (hw : Mem.wf 0 s.cyc.committed = true) (hc : c ∈ l) : Mem.read 0 (commitZero l s).cyc.committed c = 0 := by
  induction l generalizing s with
  | nil => exact absurd hc List.not_mem_nil
  | cons a l ih =>
    have hw1 : Mem.wf 0 (commitCell a 0 s).cyc.committed = true := Mem.wf_write _ _ hw
    rcases List.mem_cons.1 hc with rfl | hc
    · exact (commitZero_keepsZero (p := fun _ => True)).zero hw1 c trivial (Mem.read_write_same _ _ _ hw)
    · exact ih hw1 hc

end

end Sys2Proof.Machine
end

section
/-! PROOFS. What the architecture statements (01) need of completions, of the supervisor's states and of the passage of time, and O36. -/

-- One declaration after the other: side by side, their threads' stacks need more memory than the check allows.
set_option Elab.async false

namespace Sys2Proof.Machine

/-! ### Completions -/

section
variable {q : Req} {op : Nat} {st : Status} {res : List Byte} {buf : Option (List Byte)} {restart : Bool} {l : List Req} {s : State}

theorem sbRespond_frame {tag : Half} {cmd : Nat} {p : List Byte} : onlyChanges [.keep] s (sbRespond tag cmd p s) := by
  intro b hb
  cases b <;> simp_all [Blk.same, sbRespond]

theorem untake_frame : onlyChanges [.sup, .hp] s (untake q s) := by
  intro b hb
  cases hq : q.src with
  | ring r => rw [untake_ring hq]; cases b <;> simp_all [Blk.same]
  | sideband => simp only [untake, hq]; cases b <;> simp_all [Blk.same]

theorem untake_sup : (untake q s).sup = { s.sup with taken := s.sup.taken.filter fun t => !t.isOf q } := by
  cases hq : q.src with
  | ring r => rw [untake_ring hq]
  | sideband => simp only [untake, hq]

@[simp] theorem untake_evt : (untake q s).hp.evt = s.hp.evt := by
  cases hq : q.src with
  | ring r => rw [untake_ring hq]
  | sideband => simp only [untake, hq]

theorem bufferWrite_frame {a : Nat} {d : List Byte} : onlyChanges [.hp] s (bufferWrite a d s) := by
  intro b hb
  unfold bufferWrite busWrite
  split <;> cases b <;> simp_all [Blk.same]

@[simp] theorem bufferWrite_evt {a : Nat} {d : List Byte} : (bufferWrite a d s).hp.evt = s.hp.evt := by
  unfold bufferWrite busWrite
  split <;> rfl

/-- A completion: what `untake` leaves, a response or the results written, and at most a completion that waits for its ring. -/
theorem completeWith_cases : ∃ u, (u = untake q s ∨ ∃ d, u = bufferWrite q.obuf.1 d (untake q s)) ∧
    ((∃ c p, completeWith q op st res buf restart s = sbRespond q.tag c p (untake q s)) ∨ completeWith q op st res buf restart s = u ∨
      ∃ c, completeWith q op st res buf restart s = { u with hp := { u.hp with cpls := u.hp.cpls ++ [c] } }) := by
  unfold completeWith
  cases q.src with
  | sideband => exact ⟨_, .inl rfl, .inl ⟨_, _, rfl⟩⟩
  | ring r =>
    dsimp only
    cases buf with
    | none =>
      refine ⟨_, .inl rfl, .inr ?_⟩
      split
      · exact .inl rfl
      · exact .inr ⟨_, rfl⟩
    | some d =>
      refine ⟨_, .inr ⟨d, rfl⟩, .inr ?_⟩
      split
      · exact .inl rfl
      · exact .inr ⟨_, rfl⟩

theorem completeWith_frame : onlyChanges [.sup, .hp, .keep] s (completeWith q op st res buf restart s) := by
  have hu : onlyChanges [.sup, .hp, .keep] s (untake q s) := untake_frame.wider
  obtain ⟨u, h, hc⟩ := completeWith_cases (q := q) (op := op) (st := st) (res := res) (buf := buf) (restart := restart) (s := s)
  have h : onlyChanges [.sup, .hp, .keep] s u := by
    obtain rfl | ⟨d, rfl⟩ := h
    · exact hu
    · exact hu.next bufferWrite_frame
  obtain ⟨c, p, e⟩ | e | ⟨c, e⟩ := hc <;> rw [e]
  · exact hu.next sbRespond_frame
  · exact h
  · exact h.trans (onlyChanges.of fun b => by cases b <;> simp [Blk.same])

/-- A completed command has left the list of commands taken; nothing else of the supervisor changes. -/
theorem completeWith_sup : (completeWith q op st res buf restart s).sup = { s.sup with taken := s.sup.taken.filter fun t => !t.isOf q } := by
  rw [← untake_sup]
  obtain ⟨u, h, hc⟩ := completeWith_cases (q := q) (op := op) (st := st) (res := res) (buf := buf) (restart := restart) (s := s)
  have h : u.sup = (untake q s).sup := by
    obtain rfl | ⟨d, rfl⟩ := h
    · rfl
    · exact bufferWrite_frame .sup (by decide)
  obtain ⟨c, p, e⟩ | e | ⟨c, e⟩ := hc <;> rw [e]
  · exact sbRespond_frame .sup (by decide)
  · exact h
  · exact h

@[simp] theorem completeWith_evt : (completeWith q op st res buf restart s).hp.evt = s.hp.evt := by
  obtain ⟨u, h, hc⟩ := completeWith_cases (q := q) (op := op) (st := st) (res := res) (buf := buf) (restart := restart) (s := s)
  have h : u.hp.evt = s.hp.evt := by obtain rfl | ⟨d, rfl⟩ := h <;> simp
  obtain ⟨c, p, e⟩ | e | ⟨c, e⟩ := hc <;> rw [e]
  · exact untake_evt
  · exact h
  · exact h

theorem complete_frame : onlyChanges [.sup, .hp, .keep] s (complete q op st res s) := by
  unfold complete
  split
  · exact completeWith_frame
  · split
    · exact onlyChanges.of fun b => by cases b <;> simp [Blk.same]
    · exact .refl _ s

theorem allWrong_frame : onlyChanges [.sup, .hp, .keep] s (allWrong l s) :=
  onlyChanges.foldl (fun _ _ => complete_frame) l s

end

/-! ### Events leave the port's registers -/

section
variable {β : Type} {p : HpBlk → β} {code inst : Nat} {data : List Byte} {s : State}

theorem writeEntry_keepsHp (hp : ∀ h l, p { h with events := l } = p h) {x : EvEntry} : p (writeEntry x s).hp = p s.hp := by
  unfold writeEntry
  dsimp only
  repeat' split
  all_goals simp [hostEvent, hp]

theorem writeAll_keepsHp (hp : ∀ h l, p { h with events := l } = p h) {n : Nat} : p (writeAll n s).hp = p s.hp := by
  induction n generalizing s with
  | zero => rfl
  | succ n ih =>
    unfold writeAll
    split
    · rfl
    · rw [ih, writeEntry_keepsHp hp]

/-- An event can put host events to the posting, and leaves the rest of the port as it is. -/
theorem postEv_keepsHp (hp : ∀ h l, p { h with events := l } = p h) : p (postEv code inst data s).hp = p s.hp := by
  unfold postEv
  split
  · rfl
  · dsimp only
    split
    · exact writeAll_keepsHp hp
    · rfl

end

/-! ### The supervisor's states -/

section
variable {n : SupState} {s : State}

theorem supChange_same (h : n = s.sup.sup) : supChange n s = s := if_pos h

theorem supChange_frame : onlyChanges [.sup, .evr, .hp, .keep, .mem] s (supChange n s) := by
  by_cases h : n = s.sup.sup
  · rw [supChange_same h]; exact .refl _ s
  · intro b hb
    unfold supChange
    rw [if_neg h]
    dsimp only
    split <;> split <;> cases b <;> simp_all [Blk.same]

/-- A change of the supervisor's state is nothing else of the supervisor. -/
theorem supChange_sup : (supChange n s).sup = { s.sup with sup := n } := by
  by_cases h : n = s.sup.sup
  · rw [supChange_same h, h]
  · unfold supChange
    rw [if_neg h]
    dsimp only
    split <;> split <;> simp

/-- A change of the supervisor's state shows in `HP_EVT` bit 1 (R313, R315). -/
theorem supChange_evt (h : n ≠ s.sup.sup) : (supChange n s).hp.evt = s.hp.evt ||| BitVec.twoPow 32 1 := by
  have hp (code inst data s) : (postEv code inst data s).hp.evt = s.hp.evt := postEv_keepsHp (p := (·.evt)) fun _ _ => rfl
  unfold supChange
  rw [if_neg h]
  dsimp only
  split <;> split <;> simp [hpEvt, hostEvent, hp]

/-- Beside its flags and host events a change of the supervisor's state leaves the port as it is. -/
theorem supChange_keepsHp {β : Type} {p : HpBlk → β} (hp : ∀ h e l, p { h with evt := e, events := l } = p h) : p (supChange n s).hp = p s.hp := by
  have he (code inst data s) : p (postEv code inst data s).hp = p s.hp := postEv_keepsHp fun h l => hp h h.evt l
  by_cases h : n = s.sup.sup
  · rw [supChange_same h]
  · unfold supChange
    rw [if_neg h]
    dsimp only
    split <;> split <;> simp [hpEvt, hostEvent, he, hp]

theorem supForget_frame : onlyChanges [.sess, .evr] s (supForget s) := by
  intro b hb
  cases b <;> simp_all [Blk.same, supForget]

theorem supStop_frame : onlyChanges [.sup, .evr, .hp, .keep, .mem, .sess] s (supStop n s) := by
  unfold supStop
  split
  · exact supChange_frame.wider.next supForget_frame
  · exact supChange_frame.wider

theorem supStop_sup : (supStop n s).sup = { s.sup with sup := n } := by
  unfold supStop
  split
  · exact supChange_sup
  · exact supChange_sup

end

/-- Who does not serve has nothing staged to lose. -/
theorem supStop_of_not_serving {n : SupState} {s : State} (h : s.sup.sup ≠ .serving) : supStop n s = supChange n s := if_neg h

theorem StopKind.state_ne (k : StopKind) : k.state ≠ .serving := by cases k <;> decide

/-! ### Serving again -/

section
variable {q : Req} {t : Taken} {s : State}

theorem voidCommit_frame : onlyChanges [.nv, .sess, .cyc] s (voidCommit s) := by
  unfold voidCommit
  split
  · exact .refl _ s
  · exact onlyChanges.of fun b => by cases b <;> simp [Blk.same]

/-- A void commit announces no period; what is committed stays. -/
theorem voidCommit_committed : (voidCommit s).cyc.committed = s.cyc.committed := by
  unfold voidCommit
  split <;> rfl

theorem withdraw_frame : onlyChanges [.sup, .nv, .sess, .cyc] s (withdraw q s) := by
  unfold withdraw
  dsimp only
  split
  · exact (onlyChanges.of fun b => by cases b <;> simp [Blk.same]).next voidCommit_frame
  · exact onlyChanges.of fun b => by cases b <;> simp [Blk.same]

theorem withdraw_sup : (withdraw q s).sup.sup = s.sup.sup ∧ (withdraw q s).sup.taken = s.sup.taken := by
  have hv (s) : (voidCommit s).sup = s.sup := voidCommit_frame .sup (by decide)
  unfold withdraw
  dsimp only
  split
  · rw [hv]; exact ⟨rfl, rfl⟩
  · exact ⟨rfl, rfl⟩

theorem withdraw_committed : (withdraw q s).cyc.committed = s.cyc.committed := by
  unfold withdraw
  dsimp only
  split
  · exact voidCommit_committed
  · rfl

/-- A command that was executing when the supervisor stopped completes, withdrawn or not (R315, R441). -/
theorem afterStop_cases : ∃ q op st res u, t.isOf q = true ∧ (u = s ∨ u = withdraw q s) ∧ afterStop t s = completeWith q op st res none false u := by
  have hself : t.isOf { src := t.src, tag := t.tag } = true := by simp [Taken.isOf]
  unfold afterStop
  split
  next q hq => exact ⟨q, _, _, _, s, by simpa using List.find?_some hq, .inl rfl, rfl⟩
  · dsimp only
    split
    next w _ =>
      split
      next hw =>
        split
        · exact ⟨w, _, _, _, s, hw, .inl rfl, rfl⟩
        · exact ⟨w, _, _, _, s, hw, .inl rfl, rfl⟩
      · exact ⟨_, _, _, _, _, hself, .inr rfl, rfl⟩
    · exact ⟨_, _, _, _, _, hself, .inr rfl, rfl⟩

theorem afterStop_frame : onlyChanges [.sup, .hp, .keep, .nv, .sess, .cyc] s (afterStop t s) := by
  obtain ⟨q, op, st, res, u, -, hu, e⟩ := afterStop_cases (t := t) (s := s)
  rw [e]
  obtain rfl | rfl := hu
  · exact completeWith_frame.wider
  · exact withdraw_frame.wider.next completeWith_frame

/-- A command completed after a stop has left the list of commands taken, and none enters it. -/
theorem afterStop_taken : ∀ x ∈ (afterStop t s).sup.taken, x ∈ s.sup.taken ∧ x ≠ t := by
  obtain ⟨q, op, st, res, u, ht, hu, e⟩ := afterStop_cases (t := t) (s := s)
  have htk : u.sup.taken = s.sup.taken := by
    obtain rfl | rfl := hu
    · rfl
    · exact withdraw_sup.2
  intro x hx
  rw [e, completeWith_sup, List.mem_filter, htk] at hx
  refine ⟨hx.1, ?_⟩
  rintro rfl
  simp [ht] at hx

/-- What a completion after a stop keeps: the supervisor's state, the port's event flags, the committed outputs. -/
theorem afterStop_keeps : ((afterStop t s).sup.sup, (afterStop t s).hp.evt, (afterStop t s).cyc.committed) = (s.sup.sup, s.hp.evt, s.cyc.committed) := by
  obtain ⟨q, op, st, res, u, -, hu, e⟩ := afterStop_cases (t := t) (s := s)
  have hc : (completeWith q op st res none false u).cyc = u.cyc := completeWith_frame .cyc (by decide)
  rw [e, hc, completeWith_evt, completeWith_sup]
  obtain rfl | rfl := hu
  · rfl
  · have hw : (withdraw q s).hp = s.hp := withdraw_frame .hp (by decide)
    simp only [withdraw_sup.1, withdraw_committed, hw]

end

/-- Once every command that was executing has completed, none stands taken. -/
theorem foldl_afterStop_taken (l : List Taken) (s : State) : ∀ x ∈ (l.foldl (fun s t => afterStop t s) s).sup.taken, x ∈ s.sup.taken ∧ x ∉ l := by
  induction l generalizing s with
  | nil => exact fun x hx => ⟨hx, List.not_mem_nil⟩
  | cons t l ih =>
    intro x hx
    obtain ⟨h1, h2⟩ := ih (afterStop t s) x hx
    obtain ⟨h3, h4⟩ := afterStop_taken x h1
    exact ⟨h3, by simp [h4, h2]⟩

/-- The supervisor serves again: what was taken has completed, and the rest of its work is gone (R315, R441). -/
theorem supServe_spec {s : State} (h : s.sup.sup ≠ .serving) :
    (supServe s).sup.sup = .serving ∧ (supServe s).sup.taken = [] ∧ (supServe s).sup.committed = [] ∧ (supServe s).sup.switchDue = none ∧
    (supServe s).hp.evt = s.hp.evt ||| BitVec.twoPow 32 1 ∧ (supServe s).cyc.committed = s.cyc.committed ∧
    onlyChanges [.cyc, .evr, .hp, .keep, .mem, .nv, .sess, .sup] s (supServe s) := by
  have hc : (supChange .serving s).cyc = s.cyc := supChange_frame .cyc (by decide)
  have hk := foldl_keeps (fun s => (s.sup.sup, s.hp.evt, s.cyc.committed)) (f := fun s t => afterStop t s) (fun _ _ => afterStop_keeps)
    (supChange .serving s).sup.taken (supChange .serving s)
  have ht := foldl_afterStop_taken (supChange .serving s).sup.taken (supChange .serving s)
  simp only [Prod.mk.injEq, supChange_evt (Ne.symm h), hc, supChange_sup] at hk ht
  obtain ⟨hsup, hevt, hcom⟩ := hk
  unfold supServe
  rw [if_neg h]
  refine ⟨by simpa [supChange_sup] using hsup, ?_, rfl, rfl, by simpa [supChange_sup] using hevt, by simpa [supChange_sup] using hcom, ?_⟩
  · simp only [supChange_sup]
    exact List.eq_nil_iff_forall_not_mem.2 fun x hx => (ht x hx).2 (ht x hx).1
  · have hf := onlyChanges.foldl (f := fun s t => afterStop t s) (fun _ _ => afterStop_frame) (supChange .serving s).sup.taken (supChange .serving s)
    refine onlyChanges.trans (supChange_frame.wider.next hf) (onlyChanges.of fun b => ?_)
    cases b <;> simp [Blk.same]

/-! ### Time passes -/

section
variable {k d t : Nat} {x : EdgeIn} {s : State}

theorem tclkEdge_frame : onlyChanges [.time, .tmr] s (tclkEdge x s) := by
  intro b hb
  cases b <;> simp_all [Blk.same, tclkEdge]

theorem runTo_frame : onlyChanges [.time, .tmr] s (runTo d s) := by
  unfold runTo
  split
  · exact tclkEdge_frame
  · exact tclkEdge_frame.trans tclkEdge_frame

theorem runTicks_frame (f : Nat) : onlyChanges [.time, .tmr] s (runTicks f k s) := by
  induction f generalizing k s with
  | zero => exact .refl _ s
  | succ f ih =>
    unfold runTicks
    split
    · exact .refl _ s
    · exact runTo_frame.trans ih

theorem advance_frame : onlyChanges [.time, .tmr] s (advance k s) := by
  unfold advance
  split
  · exact runTicks_frame k
  · exact onlyChanges.of fun b => by cases b <;> simp [Blk.same]

/-- The passage of time changes TBASE, SCLK and the timer channels alone. -/
theorem advanceTo_frame : onlyChanges [.time, .tmr] s (advanceTo t s) := advance_frame

end

/-- A supervisor that stops serving loses what it had staged and its Loupe cursors, and says so in `HP_EVT` and a host event; completions, rings
and streams of the port stay (R14, R315, R422). -/
theorem supStop_serving {n : SupState} {s : State} (h : s.sup.sup = .serving) (hn : n ≠ .serving) :
    (supStop n s).sess.cfg = none ∧ (supStop n s).sess.cal = none ∧ (supStop n s).sess.params = [] ∧ (supStop n s).sess.owner = s.sess.owner ∧
    (supStop n s).evr.cursors = Vector.replicate 8 none ∧ (supStop n s).hp.evt.getLsbD 1 = true ∧ (supStop n s).hp.cpls = s.hp.cpls ∧
    (supStop n s).hp.rings = s.hp.rings ∧ (supStop n s).hp.streams = s.hp.streams := by
  have hsess : (supChange n s).sess = s.sess := supChange_frame .sess (by decide)
  have hevt : (supChange n s).hp.evt.getLsbD 1 = true := by rw [supChange_evt (h ▸ hn)]; simp
  rw [supStop, if_pos h]
  have howner : (supForget (supChange n s)).sess.owner = s.sess.owner := by rw [← hsess]; rfl
  exact ⟨rfl, rfl, rfl, howner, rfl, hevt, supChange_keepsHp (p := (·.cpls)) fun _ _ _ => rfl,
    supChange_keepsHp (p := (·.rings)) fun _ _ _ => rfl, supChange_keepsHp (p := (·.streams)) fun _ _ _ => rfl⟩

/-- The supervisor's banks once the keeper has given up the preferred one (R441). -/
def toOtherBank (s : State) : State :=
  { s with sup := { s.sup with bank := !s.sup.bank, prefer := !s.sup.bank, switchDue := none, switchFailed := true, otherChecked := false } }

/-- The restart that the keeper forces; one that finds the supervisor restarting already is only journaled (R376, R441). -/
def keeperRestart (d : List Byte) (s : State) : State := if s.sup.sup = .restarting then journal 0x0006 3 d s else supChange .restarting s

theorem keeperRestart_sup {d : List Byte} {s : State} : (keeperRestart d s).sup = { s.sup with sup := .restarting } := by
  unfold keeperRestart
  split
  next h => simp [← h]
  next h => exact supChange_sup

theorem keeperRestart_frame {d : List Byte} {s : State} : onlyChanges [.sup, .evr, .hp, .keep, .mem] s (keeperRestart d s) := by
  unfold keeperRestart
  split
  · exact onlyChanges.wider (journal_frame _ _ _ s)
  · exact supChange_frame

theorem execSupSwitchTimeout_eq {d : Nat} {s : State} (h : s.sup.switchDue = some d) :
    ∃ data, execSupSwitchTimeout s = .next (keeperRestart data (toOtherBank (advanceTo d s))) := by
  unfold execSupSwitchTimeout
  simp only [h]
  exact ⟨_, rfl⟩

/-- The keeper leaves a bank that does not serve in time for the other one (R441). -/
theorem execSupSwitchTimeout_spec {d : Nat} {s : State} (h : s.sup.switchDue = some d) : ∃ t, execSupSwitchTimeout s = .next t ∧
    t.sup = { s.sup with sup := .restarting, bank := !s.sup.bank, prefer := !s.sup.bank, switchDue := none, switchFailed := true, otherChecked := false } ∧
    onlyChanges [.evr, .hp, .keep, .mem, .sup, .time, .tmr] s t := by
  obtain ⟨data, e⟩ := execSupSwitchTimeout_eq h
  have hs : (advanceTo d s).sup = s.sup := advanceTo_frame .sup (by decide)
  have hb : onlyChanges [.sup] (advanceTo d s) (toOtherBank (advanceTo d s)) := by
    intro b hb
    cases b <;> simp_all [Blk.same, toOtherBank]
  refine ⟨_, e, ?_, (advanceTo_frame.wider.next hb).next keeperRestart_frame⟩
  rw [keeperRestart_sup]
  simp only [toOtherBank, hs]

/-- A lost lock of the supervisor PLL halts the supervisor (R467). -/
theorem supUnlock_lost {s : State} (h : s.pwr.supLock = true) : (supUnlock false s).sup = { s.sup with sup := .halted } ∧
    (supUnlock false s).pwr = { s.pwr with supLock := false, evt := s.pwr.evt ||| BitVec.twoPow 32 8 } ∧
    onlyChanges [.evr, .hp, .keep, .mem, .pwr, .sess, .sup] s (supUnlock false s) := by
  have hu : supUnlock false s = supStop .halted (pwrEvt 8 { s with pwr := { s.pwr with supLock := false } }) := by simp [supUnlock, h]
  rw [hu]
  refine ⟨supStop_sup, supStop_frame .pwr (by decide), onlyChanges.next (onlyChanges.of fun b => ?_) supStop_frame⟩
  cases b <;> simp [Blk.same, pwrEvt]

/-- With its lock back a halted supervisor restarts (R467). -/
theorem supUnlock_back {s : State} (h1 : s.pwr.supLock = false) (h2 : s.pwr.xoOk = true) (h3 : s.sup.sup = .halted) :
    (supUnlock true s).sup = { s.sup with sup := .restarting } ∧ (supUnlock true s).pwr = { s.pwr with supLock := true, supPllOff := false } ∧
    onlyChanges [.evr, .hp, .keep, .mem, .pwr, .sup] s (supUnlock true s) := by
  have hu : supUnlock true s = supChange .restarting { s with pwr := { s.pwr with supLock := true, supPllOff := false } } := by
    simp [supUnlock, h1, h2, h3, supStop_of_not_serving]
  rw [hu]
  refine ⟨supChange_sup, supChange_frame .pwr (by decide), onlyChanges.next (onlyChanges.of fun b => ?_) supChange_frame⟩
  cases b <;> simp [Blk.same]

/-- Settles O36: each row is `supChange`, with what the stop, the restart or the clock adds to it; the commands in progress leave the list
one by one as the supervisor serves again. -/
theorem supervisorStates : Obligations.SupervisorStates := by
  intro k s
  refine ⟨fun h => ?_, fun h hr => ?_, fun d h => execSupSwitchTimeout_spec h, fun h1 h2 h3 h4 => ?_, fun h => ?_, fun h => ⟨_, rfl, supUnlock_lost h⟩,
    fun h1 h2 h3 => ⟨_, rfl, supUnlock_back h1 h2 h3⟩⟩
  · obtain ⟨h1, h2, h3, h4, h5, h6, h7, h8, h9⟩ := supStop_serving h k.state_ne
    exact ⟨_, rfl, supStop_sup, h1, h2, h3, h4, h5, h6, h7, h8, h9, supStop_frame.wider⟩
  · obtain ⟨h1, h2, h3, h4, h5, h6, h7⟩ := supServe_spec h
    refine ⟨supServe s, ?_, h1, h2, h3, h4, by rw [h5]; simp, h6, h7⟩
    simp [exec, execSupervisorServing, hr]
  · simp [exec, execSupPllIdleStop, h1, h2, h3, h4]
  · simp [exec, execSupPllWake, h]

end Sys2Proof.Machine
end

section
/-! PROOFS. Group masters and entry to `FAULT` (R19, R195, R197). -/

-- One declaration after the other: side by side, their threads' stacks need more memory than the check allows.
set_option Elab.async false

namespace Sys2Proof.Machine

/-! ### Group masters open -/

section
variable {g j cause code : Nat} {s : State}

theorem openMaster_frame : onlyChanges [.out, .evr, .keep, .mem, .hp] s (openMaster g cause code s) := by
  unfold openMaster
  dsimp only
  split
  · exact onlyChanges.of fun b => by cases b <;> simp [Blk.same]
  · exact onlyChanges.of fun b => by cases b <;> simp [Blk.same]

/-- A master that opens is open, and no other changes. -/
theorem openMaster_grps : ∃ x : Grp, x.master = false ∧ (openMaster g cause code s).out.grps = vset s.out.grps g x := by
  unfold openMaster
  dsimp only
  split
  · exact ⟨_, rfl, rfl⟩
  · simp only [postEv_out]
    exact ⟨_, by rfl, rfl⟩

theorem openMasters_frame : onlyChanges [.out, .evr, .keep, .mem, .hp] s (openMasters cause code s) := openMaster_frame.trans openMaster_frame

theorem openMasters_open : mastersOpen (openMasters cause code s) = true := by
  obtain ⟨x, hx, e0⟩ := openMaster_grps (g := 0) (cause := cause) (code := code) (s := s)
  obtain ⟨y, hy, e1⟩ := openMaster_grps (g := 1) (cause := cause) (code := code) (s := openMaster 0 cause code s)
  refine vall_iff.2 fun i hi => ?_
  rw [openMasters, e1, e0]
  obtain rfl | rfl : i = 0 ∨ i = 1 := by omega
  · rw [vget_vset_other (by decide), vget_vset_same (by decide), hx]; rfl
  · rw [vget_vset_same (by decide), hy]; rfl

theorem holdMasters_frame : onlyChanges [.cyc, .out, .evr, .keep, .mem, .hp] s (holdMasters s) :=
  onlyChanges.next (onlyChanges.of fun b => by cases b <;> simp [Blk.same]) openMasters_frame

/-- The guard resynchronises for as long as the masters are held; nothing else of the cycle changes. -/
theorem holdMasters_cyc : (holdMasters s).cyc = { s.cyc with guard := { s.cyc.guard with resync := true, run := 0 } } := openMasters_frame .cyc (by decide)

end

/-! ### Entry to `FAULT` (R19) -/

section
variable {c : Byte} {new : MState} {s : State}

theorem setState_frame : onlyChanges [.md, .pwr, .evr, .hp, .keep, .mem] s (setState new c s) := by
  intro b hb
  cases b <;> simp_all [Blk.same, setState]

theorem setState_md : (setState new c s).md =
    { s.md with mstate := new, cause := c, recorded := if new == .safeHold || new == .fault then [c] else [] } := by simp [setState]

theorem setState_goscOk : (setState new c s).pwr.goscOk = s.pwr.goscOk := by simp [setState]

theorem recordCause_frame : onlyChanges [.md, .evr, .hp, .keep, .mem] s (recordCause c s) := by
  unfold recordCause
  split
  · exact .refl _ s
  · exact onlyChanges.of fun b => by cases b <;> simp [Blk.same]

/-- A further cause is noted among those recorded, and changes no state. -/
theorem recordCause_md : ∃ l, (recordCause c s).md = { s.md with recorded := l } := by
  unfold recordCause
  split
  · exact ⟨_, rfl⟩
  · exact ⟨_, by simp; rfl⟩

theorem applyOutputs_frame : onlyChanges [.out] s (applyOutputs s) := by
  intro b hb
  cases b <;> simp_all [Blk.same, applyOutputs]

theorem stopLanes_frame : onlyChanges [.lane, .cyc] s (stopLanes s) := by
  intro b hb
  cases b <;> simp_all [Blk.same, stopLanes]

theorem faultClocks_frame : onlyChanges [.pwr, .time] s (faultClocks s) := by
  intro b hb
  cases b <;> simp_all [Blk.same, faultClocks]

theorem dropRequests_frame {keep : BKind → Bool} : onlyChanges [.sup, .md, .xl, .hp, .keep] s (dropRequests keep s) := by
  unfold dropRequests
  dsimp only
  exact onlyChanges.next (onlyChanges.of fun b => by cases b <;> simp [Blk.same]) allWrong_frame

/-- The module in `FAULT`, once its requests are dropped in `u`: outputs 0, lanes and clocks stopped, masters open. -/
def faulted (c : Byte) (u : State) : State :=
  holdMasters (applyOutputs (setState .fault c (faultClocks (stopLanes (commitZero (allOwned u) u)))))

/-- Entry to `FAULT`: the requests are dropped, the module is `faulted`, and the causes that waited are recorded. -/
theorem enterFault_eq (h : s.md.mstate = .starting ∨ s.md.mstate = .run ∨ s.md.mstate = .quiet ∨ s.md.mstate = .safeHold) :
    ∃ u, onlyChanges [.hp, .keep, .md, .sup, .xl] s u ∧ enterFault c s = s.md.holdPend.foldl (fun s c => recordCause c s) (faulted c u) := by
  have hf : onlyChanges [.hp, .keep, .md, .sup, .xl] s
      (dropRequests (fun k => !k.isState) (allWrong s.sup.waitHold
        { s with sup := { s.sup with waitHold := [] }, md := { s.md with holdPend := [], shutReq := none } })) :=
    onlyChanges.next (onlyChanges.next (onlyChanges.of fun b => by cases b <;> simp [Blk.same]) allWrong_frame) dropRequests_frame
  refine ⟨_, hf, ?_⟩
  unfold enterFault faulted
  rcases h with h | h | h | h <;> simp only [h]

theorem faulted_frame : onlyChanges [.cyc, .evr, .hp, .keep, .lane, .md, .mem, .out, .pwr, .time] s (faulted c s) :=
  (((((commitZero_frame.wider).next stopLanes_frame).next faultClocks_frame).next setState_frame).next applyOutputs_frame).next holdMasters_frame

theorem faulted_md : (faulted c s).md = { s.md with mstate := .fault, cause := c, recorded := [c] } := by
  have h1 (s) : (applyOutputs s).md = s.md := applyOutputs_frame .md (by decide)
  have h2 (s) : (faultClocks s).md = s.md := faultClocks_frame .md (by decide)
  have h3 (s) : (stopLanes s).md = s.md := stopLanes_frame .md (by decide)
  have h4 (l s) : (commitZero l s).md = s.md := commitZero_frame .md (by decide)
  have h5 (s) : (holdMasters s).md = s.md := holdMasters_frame .md (by decide)
  simp [faulted, setState_md, h1, h2, h3, h4, h5]

theorem faulted_cyc : (faulted c s).cyc.running = false ∧ (faulted c s).cyc.committed = (commitZero (allOwned s) s).cyc.committed := by
  have h1 (s) : (applyOutputs s).cyc = s.cyc := applyOutputs_frame .cyc (by decide)
  have h2 (s) : (faultClocks s).cyc = s.cyc := faultClocks_frame .cyc (by decide)
  have h3 (n c s) : (setState n c s).cyc = s.cyc := setState_frame .cyc (by decide)
  simp only [faulted, holdMasters_cyc, h1, h2, h3]
  exact ⟨rfl, rfl⟩

theorem faulted_goscOk : (faulted c s).pwr.goscOk = s.pwr.goscOk := by
  have h1 (s) : (applyOutputs s).pwr = s.pwr := applyOutputs_frame .pwr (by decide)
  have h3 (s) : (stopLanes s).pwr = s.pwr := stopLanes_frame .pwr (by decide)
  have h4 (l s) : (commitZero l s).pwr = s.pwr := commitZero_frame .pwr (by decide)
  have h5 (s) : (holdMasters s).pwr = s.pwr := holdMasters_frame .pwr (by decide)
  have h2 (s) : (faultClocks s).pwr.goscOk = s.pwr.goscOk := rfl
  simp only [faulted, h5, h1, setState_goscOk, h2, h3, h4]

/-- What entry to `FAULT` leaves of the outputs: every owned one is committed 0 (R19). -/
theorem enterFault_ownedZero (h : s.md.mstate = .starting ∨ s.md.mstate = .run ∨ s.md.mstate = .quiet ∨ s.md.mstate = .safeHold)
    (hw : Mem.wf 0 s.cyc.committed = true) : ownedZero (enterFault c s) = true := by
  obtain ⟨u, hu, e⟩ := enterFault_eq (c := c) h
  have hr : onlyChanges [.md, .evr, .hp, .keep, .mem] (faulted c u) (enterFault c s) := e ▸ onlyChanges.foldl (fun _ _ => recordCause_frame) _ _
  have hcyc : (enterFault c s).cyc = (faulted c u).cyc := hr .cyc (by decide)
  have himg : (enterFault c s).image = u.image := (hr .image (by decide)).trans (faulted_frame .image (by decide))
  have hucyc : u.cyc = s.cyc := hu .cyc (by decide)
  have hown : allOwned (enterFault c s) = allOwned u := by simp only [allOwned, himg]
  unfold ownedZero
  rw [hown, hcyc, faulted_cyc.2, List.all_eq_true]
  exact fun x hx => by simpa using commitZero_read (hucyc ▸ hw) hx

/-- What else entry to `FAULT` leaves, from any state that can take a cause; the SCLK oscillator's mark stays (R19, R39, R197). -/
theorem enterFault_spec (h : s.md.mstate = .starting ∨ s.md.mstate = .run ∨ s.md.mstate = .quiet ∨ s.md.mstate = .safeHold) :
    (enterFault c s).md.mstate = .fault ∧ (enterFault c s).md.cause = c ∧ mastersOpen (enterFault c s) = true ∧ (enterFault c s).cyc.running = false ∧
    (enterFault c s).pwr.goscOk = s.pwr.goscOk ∧
    onlyChanges [.cyc, .evr, .hp, .keep, .lane, .md, .mem, .out, .pwr, .sup, .time, .xl] s (enterFault c s) := by
  obtain ⟨u, hu, e⟩ := enterFault_eq (c := c) h
  have hr : onlyChanges [.md, .evr, .hp, .keep, .mem] (faulted c u) (enterFault c s) := e ▸ onlyChanges.foldl (fun _ _ => recordCause_frame) _ _
  have hmd := foldl_keeps (fun s => (s.md.mstate, s.md.cause)) (f := fun s c => recordCause c s)
    (fun s c => by obtain ⟨l, h⟩ := recordCause_md (c := c) (s := s); simp [h]) s.md.holdPend (faulted c u)
  rw [← e, Prod.mk.injEq, faulted_md] at hmd
  have hout : (enterFault c s).out = (faulted c u).out := hr .out (by decide)
  have hcyc : (enterFault c s).cyc = (faulted c u).cyc := hr .cyc (by decide)
  have hpwr : (enterFault c s).pwr = (faulted c u).pwr := hr .pwr (by decide)
  have hupwr : u.pwr = s.pwr := hu .pwr (by decide)
  refine ⟨hmd.1, hmd.2, ?_, by rw [hcyc, faulted_cyc.1], by rw [hpwr, faulted_goscOk, hupwr], (hu.wider.next faulted_frame).next hr⟩
  unfold mastersOpen
  rw [hout]
  exact openMasters_open

end
end Sys2Proof.Machine
end

section
/-! PROOFS. Clock faults (R13, R39, R284, R466, R467), and O35. -/

-- One declaration after the other: side by side, their threads' stacks need more memory than the check allows.
set_option Elab.async false

namespace Sys2Proof.Machine

/-! ### Slips and rings (R39, R241, R467) -/

section
variable {i k old new brk : Nat} {s : State}

theorem modLl_frame {f : LLane → LLane} : onlyChanges [.lane] s (modLl i f s) := by
  intro b hb
  cases b <;> simp_all [Blk.same]

theorem slipLl_frame : onlyChanges [.cyc, .evr, .hp, .keep, .lane, .mem] s (slipLl i s) := by
  unfold slipLl
  dsimp only
  split
  · exact modLl_frame.wider
  · exact onlyChanges.of fun b => by cases b <;> simp [Blk.same]

/-- A slip is counted and marked; what is committed stays. -/
theorem slipLl_committed : (slipLl i s).cyc.committed = s.cyc.committed := by
  unfold slipLl
  dsimp only
  split
  · rfl
  · simp [cycEvt]

/-- Outside a cycle no run can slip. -/
theorem slipRuns_closed (h : s.cyc.open_ = false) : slipRuns s = s := by simp [slipRuns, h]

theorem slipRuns_frame : onlyChanges [.cyc, .evr, .hp, .keep, .lane, .mem] s (slipRuns s) := by
  unfold slipRuns
  split
  · exact .refl _ s
  · refine onlyChanges.foldl (fun s i => ?_) _ s
    split
    · exact slipLl_frame
    · exact .refl _ s

theorem slipRuns_committed : (slipRuns s).cyc.committed = s.cyc.committed := by
  unfold slipRuns
  split
  · rfl
  · refine foldl_keeps (·.cyc.committed) (fun s i => ?_) _ s
    split
    · exact slipLl_committed
    · rfl

/-- The events of a change of ring state set flags of `RING_EVT`; the ports stay (R241). -/
theorem ringStateEvents_spec : onlyChanges [.evr, .hp, .keep, .mem, .ring] s (ringStateEvents k old new brk s) ∧
    (ringStateEvents k old new brk s).ring.ports = s.ring.ports := by
  obtain ⟨e, h⟩ : ∃ e, (if old = 2 ∧ new ≠ 2 then ringEvt 0 s else if new = 2 ∧ old ≠ 2 then ringEvt 1 s else s) =
      { s with ring := { s.ring with evt := e } } := by
    split
    · exact ⟨_, rfl⟩
    · split
      · exact ⟨_, rfl⟩
      · exact ⟨_, rfl⟩
  unfold ringStateEvents
  dsimp only
  rw [h]
  constructor
  · intro b hb
    split <;> split <;> cases b <;> simp_all [Blk.same]
  · split <;> split <;> simp [ringEvt]

/-- A ring with a configured node goes `DOWN` (R467). -/
def ringDown (s : State) (k : Nat) : State :=
  if nCfg s k = 0 then s
  else ringStateEvents k (ringOf s k).state 0 0x1FF (modRing k (fun r => { r with state := 0, sched := false }) s)

theorem ringsDown_eq : ringsDown s = (List.range 2).foldl ringDown
    { s with ring := { s.ring with ports := s.ring.ports.map fun p => { p with link := false, lpi := false } } } := rfl

theorem ringDown_frame : onlyChanges [.evr, .hp, .keep, .mem, .ring] s (ringDown s k) := by
  unfold ringDown
  split
  · exact .refl _ s
  · refine onlyChanges.trans (onlyChanges.of fun b => ?_) ringStateEvents_spec.1
    cases b <;> simp [Blk.same]

theorem ringDown_ports : (ringDown s k).ring.ports = s.ring.ports := by
  unfold ringDown
  split
  · rfl
  · rw [ringStateEvents_spec.2]; rfl

theorem ringsDown_frame : onlyChanges [.evr, .hp, .keep, .mem, .ring] s (ringsDown s) :=
  onlyChanges.trans (onlyChanges.of fun b => by cases b <;> simp [Blk.same]) (onlyChanges.foldl (fun _ _ => ringDown_frame) _ _)

/-- With the PHY clock every port loses its link. -/
theorem ringsDown_link {p : Nat} (hp : p < 4) : (vget (ringsDown s).ring.ports p).link = false := by
  have hports (s) : ((List.range 2).foldl ringDown s).ring.ports = s.ring.ports := foldl_keeps (·.ring.ports) (fun _ _ => ringDown_ports) _ s
  rw [ringsDown_eq, hports, vget_map hp]

end

/-! ### Clock faults (R13, R284, R467) -/

section
variable {s : State}

/-- A TCLK fault between cycles: the next cycle slips, and `TMR_EVT` and an event tell it (R284). -/
theorem fllUnlock_closed {d : Int} (h1 : s.time.tclkRun = true) (h2 : s.cyc.open_ = false) :
    (fllUnlock d s).time = { s.time with slipNext := true } ∧ (fllUnlock d s).tmr = { s.tmr with evt := s.tmr.evt ||| 3#32 } ∧
    onlyChanges [.time, .tmr, .evr, .hp, .keep, .mem] s (fllUnlock d s) := by
  have e : fllUnlock d s = { postEv 0x0305 0 (leBytes 4 (ofSigned 32 d)) { s with tmr := { s.tmr with evt := s.tmr.evt ||| 3#32 } } with
      time := { s.time with slipNext := true } } := by simp [fllUnlock, h1, h2]
  rw [e]
  refine ⟨rfl, by simp, fun b hb => ?_⟩
  cases b <;> simp_all [Blk.same]

/-- The power block once the 25 MHz oscillator is lost: its PLLs have stopped, the loss is counted and marked (R467). -/
def xoLost (s : State) : State :=
  pwrEvt 6 { s with pwr := { s.pwr with xoOk := false, lclkLock := false, supLock := false, phyLock := false, supPllOff := false, xo := satUp s.pwr.xo } }

theorem xoFail_eq (h : s.pwr.xoOk = true) : xoFail s = ringsDown (supStop .halted (slipRuns (xoLost s))) := by simp [xoFail, h, xoLost]

/-- The loss of the oscillator stops the PLLs and halts the supervisor, the rings' links fall, and the committed outputs stay (R467). -/
theorem xoFail_spec (h : s.pwr.xoOk = true) :
    (xoFail s).pwr = (xoLost s).pwr ∧ (xoFail s).sup.sup = .halted ∧ (∀ p < 4, (vget (xoFail s).ring.ports p).link = false) ∧
    (xoFail s).cyc.committed = s.cyc.committed ∧ onlyChanges [.cyc, .evr, .hp, .keep, .lane, .mem, .pwr, .ring, .sess, .sup] s (xoFail s) := by
  have hl : onlyChanges [.pwr] s (xoLost s) := by
    intro b hb
    cases b <;> simp_all [Blk.same, xoLost]
  have hs : onlyChanges [.cyc, .evr, .hp, .keep, .lane, .mem, .sess, .sup] (xoLost s) (supStop .halted (slipRuns (xoLost s))) :=
    slipRuns_frame.wider.next supStop_frame
  have hr : onlyChanges [.evr, .hp, .keep, .mem, .ring] (supStop .halted (slipRuns (xoLost s))) (xoFail s) := xoFail_eq h ▸ ringsDown_frame
  have hsup : (xoFail s).sup = (supStop .halted (slipRuns (xoLost s))).sup := hr .sup (by decide)
  have hcyc : (xoFail s).cyc = (slipRuns (xoLost s)).cyc := (hr .cyc (by decide)).trans (supStop_frame .cyc (by decide))
  refine ⟨(hr .pwr (by decide)).trans (hs .pwr (by decide)), ?_, fun p hp => ?_, ?_, (hl.wider.next hs).next hr⟩
  · rw [hsup, supStop_sup]
  · rw [xoFail_eq h]
    exact ringsDown_link hp
  · rw [hcyc, slipRuns_committed]
    rfl

/-- With its oscillator back the module has its PLLs again, and the supervisor restarts (R467). -/
theorem xoRestart_spec (h1 : s.pwr.xoOk = false) (h2 : corePowered s = true) (h3 : s.sup.sup = .halted) :
    (xoRestart true s).pwr.xoOk = true ∧ (xoRestart true s).pwr.supLock = true ∧ (xoRestart true s).pwr.phyLock = true ∧
    (xoRestart true s).sup = { s.sup with sup := .restarting } ∧ onlyChanges [.evr, .hp, .keep, .mem, .pwr, .sup] s (xoRestart true s) := by
  obtain ⟨lclk, e⟩ : ∃ lclk, xoRestart true s = supChange .restarting { s with pwr := { s.pwr with xoOk := true, lclkLock := lclk, supLock := true, phyLock := true } } :=
    ⟨_, by simp only [xoRestart, h1, h2, h3, supStop]; rfl⟩
  have hp : (xoRestart true s).pwr = { s.pwr with xoOk := true, lclkLock := lclk, supLock := true, phyLock := true } := e ▸ supChange_frame .pwr (by decide)
  rw [hp, e]
  refine ⟨rfl, rfl, rfl, supChange_sup, onlyChanges.next (onlyChanges.of fun b => ?_) supChange_frame⟩
  cases b <;> simp [Blk.same]

/-- A lost SCLK opens both masters, and `FAULT` 0x24 follows (R13, R19). -/
theorem execSclkFault_spec (h : s.md.mstate = .starting ∨ s.md.mstate = .run ∨ s.md.mstate = .quiet ∨ s.md.mstate = .safeHold) :
    ∃ t, execSclkFault s = .next t ∧ FaultEntered 0x24 s t ∧ t.pwr.goscOk = false := by
  have hf : onlyChanges [.cyc, .out, .evr, .keep, .mem, .hp, .pwr] s (holdMasters { s with pwr := { s.pwr with goscOk := false } }) :=
    onlyChanges.next (onlyChanges.of fun b => by cases b <;> simp [Blk.same]) holdMasters_frame
  generalize hu : holdMasters { s with pwr := { s.pwr with goscOk := false } } = u at hf
  have hmd : u.md = s.md := hf .md (by decide)
  have hg : u.pwr.goscOk = false := by rw [← hu, show (holdMasters _).pwr = _ from holdMasters_frame .pwr (by decide)]
  have hcom : u.cyc.committed = s.cyc.committed := by rw [← hu, holdMasters_cyc]
  obtain ⟨h1, h2, h3, h4, h5, h6⟩ := enterFault_spec (c := 0x24) (s := u) (hmd ▸ h)
  exact ⟨enterFault 0x24 u, by rw [execSclkFault, hu], ⟨h1, h2, h3, fun hc => enterFault_ownedZero (hmd ▸ h) (hcom ▸ hc.2), h4, hf.wider.next h6⟩, h5.trans hg⟩

end

/-- Settles O35. -/
theorem clockFaults : Obligations.ClockFaults := by
  intro d s
  refine ⟨fun h1 h2 => ?_, fun h1 h2 => ?_, fun h1 h2 => ⟨_, rfl, fllUnlock_closed h1 h2⟩, fun h => ?_, fun h1 h2 h3 => ⟨_, rfl, xoRestart_spec h1 h2 h3⟩,
    fun h => execSclkFault_spec h⟩
  · simp [exec, execLclkUnlock, lclkUnlock, h2, slipRuns_closed, h1, pwrEvt]
  · simp [exec, execLclkUnlock, lclkUnlock, h1, h2]
  · obtain ⟨h1, h2, h3, h4, h5⟩ := xoFail_spec h
    exact ⟨_, rfl, by rw [h1]; rfl, by rw [h1]; rfl, by rw [h1]; rfl, by rw [h1]; rfl, by rw [h1]; rfl, by rw [h1]; rfl, h2, h3, h4, h5⟩

end Sys2Proof.Machine
end

section
/-! PROOFS. The end of start-up in a pair (R481, R482), and O53. -/

-- One declaration after the other: side by side, their threads' stacks need more memory than the check allows.
set_option Elab.async false

namespace Sys2Proof.Machine

/-- A module at the t0 that ends step 11 with no cause found: configured owner of a pair's test outputs, whose other module reports `RUN` in the last
service container (R263, R482). -/
def pairedStart : State := { State.reset with
  md := { startStep := 11, committedCycles := 16, firstT0 := some 0 }
  time := { tclkRun := true, fllLock := true, tbase := 32000000 }
  cyc := { running := true, num := 16, lastT0 := 31998000, nextT0 := 32002000, guard := { run := 2 } }
  lane := { State.reset.lane with lls := vset State.reset.lane.lls 0 { lane := some 0 } }
  out := { State.reset.out with grps := Vector.replicate 2 { startOk := true } }
  xl := { pairCfg := true, toMask := 0xFFFF, svc := [(1, [2])] }
  fuse := { State.reset.fuse with live := BitVec.twoPow 8192 (grpLo 7), liveSt := vset State.reset.fuse.liveSt 7 1 } }

/-- `pairedStart` begins as a qualifying partner and lays its test outputs down (R281, R482). -/
theorem startupComplete_pairedStart : (startupComplete pairedStart).md.qualPartner = true ∧ (startupComplete pairedStart).xl.toMask = 0 := by
  decide +kernel

/-- Refutes O53: a module of a pair whose partner runs enters `RUN` as a qualifying partner, and then lays down its roles (R281, R482), so the
cross-link block changes beside the blocks that the clause of `RUN` lists; `pairedStart` gives up its test outputs. -/
theorem not_startUpGoesStepByStep : ¬ Obligations.StartUpGoesStepByStep := by
  intro h
  obtain ⟨-, -, hready⟩ := h false {} {} pairedStart
  obtain ⟨hrun, -⟩ := hready (by decide +kernel) rfl rfl (by decide +kernel)
  obtain ⟨t, ht, -, -, -, -, -, hframe⟩ := hrun rfl
  have he : startupComplete pairedStart = t := by simpa only [exec, execStartupComplete, Host.Outcome.next.injEq] using ht
  have hxl : (startupComplete pairedStart).xl = pairedStart.xl := he ▸ hframe .xl (by decide)
  have hmask : (0 : BitVec 16) = 0xFFFF := startupComplete_pairedStart.2.symm.trans (congrArg XlBlk.toMask hxl)
  exact absurd hmask (by decide)

end Sys2Proof.Machine
end

section
/-! PROOFS. What output tests and the cross-link leave unchanged at a commit point (R197, R261, R271). -/

-- One declaration after the other: side by side, their threads' stacks need more memory than the check allows.
set_option Elab.async false

namespace Sys2Proof.Machine

/-! ### Tests and events of the outputs leave everything but the outputs and what is written down -/

section
variable {n f g us code src cause : Nat} {low pass : Bool} {r : TestRun} {s : State}

theorem modOut_frame {h : Out → Out} : onlyChanges [.out] s (modOut n h s) := by
  intro b hb
  cases b <;> simp_all [Blk.same]

theorem modGrp_frame {h : Grp → Grp} : onlyChanges [.out] s (modGrp g h s) := by
  intro b hb
  cases b <;> simp_all [Blk.same]

theorem latchOut_frame : onlyChanges [.out] s (latchOut n code src s) := by
  unfold latchOut
  dsimp only
  split
  · exact .refl _ s
  · exact modOut_frame.trans (outEvt_frame _ _)

theorem shortCondition_frame : onlyChanges [.out, .evr, .keep, .mem, .hp] s (shortCondition n s) := by
  unfold shortCondition
  dsimp only
  split
  · exact .refl _ s
  · have ho : onlyChanges [.out, .evr, .keep, .mem, .hp] s (openMaster (grpOut n) 3 4 s) := openMaster_frame
    exact ho.trans (onlyChanges.of fun b => by cases b <;> simp [Blk.same])

theorem darkFailed_frame : onlyChanges [.out, .evr, .keep, .mem, .hp] s (darkFailed n f low s) := by
  have h1 (s) : onlyChanges [.out] s (outEvt 0 (modOut n (fun o => { o with last := 2, dtFailCnt := satUp o.dtFailCnt }) s)) :=
    modOut_frame.trans (outEvt_frame _ _)
  unfold darkFailed
  dsimp only
  split
  · exact ((h1 s).trans (modOut_frame.trans latchOut_frame)).wider
  · split
    · exact ((h1 s).trans modOut_frame).wider.trans shortCondition_frame
    · exact ((h1 s).trans modOut_frame).wider

theorem masterFailed_frame : onlyChanges [.out, .evr, .keep, .mem, .hp] s (masterFailed g s) := by
  unfold masterFailed
  refine onlyChanges.trans (onlyChanges.of fun b => ?_) openMaster_frame
  cases b <;> simp [Blk.same]

theorem masterJudged_frame : onlyChanges [.out, .evr, .keep, .mem, .hp] s (masterJudged g pass s) := by
  unfold masterJudged
  dsimp only
  split
  · exact modGrp_frame.wider
  · split
    · exact modGrp_frame.wider.trans masterFailed_frame
    · exact modGrp_frame.wider

theorem judgeDark_frame : onlyChanges [.out, .evr, .keep, .mem, .hp] s (judgeDark n r s) := by
  unfold judgeDark
  split
  · exact modOut_frame.wider
  · exact darkFailed_frame

theorem judgeLight_frame : onlyChanges [.out] s (judgeLight n pass s) := by
  unfold judgeLight
  split
  · exact modOut_frame
  · exact modOut_frame.trans (outEvt_frame _ _)

theorem judgeStart_frame : onlyChanges [.out, .evr, .keep, .mem, .hp] s (judgeStart g pass s) := by
  unfold judgeStart
  split
  · exact modGrp_frame.wider
  · split
    · exact masterFailed_frame
    · exact modGrp_frame.wider

theorem outEvents_frame {before : State} : onlyChanges [.evr, .keep, .mem, .hp] s (outEvents before s) := by
  refine onlyChanges.foldl (fun u n => ?_) _ s
  have h (l : List Nat) (d : Nat → List Byte) : onlyChanges [.evr, .keep, .mem, .hp] u (l.foldl (fun s c => postEv 0x0702 n (d c) s) u) :=
    onlyChanges.foldl (fun _ _ => postEv_frame _ _ _ _) l u
  dsimp only
  split
  · exact (h _ _).trans (postEv_frame _ _ _ _)
  · exact h _ _

theorem ackGroup_frame : onlyChanges [.out, .evr, .keep, .mem, .hp] s (ackGroup g s) := by
  unfold ackGroup withOutEvents
  refine onlyChanges.next (onlyChanges.of fun b => ?_) outEvents_frame
  cases b <;> simp [Blk.same]

theorem judgeAck_frame : onlyChanges [.out, .evr, .keep, .mem, .hp, .sup] s (judgeAck g pass s) := by
  unfold judgeAck
  dsimp only
  refine onlyChanges.trans (onlyChanges.trans (onlyChanges.of (t := { s with sup := { s.sup with waitAck := s.sup.waitAck.filter fun w => w.1 != g } })
    fun b => ?_) ?_) (onlyChanges.foldl (fun _ _ => complete_frame.wider) _ _)
  · cases b <;> simp [Blk.same]
  · split
    · exact modGrp_frame.wider.next ackGroup_frame
    · exact .refl _ _

theorem releaseTest_frame : onlyChanges [.out] s (releaseTest s) := by
  intro b hb
  cases b <;> simp_all [Blk.same, releaseTest]

theorem endTest_frame : onlyChanges [.out, .evr, .keep, .mem, .hp, .sup, .time, .tmr] s (endTest r s) := by
  have h1 : onlyChanges [.out, .evr, .keep, .mem, .hp, .sup, .time, .tmr] s (releaseTest (advanceTo r.until_ s)) :=
    advanceTo_frame.wider.next releaseTest_frame
  unfold endTest
  dsimp only
  split
  · exact (h1.next modGrp_frame).next judgeStart_frame
  · exact (h1.next modGrp_frame).next judgeAck_frame
  · exact (h1.next modGrp_frame).next masterJudged_frame
  · exact h1.next judgeDark_frame
  · exact h1.next judgeLight_frame
  · exact .refl _ s

theorem settleTest_frame : onlyChanges [.out, .evr, .keep, .mem, .hp, .sup, .time, .tmr] s (settleTest s) := by
  unfold settleTest
  split
  · split
    · exact endTest_frame.next outEvents_frame
    · exact .refl _ s
  · exact .refl _ s

end

/-! ### The cross-link around a commit point -/

section
variable {svc : Bool} {s : State}

theorem xferNext_frame : onlyChanges [.xl] s (xferNext s) := by
  unfold xferNext
  split
  · exact .refl _ s
  · dsimp only
    split
    · exact onlyChanges.of fun b => by cases b <;> simp [Blk.same]
    · exact onlyChanges.of fun b => by cases b <;> simp [Blk.same]

/-- A container sent changes the cross-link and lets time pass. -/
theorem xlSlot_frame : onlyChanges [.xl, .time, .tmr] s (xlSlot svc s) := by
  have ha : onlyChanges [.xl, .time, .tmr] s (advanceTo (s.cyc.commitAt + 64 + 250 * (2 * s.xl.mid + b2n svc)) s) := advanceTo_frame.wider
  unfold xlSlot
  dsimp only
  split
  · exact ha
  · refine ha.trans ?_
    split
    · exact onlyChanges.next (onlyChanges.of fun b => by cases b <;> simp [Blk.same]) xferNext_frame
    · exact onlyChanges.of fun b => by cases b <;> simp [Blk.same]

theorem xlCatchUp_frame : onlyChanges [.xl, .time, .tmr] s (xlCatchUp s) := by
  unfold xlCatchUp
  split
  · exact .refl _ s
  · dsimp only
    split <;> split
    · exact .refl _ s
    · exact xlSlot_frame
    · exact xlSlot_frame
    · exact xlSlot_frame.trans xlSlot_frame

theorem takeTos_frame {l : List Nat} : onlyChanges [.xl, .evr, .keep, .mem, .hp] s (takeTos l s) := by
  refine onlyChanges.foldl (fun s k => ?_) l s
  split
  · exact .refl _ s
  · exact onlyChanges.of fun b => by cases b <;> simp [Blk.same]

theorem findCause_frame {c : Byte} : onlyChanges [.md, .evr, .hp, .keep, .mem] s (findCause c s) := by
  unfold findCause
  split
  · split
    · exact .refl _ s
    · exact onlyChanges.of fun b => by cases b <;> simp [Blk.same]
  · split
    · exact .refl _ s
    · exact onlyChanges.of fun b => by cases b <;> simp [Blk.same]
  · split
    · exact .refl _ s
    · exact onlyChanges.of fun b => by cases b <;> simp [Blk.same]
  · exact recordCause_frame
  · exact recordCause_frame
  · exact .refl _ s

theorem pairCheck_frame : onlyChanges [.md, .evr, .hp, .keep, .mem] s (pairCheck s) := by
  unfold pairCheck
  split
  · exact findCause_frame
  · exact .refl _ s

theorem adoptG7_frame {uid carrier : Nat} : onlyChanges [.fuse, .keep, .mem] s (adoptG7 uid carrier s) := by
  intro b hb
  cases b <;> simp_all [Blk.same, adoptG7, afterProg]

end

end Sys2Proof.Machine
end

section
/-! PROOFS. What follows the outputs at a commit point leaves them as committed (R22, R43, R265, R437). -/

-- One declaration after the other: side by side, their threads' stacks need more memory than the check allows.
set_option Elab.async false

namespace Sys2Proof.Machine

/-! ### What follows the outputs at a commit point leaves them as committed -/

section
variable {ws : List Word} {demand active : Bool} {reason code : Nat} {m : GuardMsg} {s : State}

theorem xferReceive_cyc : (xferReceive ws s).cyc = s.cyc := by
  have ha (u c : Nat) : (adoptG7 u c s).cyc = s.cyc := adoptG7_frame .cyc (by decide)
  have h1 : (if (svcW ws 17 % 256 != 0 && adoptMay s) = true then adoptG7 (svcW2 ws 10) (svcW ws 12) s else s).cyc = s.cyc := by
    split
    · exact ha _ _
    · rfl
  unfold xferReceive
  extract_lets _ _ s1 store t _ s2
  have hs (u : State) : (store u).cyc = u.cyc := by
    simp only [store]
    split
    · split <;> rfl
    · rfl
    · rfl
    · rfl
  have h2 : s2.cyc = s1.cyc := by
    simp only [s2]
    split
    · rfl
    · exact hs s1
  split
  · rfl
  · split
    · exact h1
    · split
      · exact h1
      · split
        · exact h2.trans h1
        · exact h2.trans h1

theorem xlClose_cyc : (xlClose s).cyc = s.cyc := by
  have ht (l u) : (takeTos l u).cyc = u.cyc := takeTos_frame .cyc (by decide)
  have hp (u) : (pairCheck u).cyc = u.cyc := pairCheck_frame .cyc (by decide)
  unfold xlClose
  extract_lets _ _ _ _ _ _ _ _ _ _ _ _ s2 p
  have h2 : s2.cyc = s.cyc := by
    simp only [s2]
    split
    · exact hp _
    · exact hp _
  clear_value s2 p
  split
  · split
    · split
      · exact xferReceive_cyc.trans h2
      · exact h2
    · exact h2
  · split
    · exact (ht _ _).trans h2
    · exact h2

theorem quietLeave_frame : onlyChanges [.md, .xl] s (quietLeave demand s) := by
  unfold quietLeave
  dsimp only
  split
  · exact onlyChanges.of fun b => by cases b <;> simp [Blk.same]
  · exact onlyChanges.of fun b => by cases b <;> simp [Blk.same]

theorem quietEntry_frame : onlyChanges [.md, .sup, .hp, .keep] s (quietEntry s) := by
  unfold quietEntry
  have hq : onlyChanges [.md, .sup, .hp, .keep] s { s with md := { s.md with quietIn := some (s.cyc.num + 1) } } :=
    onlyChanges.of fun b => by cases b <;> simp [Blk.same]
  split
  · exact .refl _ s
  · split
    · split
      · exact hq
      · exact .refl _ s
    · dsimp only
      split
      · exact .refl _ s
      · split
        · exact hq
        · exact onlyChanges.next (onlyChanges.of fun b => by cases b <;> simp [Blk.same]) allWrong_frame

theorem endCause6_frame : onlyChanges [.out] s (endCause6 s) := by
  intro b hb
  cases b <;> simp_all [Blk.same, endCause6]

theorem closeMasters_frame : onlyChanges [.out] s (closeMasters s) := by
  unfold closeMasters
  split
  · exact .refl _ s
  · dsimp only
    split
    · exact endCause6_frame
    · exact endCause6_frame.trans (onlyChanges.of fun b => by cases b <;> simp [Blk.same])

theorem endObserver_frame : onlyChanges [.lane, .evr, .keep, .mem, .hp] s (endObserver reason s) := by
  unfold endObserver
  split
  · exact .refl _ s
  · dsimp only
    refine onlyChanges.next (onlyChanges.of fun b => ?_) (postEv_frame _ _ _ _)
    cases b <;> simp [Blk.same, clearFree, laneToSpare, modLane, modLl]

theorem qualCount_frame : onlyChanges [.lane, .evr, .keep, .mem, .hp] s (qualCount active s) := by
  have hp (q : QualBlk) : onlyChanges [.lane, .evr, .keep, .mem, .hp] s { s with lane := { s.lane with qual := q } } :=
    onlyChanges.of fun b => by cases b <;> simp [Blk.same]
  unfold qualCount
  dsimp only
  split
  · exact .refl _ s
  · split
    · exact (hp _).next (postEv_frame _ _ _ _)
    · split
      · exact hp _
      · split
        · exact (hp _).trans endObserver_frame
        · split
          · exact (hp _).next (postEv_frame _ _ _ _)
          · exact hp _

theorem judgeCommit_committed : (judgeCommit s).cyc.committed = s.cyc.committed := by
  unfold judgeCommit
  extract_lets
  split <;> rfl

theorem guardTrip_committed : (guardTrip reason s).cyc.committed = s.cyc.committed := by
  have h (s) : (openMasters 1 0 s).cyc = s.cyc := openMasters_frame .cyc (by decide)
  simp [guardTrip, guardLost, h, cycEvt]

theorem guardJudge_committed : (guardJudge m s).cyc.committed = s.cyc.committed := by
  unfold guardJudge
  dsimp only
  split
  · split <;> rfl
  · split
    · rfl
    · unfold guardFail
      split
      · rfl
      · exact guardTrip_committed

end

end Sys2Proof.Machine
end

section
/-! PROOFS. The commit point in `SAFE_HOLD` (R24, R36, R539), and O30. -/

-- One declaration after the other: side by side, their threads' stacks need more memory than the check allows.
set_option Elab.async false

namespace Sys2Proof.Machine

/-! ### What the commit decisions of `SAFE_HOLD` rest on -/

/-- The roles of the lanes. -/
def roles (s : State) : Vector LaneRole 5 := s.lane.lanes.map (·.role)

/-- What decides what a commit point may commit beside the runs: module state, image in force, cells without an owner, lane roles. -/
def holdBase (s : State) : MState × Option Image × List OwnE × Vector LaneRole 5 := (s.md.mstate, s.image, s.lane.orphan, roles s)

section
variable {T : List Blk} {s t : State} {k o : Nat} {l : List Nat}

/-- A role is found from the roles alone. -/
theorem laneIn_of_roles {r : LaneRole} (h : roles t = roles s) : laneIn t r = laneIn s r := by
  have hr (u : State) : laneIn u r = vfind (roles u) (· == r) := by
    rw [laneIn, vfind, vfind, roles, Vector.toList_map, List.findIdx?_map]
    rfl
  rw [hr, hr, h]

theorem holdBase_mstate (h : holdBase t = holdBase s) : t.md.mstate = s.md.mstate := congrArg (·.1) h

theorem holdBase_orphan (h : holdBase t = holdBase s) : t.lane.orphan = s.lane.orphan := congrArg (·.2.2.1) h

theorem laneIn_of_holdBase {r : LaneRole} (h : holdBase t = holdBase s) : laneIn t r = laneIn s r := laneIn_of_roles (congrArg (·.2.2.2) h)

theorem ownedBy_of_holdBase (h : holdBase t = holdBase s) : ownedBy o t = ownedBy o s := by
  have hi : t.image = s.image := congrArg (·.2.1) h
  simp only [ownedBy, hi]

/-- Module state, image and lanes out of a frame stay, and the base with them. -/
theorem holdBase_of_frame (h : onlyChanges T s t) (hT : [Blk.md, .image, .lane].all (!T.contains ·) = true := by decide) : holdBase t = holdBase s := by
  simp only [List.all_cons, List.all_nil, Bool.and_true, Bool.and_eq_true, Bool.not_eq_true', List.contains_eq_mem, decide_eq_false_iff_not] at hT
  obtain ⟨hmd, himg, hlane⟩ := hT
  have h1 : t.md = s.md := h .md hmd
  have h2 : t.image = s.image := h .image himg
  have h3 : t.lane = s.lane := h .lane hlane
  simp only [holdBase, roles, h1, h2, h3]

/-- A change to a lane that keeps its role keeps every role. -/
theorem roles_modLane {f : Lane → Lane} (hf : ∀ x, (f x).role = x.role) : roles (modLane k f s) = roles s := by
  refine Vector.ext fun i hi => ?_
  have hv (u : State) : (roles u)[i] = (vget u.lane.lanes i).role := by simp [roles, vget_of_lt hi]
  rw [hv, hv]
  by_cases h : i = k
  · subst h
    exact (congrArg Lane.role (vget_vset_same hi)).trans (hf _)
  · exact congrArg Lane.role (vget_vset_other h)

theorem holdBase_modLane {f : Lane → Lane} (hf : ∀ x, (f x).role = x.role) : holdBase (modLane k f s) = holdBase s := by
  simp only [holdBase, roles_modLane hf]
  rfl

@[simp] theorem holdBase_commitZero : holdBase (commitZero l s) = holdBase s := holdBase_of_frame commitZero_frame

end

/-! ### Before the decision: runs end, and nothing is committed -/

/-- The base of the decision, and what is committed. -/
def holdView (s : State) : (MState × Option Image × List OwnE × Vector LaneRole 5) × Mem 32 := (holdBase s, s.cyc.committed)

section
variable {T : List Blk} {s t : State} {i k : Nat} {m : Mis}

theorem holdView_base (h : holdView t = holdView s) : holdBase t = holdBase s := congrArg (·.1) h

theorem holdView_committed (h : holdView t = holdView s) : t.cyc.committed = s.cyc.committed := congrArg (·.2) h

theorem holdView_of_frame (h : onlyChanges T s t) (hT : [Blk.md, .image, .lane, .cyc].all (!T.contains ·) = true := by decide) : holdView t = holdView s := by
  simp only [List.all_cons, List.all_nil, Bool.and_true, Bool.and_eq_true, Bool.not_eq_true', List.contains_eq_mem, decide_eq_false_iff_not] at hT
  obtain ⟨hmd, himg, hlane, hcyc⟩ := hT
  have hc : t.cyc = s.cyc := h .cyc hcyc
  rw [holdView, holdView, holdBase_of_frame h (by simp [hmd, himg, hlane]), hc]

@[simp] theorem holdView_modLl {f : LLane → LLane} : holdView (modLl i f s) = holdView s := rfl
@[simp] theorem holdView_laneEvt : holdView (laneEvt i s) = holdView s := rfl
@[simp] theorem holdView_postEv {code inst : Nat} {d : List Byte} : holdView (postEv code inst d s) = holdView s := holdView_of_frame (postEv_frame _ _ _ _)

theorem holdView_modLane {f : Lane → Lane} (hf : ∀ x, (f x).role = x.role) : holdView (modLane k f s) = holdView s := by
  rw [holdView, holdBase_modLane hf]
  rfl

theorem holdView_chargeRerun : holdView (chargeRerun k s) = holdView s := by
  unfold chargeRerun
  extract_lets l rs s1
  have h1 : holdView s1 = holdView s := holdView_modLane fun _ => by rfl
  clear_value s1
  split
  · exact h1
  · rw [holdView_postEv, holdView_laneEvt]
    exact Eq.trans (holdView_modLane fun _ => by rfl) h1

theorem holdView_llMismatch : holdView (llMismatch i m s) = holdView s := by
  have hl (l : List Nat) (u) : holdView (l.foldl (fun s b => laneEvt b s) u) = holdView u := foldl_keeps holdView (f := fun s b => laneEvt b s) (fun _ _ => rfl) l u
  unfold llMismatch
  extract_lets x rerun
  split
  · rfl
  · extract_lets s1 s2 s3 _ s4
    have h1 : holdView s1 = holdView s := rfl
    have h2 : holdView s2 = holdView s := (hl _ _).trans h1
    clear_value s2
    have h4 : holdView s4 = holdView s := h2
    clear_value s4
    split
    · rfl
    · split
      · exact holdView_modLl.trans h2
      · exact holdView_chargeRerun.trans (holdView_postEv.trans h4)

theorem holdView_runComplete : holdView (runComplete i [] s) = holdView s := by
  unfold runComplete
  extract_lets x r len
  split
  · rfl
  · split
    · rfl
    · extract_lets s0 s1
      have h0 : holdView s0 = holdView s := holdView_modLane fun _ => rfl
      have h1 : holdView s1 = holdView s := by
        simp only [s1]
        split
        · exact h0
        · exact h0
      split
      · exact holdView_llMismatch.trans h1
      · exact h1

theorem holdView_endRuns : holdView (endRuns s) = holdView s :=
  foldl_keeps holdView (fun _ _ => holdView_runComplete.trans holdView_runComplete) _ s

theorem holdView_overrun {j : Fin 5} : holdView (overrun s j) = holdView s := by
  unfold overrun
  dsimp only
  split <;> rfl

theorem holdView_holdStep (h : s.md.mstate = .safeHold) : holdView (holdStep s) = holdView s := by
  simp only [holdStep, h]
  exact foldl_keeps holdView (f := fun s q => complete q 0x0402 .ok [] s) (fun _ _ => holdView_of_frame complete_frame) _ _

end

/-! ### The decision in `SAFE_HOLD` (R36 to R40, R539) -/

/-- Logical lanes `l` have been decided, from `s` to `t`: the base stands, output points committed 0 stay so, and the lanes' own are committed 0. -/
structure CommitsHeld (l : List Nat) (s t : State) : Prop where
  base : holdBase t = holdBase s
  keeps : KeepsZero (isOutPoint · = true) s t
  zero : Mem.wf 0 s.cyc.committed = true → ∀ i ∈ l, ∀ c ∈ ownedBy i s, isOutPoint c = true → Mem.read 0 t.cyc.committed c = 0

section
variable {s t u : State} {i k reason free c : Nat} {l m : List Nat}

/-- Zeros over the lane's output points decide it. -/
theorem CommitsHeld.of_commitZero (hb : holdBase u = holdBase s) (hk : KeepsZero (isOutPoint · = true) s u)
    (hl : ∀ c ∈ ownedBy i u, isOutPoint c = true → c ∈ l) : CommitsHeld [i] s (commitZero l u) where
  base := holdBase_commitZero.trans hb
  keeps := hk.trans commitZero_keepsZero
  zero hw j hj c hc ho := by
    rw [List.mem_singleton.1 hj, ← ownedBy_of_holdBase hb] at hc
    exact commitZero_read (hk.wf hw) (hl c hc ho)

/-- Where the base and what is committed stand, nothing is decided. -/
theorem CommitsHeld.nil (h : holdView t = holdView s) : CommitsHeld [] s t where
  base := holdView_base h
  keeps := .of_eq (holdView_committed h)
  zero _ _ hi := absurd hi List.not_mem_nil

theorem CommitsHeld.append (h1 : CommitsHeld l s t) (h2 : CommitsHeld m t u) : CommitsHeld (l ++ m) s u where
  base := h2.base.trans h1.base
  keeps := h1.keeps.trans h2.keeps
  zero hw i hi c hc ho := by
    have w1 := h1.keeps.wf hw
    rcases List.mem_append.1 hi with hi | hi
    · exact h2.keeps.zero w1 c ho (h1.zero hw i hi c hc ho)
    · exact h2.zero w1 i hi c (ownedBy_of_holdBase h1.base ▸ hc) ho

/-- Zeros over all of the lane's cells decide it, where nothing was committed before. -/
theorem CommitsHeld.of_view (hb : holdView u = holdView s) : CommitsHeld [i] s (commitZero (ownedBy i u) u) :=
  .of_commitZero (holdView_base hb) (.of_eq (holdView_committed hb)) fun _ hc _ => hc

theorem CommitsHeld.markSafe (h : CommitsHeld [i] s t) : CommitsHeld [i] s (markSafe i t) := ⟨h.base, h.keeps.trans (.of_eq rfl), h.zero⟩

/-- The run of a lane commits 0 at every output point. -/
theorem commitRun_held (h : s.md.mstate = .safeHold) : CommitsHeld [i] s (commitRun i s) := by
  unfold commitRun
  simp only [h]
  refine .of_commitZero ?_ (KeepsZero.foldl (fun u p => commitCell_keepsZero fun hp => ?_) _ s) fun c hc ho => ?_
  · exact holdBase_of_frame (onlyChanges.foldl (T := [.cyc]) (fun _ _ => commitCell_frame) _ s)
  · simp [show isOutPoint p.1 = true from hp]
  · exact List.mem_filter.2 ⟨hc, by simp [ho]⟩

theorem commitAgreed_held (h : s.md.mstate = .safeHold) : CommitsHeld [i] s (commitAgreed i s) := by
  unfold commitAgreed
  extract_lets x s1
  have h1 : holdView s1 = holdView s := rfl
  split
  · simp_all
  · split
    · extract_lets s2
      have h2 : holdView s2 = holdView s := by
        simp only [s2]
        split
        · exact h1
        · exact holdView_postEv.trans h1
      exact .of_view (u := modLl i _ s2) h2
    · split
      · exact .of_view h1
      · have hr : CommitsHeld [i] s1 (commitRun i s1) := commitRun_held h
        exact (CommitsHeld.nil h1).append hr

/-- No lane is held in `SAFE_HOLD`: one that failed commits 0. -/
theorem commitFailed_held (h : s.md.mstate = .safeHold) : CommitsHeld [i] s (commitFailed i k reason free s) := by
  unfold commitFailed
  extract_lets x hold s1 _ s2 s3
  have hh : hold = false := by simp [hold, h]
  have h3 : holdView s3 = holdView s := holdView_postEv
  rw [hh, if_neg Bool.false_ne_true]
  exact (CommitsHeld.of_view h3).markSafe

theorem commitLl_held (h : s.md.mstate = .safeHold) : CommitsHeld [i] s (commitLl i free s).2 := by
  unfold commitLl
  dsimp only
  split
  · exact .of_view rfl
  · exact commitAgreed_held h
  · exact commitFailed_held h
  · exact (CommitsHeld.of_view rfl).markSafe
  · exact .of_view rfl

theorem foldl_commitLl_held (l : List Nat) (p : Nat × State) (h : p.2.md.mstate = .safeHold) :
    CommitsHeld l p.2 (l.foldl (fun (p : Nat × State) i => commitLl i p.1 p.2) p).2 := by
  induction l generalizing p with
  | nil => exact .nil rfl
  | cons i l ih =>
    have h1 : CommitsHeld [i] p.2 (commitLl i p.1 p.2).2 := commitLl_held h
    exact h1.append (ih _ ((holdBase_mstate h1.base).trans h))

theorem holdView_commitObserver : holdView (commitObserver s) = holdView s := by
  unfold commitObserver
  split <;> rfl

theorem holdView_clearCmpFaults : holdView (clearCmpFaults s) = holdView s := by
  have hr : roles (clearCmpFaults s) = roles s := by simp [roles, clearCmpFaults]
  simp only [holdView, holdBase, hr]
  rfl

/-- Every logical safety lane is decided. -/
theorem commitLls_held (h : s.md.mstate = .safeHold) : CommitsHeld (List.range 4) s (commitLls s) := by
  unfold commitLls
  generalize hu : ({ s with cyc := { s.cyc with llSafe := 0, llHeld := 0 } } : State) = u
  have h0 : holdView u = holdView s := hu ▸ rfl
  have h1 : CommitsHeld (List.range 4) u _ := foldl_commitLl_held (List.range 4) ((spares s).length, u) ((holdBase_mstate (holdView_base h0)).trans h)
  simpa only [List.nil_append, List.append_nil] using ((CommitsHeld.nil h0).append h1).append (.nil (holdView_clearCmpFaults.trans holdView_commitObserver))

theorem holdView_orphanStep (h : s.lane.orphan = []) : holdView (orphanStep s) = holdView s := by
  simp only [orphanStep, h, holdView, holdBase]
  rfl

theorem prismCycle_of_none (h : laneIn s .prism = none) : prismCycle s = s := by simp [prismCycle, h]

/-- Without cells that lose their owner, and without a lane in Prism mode, the output points of every lane are committed 0. -/
theorem commitOutputs_zero (h : s.md.mstate = .safeHold) (ho : s.lane.orphan = []) (hp : laneIn s .prism = none)
    (hw : Mem.wf 0 s.cyc.committed = true) (hi : i < 4) (hc : c ∈ ownedBy i s) (hpt : isOutPoint c = true) :
    Mem.read 0 (commitOutputs s).cyc.committed c = 0 := by
  have ha (u) : (applyOutputs u).cyc = u.cyc := applyOutputs_frame .cyc (by decide)
  have hq (b u) : (qualCount b u).cyc = u.cyc := qualCount_frame .cyc (by decide)
  unfold commitOutputs
  extract_lets _ s1 s3 s2
  have hs1 : holdView s1 = holdView s := rfl
  clear_value s1
  have hb1 : holdBase s1 = holdBase s := holdView_base hs1
  have h1 : CommitsHeld (List.range 4) s1 (commitLls s1) := commitLls_held ((holdBase_mstate hb1).trans h)
  have hb2 : holdBase (commitLls s1) = holdBase s := h1.base.trans hb1
  have h3 : holdView s3 = holdView (commitLls s1) := holdView_orphanStep ((holdBase_orphan hb2).trans ho)
  clear_value s3
  have hp3 : laneIn s3 .prism = none := (laneIn_of_holdBase ((holdView_base h3).trans hb2)).trans hp
  have h2 : s2 = s3 := by
    simp only [s2]
    split
    · exact prismCycle_of_none hp3
    · rfl
  rw [hq, ha, h2, holdView_committed h3]
  exact h1.zero (holdView_committed hs1 ▸ hw) i (List.mem_range.2 hi) c (ownedBy_of_holdBase hb1 ▸ hc) hpt

end

/-! ### The whole commit point -/

section
variable {late : List (Fin 5)} {msg : Option GuardMsg} {s : State}

/-- A commit point in `SAFE_HOLD` decides over a state with the base and the committed cells of the state it finds; what follows leaves what it commits. -/
theorem commitAtPoint_committed (h : s.md.mstate = .safeHold) :
    ∃ u, holdView u = holdView s ∧ (commitAtPoint late msg s).cyc.committed = (commitOutputs u).cyc.committed := by
  have hl (l : List (Fin 5)) (u) : holdView (l.foldl overrun u) = holdView u := foldl_keeps holdView (f := overrun) (fun _ _ => holdView_overrun) l u
  have hx (u) : (xlClose u).cyc = u.cyc := xlClose_cyc
  have hql (b u) : (quietLeave b u).cyc = u.cyc := quietLeave_frame .cyc (by decide)
  have hqe (u) : (quietEntry u).cyc = u.cyc := quietEntry_frame .cyc (by decide)
  have hcm (u) : (closeMasters u).cyc = u.cyc := closeMasters_frame .cyc (by decide)
  unfold commitAtPoint
  extract_lets s0 s1 d s2 s3 s4
  have h0 : holdView s0 = holdView s := (holdView_of_frame advanceTo_frame).trans (holdView_of_frame xlCatchUp_frame)
  clear_value s0
  have h1 : holdView s1 = holdView s := holdView_endRuns.trans ((hl _ _).trans h0)
  clear_value s1
  have hm : s1.md.mstate = .safeHold := (holdBase_mstate (holdView_base h1)).trans h
  refine ⟨holdStep s1, (holdView_holdStep hm).trans h1, ?_⟩
  have h4 : s4.cyc.committed = (commitOutputs (holdStep s1)).cyc.committed := by
    simp only [s4, s3, s2, hcm, guardJudge_committed, judgeCommit_committed, hqe, hql, hx]
  rw [← h4]
  clear_value s4
  rfl

end

/-- Settles O30: the logical lanes commit 0 at every owned output point, and what else a commit point does leaves them. -/
theorem safeHoldCommitsOutputsZero : Obligations.SafeHoldCommitsOutputsZero := by
  intro late msg s t hx hrun hopen hst hcanon horph hprism e he how hpt
  have hs : holdView (settleTest s) = holdView s := holdView_of_frame settleTest_frame
  obtain ⟨u, hu, ht⟩ := commitAtPoint_committed (late := late) (msg := msg) ((holdBase_mstate (holdView_base hs)).trans hst)
  have hus : holdView u = holdView s := hu.trans hs
  have hb : holdBase u = holdBase s := holdView_base hus
  have hc : u.cyc.committed = s.cyc.committed := holdView_committed hus
  have hown : e.cell ∈ ownedBy e.owner u := by
    rw [ownedBy_of_holdBase hb, ownedBy]
    cases him : s.image with
    | none => simp [him] at he
    | some im => exact List.mem_map.2 ⟨e, List.mem_filter.2 ⟨by simpa [him] using he, by simp⟩, rfl⟩
  have hxt : commitAtPoint late msg (settleTest s) = t := by simpa [exec, execCommitPoint, hrun, hopen] using hx
  have hmu : u.md.mstate = .safeHold := (holdBase_mstate hb).trans hst
  have hou : u.lane.orphan = [] := (holdBase_orphan hb).trans horph
  have hpu : laneIn u .prism = none := (laneIn_of_holdBase hb).trans hprism
  have hwu : Mem.wf 0 u.cyc.committed = true := by
    rw [hc]
    exact hcanon.2
  rw [← hxt, ht]
  exact commitOutputs_zero hmu hou hpu hwu how hown hpt

end Sys2Proof.Machine
end

section
/-! PROOFS. Lanes under test, the rotation and the end of observer duty (R75, R76, R78, R80, R82, R443, R487), and O33. -/

-- One declaration after the other: side by side, their threads' stacks need more memory than the check allows.
set_option Elab.async false

namespace Sys2Proof.Machine

/-! ### The keeper's lists under an event -/

section
variable {β : Type} {p : KeepBlk → β} {code inst kind sev n : Nat} {data : List Byte} {c : Byte} {s : State}

theorem journal_keepsKeep (hp : ∀ k a b l, p { k with seq := a, lost := b, journal := l } = p k) : p (journal kind sev data s).keep = p s.keep := by
  unfold journal
  split
  · exact hp s.keep s.keep.seq _ s.keep.journal
  · exact hp s.keep _ s.keep.lost _

theorem writeEntry_keepsKeep (hp : ∀ k a b l, p { k with seq := a, lost := b, journal := l } = p k) {x : EvEntry} :
    p (writeEntry x s).keep = p s.keep := by
  unfold writeEntry
  dsimp only
  repeat' split
  all_goals simp [journal_keepsKeep hp]

theorem writeAll_keepsKeep (hp : ∀ k a b l, p { k with seq := a, lost := b, journal := l } = p k) : p (writeAll n s).keep = p s.keep := by
  induction n generalizing s with
  | zero => rfl
  | succ n ih =>
    unfold writeAll
    split
    · rfl
    · rw [ih, writeEntry_keepsKeep hp]

/-- An event can write journal records, and leaves the rest of the keeper's state as it is. -/
theorem postEv_keepsKeep (hp : ∀ k a b l, p { k with seq := a, lost := b, journal := l } = p k) : p (postEv code inst data s).keep = p s.keep := by
  unfold postEv
  split
  · rfl
  · dsimp only
    split
    · exact writeAll_keepsKeep hp
    · rfl

@[simp] theorem postEv_retLanes : (postEv code inst data s).keep.retLanes = s.keep.retLanes := postEv_keepsKeep fun _ _ _ _ => rfl

theorem findCause_retLanes : (findCause c s).keep.retLanes = s.keep.retLanes := by
  unfold findCause
  split
  case h_4 | h_5 =>
    unfold recordCause
    split
    · rfl
    · exact postEv_retLanes
  case h_6 => rfl
  all_goals split <;> rfl

/-- A cause found at shut-down is not recorded (R19). -/
theorem findCause_of_shuttingDown (h : s.md.mstate = .shuttingDown) : findCause c s = s := by simp [findCause, h]

end

/-! ### One lane changes -/

section
variable {j k code inst i : Nat} {data : List Byte} {f : Lane → Lane} {s t u : State} {T U : List Blk}

theorem laneOf_of_lane (h : t.lane = s.lane) : laneOf t j = laneOf s j := by rw [laneOf, laneOf, h]

theorem laneOf_modLane_same (hk : k < 5) : laneOf (modLane k f s) k = f (laneOf s k) := vget_vset_same hk

theorem laneOf_modLane_other (h : j ≠ k) : laneOf (modLane k f s) j = laneOf s j := vget_vset_other h

@[simp] theorem laneOf_postEv : laneOf (postEv code inst data s) j = laneOf s j := laneOf_of_lane (postEv_lane _ _ _ _)

@[simp] theorem laneOf_laneEvt : laneOf (laneEvt i s) j = laneOf s j := rfl

/-- A change to a lane that leaves its fault-driven hand-overs leaves their count. -/
theorem laneFaults_modLane (hk : k < 5) (hf : ∀ l, (f l).faults = l.faults) : laneFaults (modLane k f s) k = laneFaults s k := by
  rw [laneFaults, laneFaults, laneOf_modLane_same hk, hf]
  rfl

/-- No block outside `T` and no lane but lane k changes. -/
structure ChangesLane (T : List Blk) (k : Nat) (s t : State) : Prop where
  others : ∀ j < 5, j ≠ k → laneOf t j = laneOf s j
  frame : onlyChanges T s t

theorem ChangesLane.of_lane (h : onlyChanges T s t) (hl : t.lane.lanes = s.lane.lanes) : ChangesLane T k s t :=
  ⟨fun j _ _ => by rw [laneOf, laneOf, hl], h⟩

theorem ChangesLane.next (h1 : ChangesLane T k s t) (h2 : ChangesLane U k t u) (hU : U.all (T.contains ·) = true := by decide) : ChangesLane T k s u :=
  ⟨fun j hj hk => (h2.others j hj hk).trans (h1.others j hj hk), h1.frame.next h2.frame hU⟩

theorem ChangesLane.wider (h : ChangesLane U k s t) (hU : U.all (T.contains ·) = true := by decide) : ChangesLane T k s t :=
  ⟨h.others, h.frame.wider hU⟩

theorem modLane_changes : ChangesLane [.lane] k s (modLane k f s) :=
  ⟨fun _ _ => laneOf_modLane_other, onlyChanges.of fun b => by cases b <;> simp [Blk.same]⟩

theorem laneEvt_changes : ChangesLane [.lane] k s (laneEvt i s) := .of_lane (laneEvt_frame _ _) rfl

theorem postEv_changes : ChangesLane [.evr, .keep, .mem, .hp] k s (postEv code inst data s) := .of_lane (postEv_frame _ _ _ _) (by simp)

theorem keep_changes {x : KeepBlk} : ChangesLane [.keep] k s { s with keep := x } :=
  .of_lane (onlyChanges.of fun b => by cases b <;> simp [Blk.same]) rfl

theorem md_changes {x : ModBlk} : ChangesLane [.md] k s { s with md := x } :=
  .of_lane (onlyChanges.of fun b => by cases b <;> simp [Blk.same]) rfl

theorem findCause_changes {c : Byte} : ChangesLane [.md, .evr, .hp, .keep, .mem] k s (findCause c s) :=
  .of_lane findCause_frame (congrArg LaneBlk.lanes (findCause_frame .lane (by decide)))

end

/-! ### Retirement (R75) -/

section
variable {k : Nat} {s : State}

/-- Lane k is `RETIRED`, in the keeper's state too, and its event is told; whether any lane is left has not been judged. -/
def markRetired (k : Nat) (s : State) : State :=
  let s1 := modLane k (fun l => { l with role := .retired, hosts := none }) s
  postEv 0x0404 k (leBytes 1 (min 255 (laneFaults s k))) (laneEvt 9 { s1 with keep := { s1.keep with retLanes := vset s1.keep.retLanes k true } })

theorem retireLane_cases : retireLane k s = markRetired k s ∨ retireLane k s = findCause 0x16 (markRetired k s) := by
  unfold retireLane
  dsimp only
  split
  · exact .inr rfl
  · exact .inl rfl

theorem markRetired_changes : ChangesLane [.lane, .evr, .hp, .keep, .mem] k s (markRetired k s) :=
  ((modLane_changes.wider.next keep_changes).next laneEvt_changes).next postEv_changes

theorem retireLane_changes : ChangesLane [.lane, .evr, .hp, .keep, .md, .mem] k s (retireLane k s) := by
  rcases retireLane_cases (k := k) (s := s) with h | h
  · exact h ▸ markRetired_changes.wider
  · exact h ▸ markRetired_changes.wider.next findCause_changes

theorem laneOf_retireLane (hk : k < 5) : laneOf (retireLane k s) k = { laneOf s k with role := .retired, hosts := none } := by
  have hm : laneOf (markRetired k s) k = { laneOf s k with role := .retired, hosts := none } := by
    simp only [markRetired, laneOf_postEv, laneOf_laneEvt]
    exact laneOf_modLane_same hk
  rcases retireLane_cases (k := k) (s := s) with h | h
  · rw [h, hm]
  · rw [h, laneOf_of_lane (findCause_frame .lane (by decide)), hm]

theorem retireLane_retLanes (hk : k < 5) : vget (retireLane k s).keep.retLanes k = true := by
  have hm : vget (markRetired k s).keep.retLanes k = true := by simpa [markRetired] using vget_vset_same hk
  rcases retireLane_cases (k := k) (s := s) with h | h
  · rw [h, hm]
  · rw [h, findCause_retLanes, hm]

/-- A lane that retires at shut-down leaves the module's state. -/
theorem retireLane_md (h : s.md.mstate = .shuttingDown) : (retireLane k s).md = s.md := by
  have hm : (markRetired k s).md = s.md := by simp [markRetired]
  rcases retireLane_cases (k := k) (s := s) with e | e
  · rw [e, hm]
  · rw [e, findCause_of_shuttingDown (by rw [hm, h]), hm]

end

/-! ### What the end of a test makes of its lane (R75, R78, R80, R443) -/

section
variable {k step : Nat} {v : Byte} {s : State}

/-- A lane that has failed: result and event, and a microcode that it was to receive is dropped. -/
def testFailed (k step : Nat) (s : State) : State :=
  bistFailed k step (modLane k (fun l => { l with bistRes := 2, newUcode := none, reload := false }) s)

theorem bistFailed_changes : ChangesLane [.lane, .evr, .hp, .keep, .mem] k s (bistFailed k step s) := laneEvt_changes.wider.next postEv_changes

theorem laneOf_bistFailed : laneOf (bistFailed k step s) k = laneOf s k := laneOf_postEv

theorem testFailed_changes : ChangesLane [.lane, .evr, .hp, .keep, .mem] k s (testFailed k step s) := modLane_changes.wider.next bistFailed_changes

theorem laneOf_testFailed (hk : k < 5) : laneOf (testFailed k step s) k = { laneOf s k with bistRes := 2, newUcode := none, reload := false } :=
  laneOf_bistFailed.trans (laneOf_modLane_same hk)

/-- Lane k with a passed BIST on record. -/
def markPassed (k : Nat) (s : State) : State := modLane k (fun l => { l with bistRes := 1, suspect := false, lastBist := some (now s) }) s

theorem laneFaults_markPassed (hk : k < 5) : laneFaults (markPassed k s) k = laneFaults s k := laneFaults_modLane hk fun _ => rfl

theorem bistPassed_eq (hk : k < 5) : bistPassed k s = if 2 ≤ laneFaults s k then retireLane k (markPassed k s) else laneToSpare k (markPassed k s) := by
  rw [← laneFaults_markPassed hk]
  rfl

/-- A passed lane with fewer than two faults is `SPARE`, and nothing else of the state changes. -/
theorem bistPassed_few (hk : k < 5) (h : laneFaults s k < 2) : bistPassed k s = { s with lane := { s.lane with lanes := vmod s.lane.lanes k fun l =>
    { l with role := .spare, hosts := none, bistRes := 1, suspect := false, lastBist := some (now s) } } } := by
  rw [bistPassed_eq hk, if_neg (by omega)]
  simp [laneToSpare, markPassed, modLane, vmod, vset, vget, hk]

theorem roll_changes {x : Option Byte} : ChangesLane [.lane] k s { s with lane := { s.lane with roll := x } } :=
  .of_lane (onlyChanges.of fun b => by cases b <;> simp [Blk.same]) rfl

theorem retire_markPassed_spec (hk : k < 5) :
    laneOf (retireLane k (markPassed k s)) k = { laneOf s k with role := .retired, hosts := none, bistRes := 1, suspect := false, lastBist := some (now s) } ∧
    ChangesLane [.lane, .evr, .hp, .keep, .md, .mem] k s (retireLane k (markPassed k s)) :=
  ⟨by rw [laneOf_retireLane hk, markPassed, laneOf_modLane_same hk], modLane_changes.wider.next retireLane_changes⟩

theorem endRoll_cases : endRoll s = s ∨ endRoll s = { s with lane := { s.lane with roll := none } } := by
  unfold endRoll
  split
  · split
    · exact .inr rfl
    · exact .inl rfl
  · exact .inl rfl

theorem endRoll_changes : ChangesLane [.lane] k s (endRoll s) := by
  rcases endRoll_cases (s := s) with h | h
  · rw [h]; exact .of_lane (.refl _ s) rfl
  · rw [h]; exact roll_changes

theorem laneOf_endRoll {j : Nat} : laneOf (endRoll s) j = laneOf s j := by
  rcases endRoll_cases (s := s) with h | h
  · rw [h]
  · rw [h]; rfl

/-- The roll stops, and its target goes back to version v. -/
def stopRoll (v : Byte) (s : State) : State := { s with lane := { s.lane with roll := none }, keep := { s.keep with targetUcode := v } }

theorem stopRoll_changes : ChangesLane [.lane, .keep] k s (stopRoll v s) :=
  .of_lane (onlyChanges.of fun b => by cases b <;> simp [Blk.same, stopRoll]) rfl

/-- Lane k shows the version that it has passed with. -/
def markLoaded (k : Nat) (v : Byte) (s : State) : State := modLane k (fun l => { l with ucodeVer := v, newUcode := none, reload := false }) s

/-- Lane k is `SPARE` with the version that it has passed with, and the load is recorded. -/
def loadedSpare (k : Nat) (v : Byte) (s : State) : State := postEv 0x040D k [v] (laneToSpare k (markPassed k (markLoaded k v s)))

theorem loadedSpare_changes : ChangesLane [.lane, .evr, .hp, .keep, .mem] k s (loadedSpare k v s) :=
  ((modLane_changes.wider.next modLane_changes).next modLane_changes).next postEv_changes

theorem laneOf_loadedSpare (hk : k < 5) : laneOf (loadedSpare k v s) k =
    { laneOf s k with role := .spare, hosts := none, bistRes := 1, suspect := false, lastBist := some (now s), ucodeVer := v, newUcode := none, reload := false } := by
  simp only [loadedSpare, laneToSpare, markPassed, markLoaded, laneOf_postEv, laneOf_modLane_same hk]
  rfl

/-- After a reload the roll stops and its target returns; after a first load the roll ends with its last lane. -/
theorem loadPassed_few (hk : k < 5) (h : laneFaults s k < 2) : loadPassed k v s =
    if (laneOf s k).reload then stopRoll v (loadedSpare k v s) else endRoll (loadedSpare k v s) := by
  have hf : laneFaults (markLoaded k v s) k = laneFaults s k := laneFaults_modLane hk fun _ => rfl
  have hp : bistPassed k (markLoaded k v s) = laneToSpare k (markPassed k (markLoaded k v s)) := by rw [bistPassed_eq hk, if_neg (by omega)]
  unfold loadPassed loadedSpare
  rw [← hp]
  rfl

theorem loadPassed_spec (hk : k < 5) (h : laneFaults s k < 2) :
    laneOf (loadPassed k v s) k = laneOf (loadedSpare k v s) k ∧ ChangesLane [.lane, .evr, .hp, .keep, .mem] k s (loadPassed k v s) ∧
    ((laneOf s k).reload = true → (loadPassed k v s).lane.roll = none ∧ (loadPassed k v s).keep.targetUcode = v) := by
  rw [loadPassed_few hk h]
  split
  case isTrue hr => exact ⟨rfl, loadedSpare_changes.next stopRoll_changes, fun _ => ⟨rfl, rfl⟩⟩
  case isFalse hr => exact ⟨laneOf_endRoll, loadedSpare_changes.next endRoll_changes, fun h => absurd h hr⟩

end

/-! ### `LANE_BIST_DONE` -/

section
variable {k step : Nat} {pass : Bool} {v : Byte} {s : State}

theorem laneTested_of_not_tested (h1 : (laneOf s k).role ≠ .bist) (h2 : (laneOf s k).role ≠ .ucodeLoad) : laneTested k pass step s = s := by
  simp [laneTested, h1, h2]

/-- BIST alone: a failure retires the lane. -/
theorem laneTested_of_none (hr : (laneOf s k).role = .bist) (hn : (laneOf s k).newUcode = none) :
    laneTested k pass step s = if pass then bistPassed k s else retireLane k (testFailed k step s) := by
  simp only [laneTested, testFailed, hr, hn]
  rfl

/-- BIST on received microcode: a failure on a new version loads the version that the lane has, a failure on that retires the lane. -/
theorem laneTested_of_some (hr : (laneOf s k).role = .bist ∨ (laneOf s k).role = .ucodeLoad) (hn : (laneOf s k).newUcode = some v) :
    laneTested k pass step s =
      if pass then loadPassed k v s
      else if (laneOf s k).reload then retireLane k (testFailed k step s)
      else laneToLoad k (laneOf s k).ucodeVer true (testFailed k step s) := by
  rcases hr with hr | hr <;> simp only [laneTested, testFailed, hr, hn] <;> rfl

/-- A lane that fails is `RETIRED` where it has no microcode of its own to be loaded again with. -/
theorem retire_testFailed_spec (hk : k < 5) :
    laneOf (retireLane k (testFailed k step s)) k = { laneOf s k with role := .retired, hosts := none, bistRes := 2, newUcode := none, reload := false } ∧
    ChangesLane [.lane, .evr, .hp, .keep, .md, .mem] k s (retireLane k (testFailed k step s)) :=
  ⟨by rw [laneOf_retireLane hk, laneOf_testFailed hk], testFailed_changes.wider.next retireLane_changes⟩

theorem reload_testFailed_spec (hk : k < 5) :
    (let l := laneOf (laneToLoad k v true (testFailed k step s)) k
     l.role = .ucodeLoad ∧ l.newUcode = some v ∧ l.reload = true ∧ l.ucodeVer = (laneOf s k).ucodeVer) ∧
    ChangesLane [.lane, .evr, .hp, .keep, .mem] k s (laneToLoad k v true (testFailed k step s)) := by
  refine ⟨?_, testFailed_changes.next modLane_changes⟩
  simp [laneToLoad, laneOf_modLane_same hk, laneOf_testFailed hk]

/-- The result of lane k at shut-down, with its record (R487). -/
def markShutTest (k : Nat) (pass : Bool) (s : State) : State :=
  modLane k (fun l => { l with bistRes := if pass then 1 else 2, lastBist := if pass then some (now s) else l.lastBist })
    { s with md := { s.md with shutLanes := vset s.md.shutLanes k (if pass then .pass else .fail) } }

theorem laneShutTested_eq (h1 : s.md.shutBist = true) (h2 : (laneOf s k).role ≠ .retired) : laneShutTested k pass step s =
    if pass then markShutTest k pass s else retireLane k (bistFailed k step (markShutTest k pass s)) := by
  have hm : modLane k (fun l => { l with bistRes := if pass then 1 else 2, lastBist := if pass then some (now s) else (laneOf s k).lastBist })
      { s with md := { s.md with shutLanes := vset s.md.shutLanes k (if pass then .pass else .fail) } } = markShutTest k pass s := by
    simp [markShutTest, modLane, vmod, laneOf]
  rw [← hm]
  simp [laneShutTested, h1, h2]
  rfl

theorem markShutTest_changes : ChangesLane [.md, .lane] k s (markShutTest k pass s) := md_changes.wider.next modLane_changes

theorem laneShutTested_spec (hk : k < 5) (h : s.md.mstate = .shuttingDown) (h1 : s.md.shutBist = true) (h2 : (laneOf s k).role ≠ .retired) :
    vget (laneShutTested k pass step s).md.shutLanes k = (if pass then .pass else .fail) ∧
    (laneOf (laneShutTested k pass step s) k).bistRes = (if pass then 1 else 2) ∧
    (pass = false → (laneOf (laneShutTested k pass step s) k).role = .retired ∧ vget (laneShutTested k pass step s).keep.retLanes k = true) ∧
    ChangesLane [.md, .lane, .evr, .hp, .keep, .mem] k s (laneShutTested k pass step s) := by
  have hv (x : PartRes) : vget (vset s.md.shutLanes k x) k = x := vget_vset_same hk
  have hl : laneOf (markShutTest k pass s) k = { laneOf s k with bistRes := if pass then 1 else 2, lastBist := if pass then some (now s) else (laneOf s k).lastBist } :=
    laneOf_modLane_same hk
  rw [laneShutTested_eq h1 h2]
  cases pass with
  | true => exact ⟨hv _, congrArg Lane.bistRes hl, nofun, markShutTest_changes.wider⟩
  | false =>
    have hb : (bistFailed k step (markShutTest k false s)).md = (markShutTest k false s).md := bistFailed_changes.frame .md (by decide)
    have hm : (retireLane k (bistFailed k step (markShutTest k false s))).md = (markShutTest k false s).md := (retireLane_md (by rw [hb]; exact h)).trans hb
    have hr : laneOf (retireLane k (bistFailed k step (markShutTest k false s))) k = { laneOf (markShutTest k false s) k with role := .retired, hosts := none } := by
      rw [laneOf_retireLane hk, laneOf_bistFailed]
    refine ⟨?_, ?_, fun _ => ⟨congrArg Lane.role hr, retireLane_retLanes hk⟩, (markShutTest_changes.wider.next bistFailed_changes).next retireLane_changes⟩
    · exact (congrArg (fun m : ModBlk => vget m.shutLanes k) hm).trans (hv _)
    · exact (congrArg Lane.bistRes hr).trans (congrArg Lane.bistRes hl)

end

/-! ### Time reaches an instant -/

section
variable {d f k t : Nat} {s : State}

/-- A step to the next event takes at least one tick, and no more than are left. -/
theorem nextDue_bounds (hk : 0 < k) : 0 < nextDue s k ∧ nextDue s k ≤ k := by
  unfold nextDue
  refine List.foldlRecOn (motive := fun m => 0 < m ∧ m ≤ k) _ _ ⟨hk, Nat.le_refl k⟩ fun m ⟨hpos, hle⟩ c _ => ?_
  split
  · exact ⟨Nat.lt_min.2 ⟨hpos, by omega⟩, Nat.le_trans (Nat.min_le_left _ _) hle⟩
  · exact ⟨hpos, hle⟩

theorem runTo_time (hd : 0 < d) : (runTo d s).time.tclkRun = s.time.tclkRun ∧ (runTo d s).time.tbase = (s.time.tbase + d) % 2 ^ 64 := by
  unfold runTo
  split
  · obtain rfl : d = 1 := by omega
    exact ⟨rfl, rfl⟩
  · refine ⟨rfl, ?_⟩
    simp only [tclkEdge, TimeBlk.pass]
    omega

theorem runTicks_time (h : k ≤ f) : (runTicks f k s).time.tclkRun = s.time.tclkRun ∧
    (runTicks f k s).time.tbase % 2 ^ 64 = (s.time.tbase + k) % 2 ^ 64 := by
  induction f generalizing k s with
  | zero =>
    obtain rfl : k = 0 := by omega
    exact ⟨rfl, rfl⟩
  | succ f ih =>
    unfold runTicks
    split
    case isTrue h0 => exact ⟨rfl, by rw [h0, Nat.add_zero]⟩
    case isFalse h0 =>
      obtain ⟨hd0, hd⟩ := nextDue_bounds (s := s) (Nat.pos_of_ne_zero h0)
      obtain ⟨hrun, htb⟩ := runTo_time (s := s) hd0
      obtain ⟨ihrun, ihtb⟩ := ih (k := k - nextDue s k) (s := runTo (nextDue s k) s) (by omega)
      exact ⟨ihrun.trans hrun, by dsimp only; omega⟩

/-- While TCLK runs, an advance to an instant reaches it. -/
theorem le_now_advanceTo (h : s.time.tclkRun = true) (ht : t < 2 ^ 64) : t ≤ now (advanceTo t s) := by
  have e : advanceTo t s = runTicks (t - s.time.tbase) (t - s.time.tbase) s := by simp [advanceTo, advance, instant, h]
  obtain ⟨hrun, htb⟩ := runTicks_time (s := s) (Nat.le_refl (t - s.time.tbase))
  rw [e, now, hrun, h, if_pos rfl]
  rcases Nat.le_total t s.time.tbase with hle | hle
  · rw [Nat.sub_eq_zero_of_le hle]
    exact hle
  · omega

end

/-! ### The rotation (R76), and the end of observer duty (R82) -/

section
variable {j reason t : Nat} {s : State}

theorem rotCheck_frame : onlyChanges [.lane] s (rotCheck s) := by
  unfold rotCheck
  split
  · exact onlyChanges.of fun b => by cases b <;> simp [Blk.same]
  · exact .refl _ s

theorem rotCheck_of_due (h : s.lane.rotDue = true) : rotCheck s = s := by
  unfold rotCheck
  split
  · rw [← h]
  · rfl

theorem advanceTo_lane : (advanceTo t s).lane = s.lane := advanceTo_frame .lane (by decide)

/-- With the period passed the rotation is due. -/
theorem rotCheck_lane (h1 : s.lane.rotPeriodH ≠ 0) (h2 : s.lane.rotSince + rotTicks s ≤ now s) : (rotCheck s).lane = { s.lane with rotDue := true } := by
  have h : (s.lane.rotPeriodH != 0 && decide (s.lane.rotSince + rotTicks s ≤ now s)) = true := by
    rw [Bool.and_eq_true, bne_iff_ne, decide_eq_true_iff]
    exact ⟨h1, h2⟩
  rw [rotCheck, if_pos h]

theorem execLaneRotationDue_spec (h1 : s.lane.rotPeriodH ≠ 0) (h2 : s.time.tclkRun = true) (h3 : s.lane.rotSince + rotTicks s < 2 ^ 64) :
    ∃ t, execLaneRotationDue s = .next t ∧ t.lane = { s.lane with rotDue := true } ∧ onlyChanges [.lane, .time, .tmr] s t := by
  have hl : (advanceTo (s.lane.rotSince + rotTicks s) s).lane = s.lane := advanceTo_lane
  have ht : rotTicks (advanceTo (s.lane.rotSince + rotTicks s) s) = rotTicks s := congrArg (fun l : LaneBlk => hourTicks l.rotPeriodH.toNat) hl
  refine ⟨_, rfl, ?_, advanceTo_frame.wider.next rotCheck_frame⟩
  rw [rotCheck_lane, hl]
  · rwa [hl]
  · rw [ht, hl]
    exact le_now_advanceTo h2 h3

/-- The observer's lane is `SPARE` again, its logical lane is on none, and the qualification says why it ended. -/
theorem endObserver_spec (h : (llOf s 4).lane = some j) (hj : j < 5) :
    (llOf (endObserver reason s) 4).lane = none ∧ (laneOf (endObserver reason s) j).role = .spare ∧ (laneOf (endObserver reason s) j).hosts = none ∧
    (endObserver reason s).lane.qual.state = (if reason = 4 then 4 else 3) ∧ (endObserver reason s).lane.qual.endReason = reason := by
  have hl (f : Lane → Lane) : vget (vmod s.lane.lanes j f) j = f (vget s.lane.lanes j) := vget_vset_same hj
  have hll (f : LLane → LLane) : vget (vmod s.lane.lls 4 f) 4 = f (vget s.lane.lls 4) := vget_vset_same (by decide)
  unfold endObserver
  rw [h]
  simp [clearFree, laneToSpare, modLane, modLl, llOf, laneOf, hl, hll]

theorem execObserverTimeout_eq (h : (llOf s 4).lane = some j) (h1 : s.lane.qual.state = 1) (h2 : s.lane.rotDue = true) :
    execObserverTimeout s = .next (endObserver 3 (advanceTo (s.lane.qual.since + hourTicks 168) s)) := by
  have hd : (advanceTo (s.lane.qual.since + hourTicks 168) s).lane.rotDue = true := by rw [advanceTo_lane, h2]
  simp [execObserverTimeout, rotCheck_of_due hd, h, h1, hd]

theorem execObserverTimeout_spec (h : (llOf s 4).lane = some j) (hj : j < 5) (h1 : s.lane.qual.state = 1) (h2 : s.lane.rotDue = true) :
    ∃ t, execObserverTimeout s = .next t ∧ (llOf t 4).lane = none ∧ (laneOf t j).role = .spare ∧ (laneOf t j).hosts = none ∧ t.lane.qual.state = 3 ∧
      t.lane.qual.endReason = 3 ∧ t.cyc = s.cyc ∧ onlyChanges [.lane, .evr, .hp, .keep, .mem, .time, .tmr] s t := by
  have hf : onlyChanges [.lane, .evr, .hp, .keep, .mem, .time, .tmr] s (endObserver 3 (advanceTo (s.lane.qual.since + hourTicks 168) s)) :=
    advanceTo_frame.wider.next endObserver_frame
  obtain ⟨hll, hrole, hhosts, hstate, hreason⟩ :=
    endObserver_spec (s := advanceTo (s.lane.qual.since + hourTicks 168) s) (reason := 3) (by rw [llOf, advanceTo_lane]; exact h) hj
  exact ⟨_, execObserverTimeout_eq h h1 h2, hll, hrole, hhosts, hstate, hreason, hf .cyc (by decide), hf⟩

end

/-! ### The statement -/

section
variable {k : Fin 5} {step : Fin 3} {p : Bool} {s : State}

theorem exec_laneBistDone {t : State} (h : s.md.mstate ≠ .shuttingDown) (e : laneTested k.val p step.val s = t) :
    exec (.laneBistDone k p step) s = .next t := by
  simp [exec, execLaneBistDone, h, e]

theorem exec_laneBistDone_shuttingDown (h : s.md.mstate = .shuttingDown) :
    exec (.laneBistDone k p step) s = .next (laneShutTested k.val p step.val s) := by
  simp [exec, execLaneBistDone, h]

end

/-- Settles O33: what a lane under test becomes follows from `laneTested_of_none`, `laneTested_of_some` and `laneShutTested_eq`, each of whose results
changes one lane; the rotation's instant is reached, and observer duty ends on the lane that hosts it. -/
theorem laneTestsAndRotation : Obligations.LaneTestsAndRotation := by
  intro k step s
  have hk := k.isLt
  obtain ⟨hfail, hfc⟩ := retire_testFailed_spec (s := s) (step := step.val) hk
  refine ⟨fun h1 h2 h => ?_, fun h h1 h2 p => ?_, fun hf h hr hn => ?_, fun h hr hn => ⟨fun hf => ?_, ?_⟩,
    fun v h hr hn => ⟨fun hf => ?_, fun hre => ?_, fun hre => ?_⟩, execLaneRotationDue_spec, fun j h hj h1 h2 => execObserverTimeout_spec h hj h1 h2⟩
  · exact ⟨exec_laneBistDone h (laneTested_of_not_tested h1 h2), exec_laneBistDone h (laneTested_of_not_tested h1 h2)⟩
  · obtain ⟨hshut, hres, hret, hc⟩ := laneShutTested_spec (step := step.val) (pass := p) hk h h1 h2
    exact ⟨_, exec_laneBistDone_shuttingDown h, hshut, hres, hret, hc.others, hc.frame⟩
  · have e : bistPassed k.val s = retireLane k.val (markPassed k.val s) := (bistPassed_eq hk).trans (if_pos hf)
    obtain ⟨hl, hc⟩ := retire_markPassed_spec (s := s) hk
    exact ⟨_, exec_laneBistDone h ((laneTested_of_none hr hn).trans e), congrArg Lane.role hl, congrArg Lane.bistRes hl, retireLane_retLanes hk, hc.others, hc.frame⟩
  · exact ⟨_, exec_laneBistDone h (laneTested_of_none hr hn), bistPassed_few hk hf⟩
  · exact ⟨_, exec_laneBistDone h (laneTested_of_none hr hn), congrArg Lane.role hfail, congrArg Lane.bistRes hfail, retireLane_retLanes hk, hfc.others,
      hfc.frame .cyc (by decide), hfc.frame⟩
  · obtain ⟨hp, hc, hroll⟩ := loadPassed_spec (v := v) hk hf
    have hl := hp.trans (laneOf_loadedSpare hk)
    exact ⟨_, exec_laneBistDone h (laneTested_of_some hr hn), congrArg Lane.role hl, congrArg Lane.ucodeVer hl, congrArg Lane.newUcode hl,
      congrArg Lane.bistRes hl, hroll, hc.others, hc.frame⟩
  · obtain ⟨⟨hrole, hnew, hrel, hver⟩, hc⟩ := reload_testFailed_spec (s := s) (step := step.val) (v := (laneOf s k.val).ucodeVer) hk
    exact ⟨_, exec_laneBistDone h ((laneTested_of_some hr hn).trans (by simp [hre])), hrole, hnew, hrel, hver, hc.others, hc.frame⟩
  · exact ⟨_, exec_laneBistDone h ((laneTested_of_some hr hn).trans (by simp [hre])), congrArg Lane.role hfail, retireLane_retLanes hk, hfc.others, hfc.frame⟩

end Sys2Proof.Machine
end

section
/-! PROOFS. The samples of the motion monitors and the two computations of their units (R148, R158, R160, R162). -/

-- One declaration after the other: side by side, their threads' stacks need more memory than the check allows.
set_option Elab.async false

namespace Sys2Proof.Machine

/-! ### Tables under a change -/

section
variable {α : Type} [Inhabited α] {k i j : Nat} {v : Vector α k} {f : α → α}

theorem vget_vmod_same (h : i < k) : vget (vmod v i f) i = f (vget v i) := vget_vset_same h

theorem vget_vmod_other (h : j ≠ i) : vget (vmod v i f) j = vget v j := vget_vset_other h

/-- A change to an entry that there is not, or to another, leaves entry j. -/
theorem vget_vmod_of_not (h : ¬(j = i ∧ i < k)) : vget (vmod v i f) j = vget v j := by
  by_cases hi : i < k
  · exact vget_vmod_other fun e => h ⟨e, hi⟩
  · rw [vmod, vset, dif_neg hi]

theorem vget_vmapi {β : Type} [Inhabited β] {g : Nat → α → β} (h : i < k) : vget (vmapi g v) i = g i (vget v i) := by
  simp [vget_of_lt h, vmapi]

theorem vany_eq_false_iff {p : α → Bool} : vany v p = false ↔ ∀ i < k, p (vget v i) = false := by
  have h : vany v p = !vall v fun a => !p a := List.any_eq_not_all_not
  rw [h, Bool.not_eq_false', vall_iff]
  simp

end

/-! ### The lowest of the causes (R158, R159) -/

section
variable {a c : Nat} {l m : List Nat} {p : Prop} [Decidable p]

theorem foldl_lowest_eq_min (ha : 0 < a) (h : ∀ c ∈ l, 0 < c) : l.foldl (fun a b => if a = 0 then b else min a b) a = l.foldl min a := by
  induction l generalizing a with
  | nil => rfl
  | cons b l ih =>
    rw [List.forall_mem_cons] at h
    rw [List.foldl_cons, List.foldl_cons, if_neg (Nat.ne_of_gt ha)]
    exact ih (Nat.lt_min.2 ⟨ha, h.1⟩) h.2

theorem lowest_eq_min (h : ∀ c ∈ l, 0 < c) : lowest l = l.min?.getD 0 := by
  rw [lowest, List.filter_eq_self.2 (by simpa using h)]
  cases l with
  | nil => rfl
  | cons c l =>
    rw [List.forall_mem_cons] at h
    rw [List.min?_cons', List.foldl_cons, if_pos rfl]
    exact foldl_lowest_eq_min h.1 h.2

/-- The lowest of positive numbers is one of them, and above none. -/
theorem lowest_spec (h : ∀ c ∈ l, 0 < c) (hc : c ∈ l) : lowest l ∈ l ∧ lowest l ≤ c := by
  rw [lowest_eq_min h]
  cases hm : l.min? with
  | none => simp [List.min?_eq_none_iff.1 hm] at hc
  | some m => exact (List.min?_eq_some_iff.1 hm).imp_right (· c hc)

/-- A list that names causes of a monitor in use: none below 2 (R158). -/
def Causes (l : List Nat) : Prop := ∀ c ∈ l, 2 ≤ c

theorem Causes.append (h1 : Causes l) (h2 : Causes m) : Causes (l ++ m) := List.forall_mem_append.2 ⟨h1, h2⟩

theorem causes_if (h1 : Causes l) (h2 : Causes m) : Causes (if p then l else m) := by
  split
  · exact h1
  · exact h2

theorem causes_nil : Causes [] := List.forall_mem_nil _

theorem causes_singleton (h : 2 ≤ c := by decide) : Causes [c] := List.forall_mem_singleton.2 h

/-- A cause is named when `p` holds. -/
theorem causes_when (h : 2 ≤ c := by decide) : Causes (if p then [c] else []) := causes_if (causes_singleton h) causes_nil

theorem Causes.when (h : Causes l) (hc : 2 ≤ c := by decide) : Causes (l ++ if p then [c] else []) := h.append (causes_when hc)

/-- A cause is named unless `p` holds. -/
theorem Causes.unless (h : Causes l) (hc : 2 ≤ c := by decide) : Causes (l ++ if p then [] else [c]) :=
  h.append (causes_if causes_nil (causes_singleton hc))

end

/-! ### What a sample leaves of its monitor, and its mismatch (R158, R160) -/

section
variable {n ts : Nat} {bad : Bool} {m : Mon} {s : State}

theorem sampleMon_res_length : (sampleMon s n ts bad m).res.length = 25 := rfl

theorem sampleMon_unit : (sampleMon s n ts bad m).unit = m.unit := rfl

theorem sampleMon_used : (sampleMon s n ts bad m).used = m.used := rfl

theorem sampleMon_handReq : (sampleMon s n ts bad m).handReq = bad := rfl

/-- The cause of a sample that its unit's mismatch spoils is the lowest of causes among which 11 is. -/
theorem sampleMon_cause : ∃ l, Causes l ∧ 11 ∈ l ∧ (sampleMon s n ts true m).cause = lowest l := by
  refine ⟨_, ?_, ?_, rfl⟩
  · exact (causes_when).when.unless.when.when.when.when.when.when.when.when.when
  · exact List.mem_append_left _ (List.mem_append_left _ (List.mem_append_right _ (List.mem_singleton_self 11)))

theorem sampleMon_cause_bounds : 2 ≤ (sampleMon s n ts true m).cause ∧ (sampleMon s n ts true m).cause ≤ 11 := by
  obtain ⟨l, hl, h11, e⟩ := sampleMon_cause (s := s) (n := n) (ts := ts) (m := m)
  obtain ⟨hmem, hle⟩ := lowest_spec (fun c hc => Nat.lt_of_lt_of_le (by decide) (hl c hc)) h11
  rw [e]
  exact ⟨hl _ hmem, hle⟩

end

/-! ### The unit's two computations (R160) -/

section
variable {n ts u i : Nat} {again : Bool} {l : List UnitFault} {f : UnitFault} {x : Word} {ws : List Word} {m : Mon} {s : State}

/-- The dual computation is true: the two agree where no fault shows on the direct one. -/
theorem unitAgrees_iff : unitAgrees l u again ws = true ↔ unitDirect l u again ws = ws := by
  simp [unitAgrees, unitDual, Function.comp_def]

theorem unitAgrees_nil : unitAgrees [] u again ws = true := unitAgrees_iff.2 rfl

/-- Wrong bits change a list of words unless there are none. -/
theorem modify_xor_eq_self_iff (h : i < ws.length) : ws.modify i (· ^^^ x) = ws ↔ x = 0 := by
  constructor
  · intro e
    have hi : (ws.modify i (· ^^^ x))[i]? = ws[i]? := congrArg (·[i]?) e
    rw [List.getElem?_modify, List.getElem?_eq_getElem h, Option.map_eq_map, Option.map_some, if_pos rfl, Option.some.injEq] at hi
    exact (BitVec.xor_right_inj ws[i]).1 (hi.trans BitVec.xor_zero.symm)
  · rintro rfl
    have hid : (fun w : Word => w ^^^ 0) = id := funext fun _ => BitVec.xor_zero
    rw [hid, List.modify_id]

/-- A fault of the unit shows on the computation in which it leaves wrong bits. -/
theorem unitAgrees_singleton_iff (h : f.word < ws.length) :
    unitAgrees [f] f.unit.val again ws = true ↔ (if again then f.again else f.first) = 0 := by
  rw [unitAgrees_iff, ← modify_xor_eq_self_iff h]
  simp [unitDirect]

/-- A unit's sample is that of its monitor, spoilt or not. -/
theorem unitSample_cases : ∃ bad, (unitSample l s n ts m).1 = sampleMon s n ts bad m := by
  unfold unitSample
  dsimp only
  split
  · exact ⟨false, rfl⟩
  · split
    · exact ⟨false, rfl⟩
    · split
      · exact ⟨false, rfl⟩
      · exact ⟨true, rfl⟩

theorem unitSample_nil : unitSample [] s n ts m = (sampleMon s n ts false m, false) := by
  unfold unitSample
  dsimp only
  split
  · rfl
  · rw [unitAgrees_nil, if_pos rfl]

/-- A mismatch is repeated, and the second one spoils the sample. -/
theorem unitSample_of_fault (hu : m.unit = some f.unit.val) (hw : f.word < 25) (hf : f.first ≠ 0) :
    unitSample [f] s n ts m = (sampleMon s n ts (f.again != 0) m, true) := by
  have hlen : f.word < (sampleMon s n ts false m).res.length := hw
  have hfirst : ¬ unitAgrees [f] f.unit.val false (sampleMon s n ts false m).res = true := fun h => hf ((unitAgrees_singleton_iff hlen).1 h)
  have hagain : unitAgrees [f] f.unit.val true (sampleMon s n ts false m).res = true ↔ f.again = 0 := unitAgrees_singleton_iff hlen
  unfold unitSample
  simp only [hu, if_neg hfirst, hagain]
  split
  case isTrue h => simp [h]
  case isFalse h => rw [bne_iff_ne.2 h]

end

/-! ### Telling: flags of `MM_EVT` and events (R396) -/

/-- From `s` to `t` things are told: of the monitors only bits of `MM_EVT` are set, beside the event paths and what leaves `QUIET` (R23). -/
structure MmTells (s t : State) : Prop where
  mm : ∃ e, t.mm = { s.mm with evt := s.mm.evt ||| e }
  frame : onlyChanges [.mm, .evr, .hp, .keep, .md, .mem] s t

section
variable {code inst i n : Nat} {d : List Byte} {x : ModBlk} {o m : Mon} {p : Prop} [Decidable p] {s t u : State}

theorem mmEvt_frame : onlyChanges [.mm] s (mmEvt i s) := onlyChanges.of fun b => by cases b <;> simp [Blk.same]

theorem MmTells.of_mm (h : t.mm = s.mm) (hf : onlyChanges [.mm, .evr, .hp, .keep, .md, .mem] s t) : MmTells s t := ⟨⟨0, by simp [h]⟩, hf⟩

theorem MmTells.refl (s : State) : MmTells s s := .of_mm rfl (.refl _ s)

theorem MmTells.trans (h1 : MmTells s t) (h2 : MmTells t u) : MmTells s u := by
  obtain ⟨a, ha⟩ := h1.mm
  obtain ⟨b, hb⟩ := h2.mm
  exact ⟨⟨a ||| b, by rw [hb, ha, BitVec.or_assoc]⟩, h1.frame.trans h2.frame⟩

theorem MmTells.ite (h1 : MmTells s t) (h2 : MmTells s u) : MmTells s (if p then t else u) := by
  split
  · exact h1
  · exact h2

theorem MmTells.foldl {α : Type} {g : State → α → State} (hg : ∀ s a, MmTells s (g s a)) (l : List α) (s : State) : MmTells s (l.foldl g s) := by
  induction l generalizing s with
  | nil => exact .refl s
  | cons a l ih => exact (hg s a).trans (ih (g s a))

theorem MmTells.post (h : MmTells s t) : MmTells s (postEv code inst d t) := h.trans (.of_mm (by simp) (postEv_frame _ _ _ _).wider)

theorem MmTells.evt (h : MmTells s t) : MmTells s (mmEvt i t) := h.trans ⟨⟨_, rfl⟩, mmEvt_frame.wider⟩

theorem MmTells.md (h : MmTells s t) : MmTells s { t with md := x } :=
  h.trans (.of_mm rfl (onlyChanges.of fun b => by cases b <;> simp [Blk.same]))

theorem MmTells.mons (h : MmTells s t) : t.mm.mons = s.mm.mons := by
  obtain ⟨e, he⟩ := h.mm
  rw [he]

theorem MmTells.units (h : MmTells s t) : t.mm.units = s.mm.units := by
  obtain ⟨e, he⟩ := h.mm
  rw [he]

/-- What is told stays told. -/
theorem MmTells.getLsbD_evt (h : MmTells s t) (hi : s.mm.evt.getLsbD i = true) : t.mm.evt.getLsbD i = true := by
  obtain ⟨e, he⟩ := h.mm
  simp [he, hi]

theorem monEvents_tells : MmTells s (monEvents n o m s) := by
  unfold monEvents
  extract_lets _ newBad _ s1 pd s2 s3 s4 s5
  have h1 : MmTells s s1 := .ite (MmTells.refl s).evt.post (.refl s)
  have h2 : MmTells s s2 := .ite h1.evt.post h1
  have h3 : MmTells s s3 := .ite h2.evt.post h2
  have h4 : MmTells s s4 := by
    refine .ite ?_ h3
    split
    · exact h3.post
    · exact h3
  have h5 : MmTells s s5 := .ite h4.evt.post h4
  exact .ite h5.evt.post h5

end

/-! ### `MM_SAMPLE` (R148, R162) -/

/-- A monitor after its sample, but for the count of its shadow's (R158, R160). -/
def monSampled (l : List UnitFault) (s : State) (ts n : Nat) (m : Mon) : Mon :=
  if !m.used then { m with res := unusedWords, cause := 1 } else (unitSample l s n ts m).1

/-- What a sample gives a monitor is the same in two. -/
structure SameSample (x y : Mon) : Prop where
  used : y.used = x.used
  unit : y.unit = x.unit
  handReq : y.handReq = x.handReq
  cause : y.cause = x.cause
  res : y.res = x.res

theorem SameSample.refl (x : Mon) : SameSample x x := ⟨rfl, rfl, rfl, rfl, rfl⟩

section
variable {l : List UnitFault} {f : UnitFault} {n ts : Nat} {bad : Bool} {m : Mon} {r s : State}

theorem monSampled_unused (h : m.used = false) : (monSampled l s ts n m).res = unusedWords := by simp [monSampled, h]

theorem monSampled_used (h : m.used = true) : monSampled l s ts n m = (unitSample l s n ts m).1 := by simp [monSampled, h]

/-- The shadow's sample counts at its monitor, and is kept for the next. -/
theorem shadowSample_cases : shadowSample l r s ts = s ∨ ∃ j p eq, shadowSample l r s ts = { s with mm := { s.mm with
    shadowMon := p, mons := vmod s.mm.mons j fun m => { m with shadowEq := if eq = true then m.shadowEq + 1 else 0, shadowN := m.shadowN + 1 } } } := by
  unfold shadowSample
  split
  · exact .inl rfl
  · dsimp only
    split
    · exact .inl rfl
    · exact .inr ⟨_, _, _, rfl⟩

theorem shadowSample_mons : SameSample (vget s.mm.mons n) (vget (shadowSample l r s ts).mm.mons n) := by
  rcases shadowSample_cases (l := l) (r := r) (s := s) (ts := ts) with e | ⟨j, p, eq, e⟩
  · rw [e]
    exact .refl _
  · rw [e]
    dsimp only
    by_cases hn : n = j ∧ j < 16
    · obtain ⟨rfl, hj⟩ := hn
      rw [vget_vmod_same hj]
      exact ⟨rfl, rfl, rfl, rfl, rfl⟩
    · rw [vget_vmod_of_not hn]
      exact .refl _

theorem shadowSample_units : (shadowSample l r s ts).mm.units = s.mm.units := by
  rcases shadowSample_cases (l := l) (r := r) (s := s) (ts := ts) with e | ⟨j, p, eq, e⟩ <;> rw [e]

theorem shadowSample_frame : onlyChanges [.mm] s (shadowSample l r s ts) := by
  rcases shadowSample_cases (l := l) (r := r) (s := s) (ts := ts) with e | ⟨j, p, eq, e⟩
  · rw [e]; exact .refl _ s
  · rw [e]; exact onlyChanges.of fun b => by cases b <;> simp [Blk.same]

/-- The state at the instant of the sample. -/
def atSample (s : State) : State := if s.cyc.running then advanceTo (s.cyc.nextT0 - 128) s else s

theorem atSample_frame : onlyChanges [.time, .tmr] s (atSample s) := by
  unfold atSample
  split
  · exact advanceTo_frame
  · exact .refl _ s

theorem atSample_mm : (atSample s).mm = s.mm := atSample_frame .mm (by decide)

/-- The instant of the sample, t0 − 8 µs while cycles run. -/
def sampleTick (s : State) : Nat := if s.cyc.running then s.cyc.nextT0 - 128 else now (atSample s)

/-- Every monitor has its sample; the shadow has not, and nothing has been told. -/
def onlySampled (l : List UnitFault) (s : State) : State :=
  let s0 := atSample s
  { s0 with mm := { s0.mm with mons := vmapi (monSampled l s0 (sampleTick s)) s0.mm.mons }, free := s0.free + 32 }

/-- The shadow has its sample too. -/
def monsSampled (l : List UnitFault) (s : State) : State := shadowSample l (atSample s) (onlySampled l s) (sampleTick s)

/-- Does a unit find a mismatch in the sample? -/
def sampleMismatch (l : List UnitFault) (s : State) : Bool :=
  (List.range 16).any fun n =>
    (vget (atSample s).mm.mons n).used && (unitSample l (atSample s) n (sampleTick s) (vget (atSample s).mm.mons n)).2

theorem monsSampled_frame : onlyChanges [.mm, .free, .time, .tmr] s (monsSampled l s) := by
  have h : onlyChanges [.mm, .free] (atSample s) (onlySampled l s) := onlyChanges.of fun b => by cases b <;> simp [Blk.same, onlySampled]
  exact (atSample_frame.wider.next h).next shadowSample_frame

theorem monsSampled_free : (monsSampled l s).free = s.free + 32 := by
  have h1 : (monsSampled l s).free = (atSample s).free + 32 := shadowSample_frame .free (by decide)
  have h2 : (atSample s).free = s.free := atSample_frame .free (by decide)
  rw [h1, h2]

theorem monsSampled_units : (monsSampled l s).mm.units = s.mm.units := by
  have h1 : (monsSampled l s).mm.units = (atSample s).mm.units := shadowSample_units
  rw [h1, atSample_mm]

theorem monsSampled_mons (hn : n < 16) :
    SameSample (monSampled l (atSample s) (sampleTick s) n (vget s.mm.mons n)) (vget (monsSampled l s).mm.mons n) := by
  have e : vget (onlySampled l s).mm.mons n = monSampled l (atSample s) (sampleTick s) n (vget s.mm.mons n) := by
    rw [← congrArg MmBlk.mons (atSample_mm (s := s))]
    exact vget_vmapi hn
  rw [← e]
  exact shadowSample_mons

/-- `MM_SAMPLE` tells what its samples show. -/
theorem mmSample_tells : MmTells (if sampleMismatch l s then mmEvt 2 (monsSampled l s) else monsSampled l s) (mmSample l s) := by
  unfold mmSample
  extract_lets s0 ts one mis _ s1 s2 woke
  have h2 : MmTells (if mis then mmEvt 2 s1 else s1) s2 := .foldl (fun _ _ => .ite monEvents_tells (.refl _)) _ _
  exact .ite h2.md h2

theorem mmSample_tells_sampled : MmTells (monsSampled l s) (mmSample l s) :=
  (MmTells.ite (MmTells.refl _).evt (.refl _)).trans mmSample_tells

theorem mmSample_frame : onlyChanges [.mm, .free, .evr, .hp, .keep, .md, .mem, .time, .tmr] s (mmSample l s) :=
  monsSampled_frame.wider.next mmSample_tells_sampled.frame

theorem mmSample_free : (mmSample l s).free = s.free + 32 := (mmSample_tells_sampled.frame .free (by decide)).trans monsSampled_free

theorem mmSample_units : (mmSample l s).mm.units = s.mm.units := mmSample_tells_sampled.units.trans monsSampled_units

theorem mmSample_mons (hn : n < 16) :
    SameSample (monSampled l (atSample s) (sampleTick s) n (vget s.mm.mons n)) (vget (mmSample l s).mm.mons n) := by
  rw [mmSample_tells_sampled.mons]
  exact monsSampled_mons hn

theorem mmSample_unused (hn : n < 16) (h : (vget s.mm.mons n).used = false) : (vget (mmSample l s).mm.mons n).res = unusedWords :=
  (mmSample_mons hn).res.trans (monSampled_unused h)

/-- A monitor in use has the sample of its unit. -/
theorem mmSample_used (hn : n < 16) (h : (vget s.mm.mons n).used = true)
    (hs : (unitSample l (atSample s) n (sampleTick s) (vget s.mm.mons n)).1 = sampleMon (atSample s) n (sampleTick s) bad (vget s.mm.mons n)) :
    SameSample (sampleMon (atSample s) n (sampleTick s) bad (vget s.mm.mons n)) (vget (mmSample l s).mm.mons n) := by
  rw [← hs, ← monSampled_used h]
  exact mmSample_mons hn

theorem mmSample_used_spec (hn : n < 16) (h : (vget s.mm.mons n).used = true) :
    (vget (mmSample l s).mm.mons n).res.length = 25 ∧ (vget (mmSample l s).mm.mons n).unit = (vget s.mm.mons n).unit ∧
    (vget (mmSample l s).mm.mons n).used = true ∧ (l = [] → (vget (mmSample l s).mm.mons n).handReq = false) := by
  obtain ⟨bad, hb⟩ := unitSample_cases (l := l) (n := n) (ts := sampleTick s) (m := vget s.mm.mons n) (s := atSample s)
  have hs := mmSample_used hn h hb
  refine ⟨?_, hs.unit.trans sampleMon_unit, (hs.used.trans sampleMon_used).trans h, ?_⟩
  · rw [hs.res, sampleMon_res_length]
  · rintro rfl
    exact (mmSample_used hn h (congrArg Prod.fst unitSample_nil)).handReq.trans sampleMon_handReq

/-- A mismatch in a unit is told, and asks for the hand-over when the repeat shows it too. -/
theorem mmSample_of_fault (hn : n < 16) (h : (vget s.mm.mons n).used = true) (hu : (vget s.mm.mons n).unit = some f.unit.val)
    (hw : f.word < 25) (hf : f.first ≠ 0) :
    (mmSample [f] s).mm.evt.getLsbD 2 = true ∧ (vget (mmSample [f] s).mm.mons n).handReq = (f.again != 0) ∧
    (f.again ≠ 0 → 2 ≤ (vget (mmSample [f] s).mm.mons n).cause ∧ (vget (mmSample [f] s).mm.mons n).cause ≤ 11) := by
  have hfault := unitSample_of_fault (s := atSample s) (n := n) (ts := sampleTick s) hu hw hf
  have hs := mmSample_used hn h (congrArg Prod.fst hfault)
  have hmis : sampleMismatch [f] s = true := by
    refine List.any_eq_true.2 ⟨n, List.mem_range.2 hn, ?_⟩
    rw [atSample_mm, h, hfault]
    rfl
  refine ⟨?_, hs.handReq.trans sampleMon_handReq, fun ha => ?_⟩
  · refine mmSample_tells.getLsbD_evt ?_
    rw [if_pos hmis]
    simp
  · rw [hs.cause, bne_iff_ne.2 ha]
    exact sampleMon_cause_bounds

end

end Sys2Proof.Machine
end

section
/-! PROOFS. The motion units' rotation, tests and retirement (R162, R163, R487), and O37. -/

-- One declaration after the other: side by side, their threads' stacks need more memory than the check allows.
set_option Elab.async false

namespace Sys2Proof.Machine

/-! ### The rotation (R162) -/

section
variable {u v n : Nat} {s : State}

theorem startShadow_of_not_due (h : s.mm.due = false) : startShadow s = s := by simp [startShadow, h]

/-- A due rotation, with no shadow yet, starts one on the spare unit for the monitor of the unit tested longest ago. -/
theorem startShadow_of_due (hd : s.mm.due = true) (hs : ∀ i < 16, (vget s.mm.mons i).shadow = none) (hv : spareUnit s = some v)
    (hu : nextUnit s = some u) (hn : (vget s.mm.units u).hosts = some n) :
    startShadow s = { s with mm := { s.mm with
      mons := vmod s.mm.mons n fun m => { m with shadow := some v, shadowEq := 0, shadowN := 0 }
      units := vmod s.mm.units v fun x => { x with role := .shadow, hosts := some n }
      shadowMon := some (n, (vget s.mm.mons n).emptied) } } := by
  have ha : vany s.mm.mons (fun m => m.shadow.isSome) = false := vany_eq_false_iff.2 fun i hi => by rw [hs i hi]; rfl
  simp [startShadow, hd, ha, hu, hv, hn, modMon, modUnit]

/-- The rotation period has elapsed. -/
def rotationDue (s : State) : State :=
  let s0 := advanceTo (s.mm.rotSince + hourTicks s.mm.periodH.toNat) s
  { s0 with mm := { s0.mm with due := true, rotSince := now s0 } }

theorem rotationDue_mm : ∃ t, (rotationDue s).mm = { s.mm with due := true, rotSince := t } := by
  have h : (advanceTo (s.mm.rotSince + hourTicks s.mm.periodH.toNat) s).mm = s.mm := advanceTo_frame .mm (by decide)
  exact ⟨_, by rw [rotationDue, h]⟩

theorem rotationDue_frame : onlyChanges [.mm, .time, .tmr] s (rotationDue s) := by
  refine (advanceTo_frame (t := s.mm.rotSince + hourTicks s.mm.periodH.toNat)).wider.trans (onlyChanges.of fun b => ?_)
  cases b <;> simp [Blk.same, rotationDue]

theorem execMmRotationDue_eq (h : s.mm.periodH ≠ 0) : execMmRotationDue s = .next (startShadow (rotationDue s)) := by
  simp only [execMmRotationDue, if_neg h]
  rfl

theorem execMmRotationDue_spec (hp : s.mm.periodH ≠ 0) (hs : ∀ i < 16, (vget s.mm.mons i).shadow = none) (hv : spareUnit s = some v)
    (hu : nextUnit s = some u) (hn : (vget s.mm.units u).hosts = some n) (hv18 : v < 18) (hn16 : n < 16) :
    ∃ t, execMmRotationDue s = .next t ∧ t.mm.due = true ∧ (vget t.mm.mons n).shadow = some v ∧ (vget t.mm.units v).role = .shadow ∧
      (vget t.mm.units v).hosts = some n ∧ t.mm.shadowMon = some (n, (vget s.mm.mons n).emptied) ∧ onlyChanges [.mm, .time, .tmr] s t := by
  obtain ⟨d, hd⟩ := rotationDue_mm (s := s)
  have hmons : (rotationDue s).mm.mons = s.mm.mons := by rw [hd]
  have hunits : (rotationDue s).mm.units = s.mm.units := by rw [hd]
  have hdue : (rotationDue s).mm.due = true := by rw [hd]
  have hspare : spareUnit (rotationDue s) = some v := by rw [← hv, spareUnit, spareUnit, hunits]
  have hnext : nextUnit (rotationDue s) = some u := by rw [← hu, nextUnit, nextUnit, hunits]
  refine ⟨_, execMmRotationDue_eq hp, ?_⟩
  rw [startShadow_of_due hdue (hmons ▸ hs) hspare hnext (hunits ▸ hn)]
  refine ⟨hdue, ?_, ?_, ?_, ?_, rotationDue_frame.trans (onlyChanges.of fun b => by cases b <;> simp [Blk.same])⟩
  · exact congrArg Mon.shadow (vget_vmod_same hn16)
  · exact congrArg MUnit.role (vget_vmod_same hv18)
  · exact congrArg MUnit.hosts (vget_vmod_same hv18)
  · rw [hmons]

end

/-! ### One unit changes -/

/-- No block outside `T`, no monitor and no unit but unit u changes; a rotation that was due still is. -/
structure ChangesUnit (T : List Blk) (u : Nat) (s t : State) : Prop where
  others : ∀ v < 18, v ≠ u → vget t.mm.units v = vget s.mm.units v
  mons : t.mm.mons = s.mm.mons
  due : t.mm.due = s.mm.due
  frame : onlyChanges T s t

section
variable {T U : List Blk} {i u : Nat} {f : MUnit → MUnit} {s t r : State}

theorem ChangesUnit.next (h1 : ChangesUnit T u s t) (h2 : ChangesUnit U u t r) (hU : U.all (T.contains ·) = true := by decide) : ChangesUnit T u s r :=
  ⟨fun v hv hu => (h2.others v hv hu).trans (h1.others v hv hu), h2.mons.trans h1.mons, h2.due.trans h1.due, h1.frame.next h2.frame hU⟩

theorem ChangesUnit.wider (h : ChangesUnit U u s t) (hU : U.all (T.contains ·) = true := by decide) : ChangesUnit T u s t :=
  ⟨h.others, h.mons, h.due, h.frame.wider hU⟩

theorem modUnit_changes : ChangesUnit [.mm] u s (modUnit u f s) :=
  ⟨fun _ _ => vget_vmod_other, rfl, rfl, onlyChanges.of fun b => by cases b <;> simp [Blk.same]⟩

theorem mmEvt_changes : ChangesUnit [.mm] u s (mmEvt i s) := ⟨fun _ _ _ => rfl, rfl, rfl, mmEvt_frame⟩

theorem changesUnit_of_mm (h : t.mm = s.mm) (hf : onlyChanges T s t) : ChangesUnit T u s t := ⟨fun _ _ _ => by rw [h], by rw [h], by rw [h], hf⟩

end

/-! ### Retirement and the end of a unit's BIST (R163, R487) -/

/-- Retirement is kept and told, with `k` fault-driven reliefs. -/
def tellRetired (u k : Nat) (s : State) : State :=
  postEv 0x0506 u (leBytes 1 k) (mmEvt 6 { s with keep := { s.keep with retUnits := vset s.keep.retUnits u true } })

section
variable {k u : Nat} {pass : Bool} {s : State}

theorem tellRetired_units : (tellRetired u k s).mm.units = s.mm.units := by simp [tellRetired, mmEvt_mm]

theorem tellRetired_retUnits (hu : u < 18) : vget (tellRetired u k s).keep.retUnits u = true := by
  unfold tellRetired
  rw [postEv_keepsKeep (p := KeepBlk.retUnits) fun _ _ _ _ => rfl]
  exact vget_vset_same hu

theorem tellRetired_changes : ChangesUnit [.mm, .evr, .hp, .keep, .mem] u s (tellRetired u k s) := by
  have h : ChangesUnit [.keep] u s { s with keep := { s.keep with retUnits := vset s.keep.retUnits u true } } :=
    changesUnit_of_mm rfl (onlyChanges.of fun b => by cases b <;> simp [Blk.same])
  exact (h.wider.next mmEvt_changes).next (changesUnit_of_mm (postEv_mm _ _ _ _) (postEv_frame _ _ _ _))

/-- A flag raised before is as one raised after. -/
theorem tellRetired_mmEvt {i : Nat} : tellRetired u k (mmEvt i s) =
    postEv 0x0506 u (leBytes 1 k) (mmEvt i (mmEvt 6 { s with keep := { s.keep with retUnits := vset s.keep.retUnits u true } })) := by
  simp only [tellRetired, mmEvt, BitVec.or_assoc, BitVec.or_comm (BitVec.twoPow 32 6)]

/-- The result of unit u, told when it is a failure. -/
def markUnitTested (u : Nat) (pass : Bool) (f : MUnit → MUnit) (s : State) : State :=
  let s1 := modUnit u f s
  if pass then s1 else mmEvt 5 s1

theorem markUnitTested_unit {f : MUnit → MUnit} (hu : u < 18) : vget (markUnitTested u pass f s).mm.units u = f (vget s.mm.units u) := by
  unfold markUnitTested
  dsimp only
  split
  · exact vget_vmod_same hu
  · exact vget_vmod_same hu

theorem markUnitTested_changes {f : MUnit → MUnit} : ChangesUnit [.mm] u s (markUnitTested u pass f s) := by
  unfold markUnitTested
  dsimp only
  split
  · exact modUnit_changes
  · exact modUnit_changes.next mmEvt_changes

/-- A unit that passes with fewer than two faults is `SPARE`, and nothing else of the state changes. -/
theorem unitBistDone_few (hr : (vget s.mm.units u).role = .bist) (hd : s.mm.due = false) (h : unitFaults s u < 2) :
    unitBistDone u true s = { s with mm := { s.mm with units := vmod s.mm.units u fun x =>
      { x with role := .spare, bistRes := 1, lastBist := some (now s) } } } := by
  have h2 : ¬ 2 ≤ unitFaults s u := by omega
  simp only [unitBistDone, hr, h2, decide_false, Bool.not_true, Bool.or_false, bne_self_eq_false, if_true, Bool.false_eq_true, if_false]
  exact startShadow_of_not_due hd

/-- Unit u goes out of duty with its result. -/
def unitOut (pass : Bool) (s : State) (x : MUnit) : MUnit :=
  { x with role := .retired, bistRes := if pass then 1 else 2, lastBist := if pass then some (now s) else x.lastBist }

/-- A unit that fails, or passes with its second fault, is `RETIRED`. -/
theorem unitBistDone_out (hr : (vget s.mm.units u).role = .bist) (hd : s.mm.due = false) (h : pass = false ∨ 2 ≤ unitFaults s u) :
    unitBistDone u pass s = tellRetired u (unitFaults s u) (markUnitTested u pass (unitOut pass s) s) := by
  have ho : (!pass || decide (2 ≤ unitFaults s u)) = true := by simpa using h
  have hdue : (tellRetired u (unitFaults s u) (markUnitTested u pass (unitOut pass s) s)).mm.due = false :=
    (tellRetired_changes.due.trans markUnitTested_changes.due).trans hd
  rw [← startShadow_of_not_due hdue]
  simp only [unitBistDone, hr, ho, bne_self_eq_false, if_true, Bool.false_eq_true, if_false]
  rfl

theorem unitBistDone_out_spec (hu : u < 18) (hr : (vget s.mm.units u).role = .bist) (hd : s.mm.due = false) (h : pass = false ∨ 2 ≤ unitFaults s u) :
    vget (unitBistDone u pass s).mm.units u = unitOut pass s (vget s.mm.units u) ∧ vget (unitBistDone u pass s).keep.retUnits u = true ∧
    ChangesUnit [.mm, .evr, .hp, .keep, .mem] u s (unitBistDone u pass s) := by
  rw [unitBistDone_out hr hd h]
  refine ⟨?_, tellRetired_retUnits hu, markUnitTested_changes.wider.next tellRetired_changes⟩
  rw [tellRetired_units, markUnitTested_unit hu]

/-- Unit u with the result of its test at shut-down. -/
def unitShutOut (pass : Bool) (x : MUnit) : MUnit :=
  { x with bistRes := if pass then 1 else 2, role := if pass then x.role else .retired }

/-- The result of unit u at shut-down, with its record (R487). -/
def markUnitShutTest (u : Nat) (pass : Bool) (s : State) : State :=
  markUnitTested u pass (unitShutOut pass) { s with md := { s.md with shutUnits := vset s.md.shutUnits u (if pass then .pass else .fail) } }

theorem unitShutTested_eq (h1 : s.md.shutBist = true) (h2 : (vget s.mm.units u).role ≠ .retired) : unitShutTested u pass s =
    if pass then markUnitShutTest u pass s else tellRetired u (unitFaults (markUnitShutTest u pass s) u) (markUnitShutTest u pass s) := by
  unfold unitShutTested
  rw [if_neg (by simp [h1, h2])]
  cases pass with
  | true => rfl
  | false => exact tellRetired_mmEvt.symm

theorem unitShutTested_spec (hu : u < 18) (h1 : s.md.shutBist = true) (h2 : (vget s.mm.units u).role ≠ .retired) :
    vget (unitShutTested u pass s).md.shutUnits u = (if pass then .pass else .fail) ∧
    vget (unitShutTested u pass s).mm.units u = unitShutOut pass (vget s.mm.units u) ∧
    (pass = false → vget (unitShutTested u pass s).keep.retUnits u = true) ∧
    onlyChanges [.md, .mm, .evr, .hp, .keep, .mem] s (unitShutTested u pass s) := by
  have hmd : vget (markUnitShutTest u pass s).md.shutUnits u = if pass then .pass else .fail := by
    have h : (markUnitShutTest u pass s).md = { s.md with shutUnits := vset s.md.shutUnits u (if pass then .pass else .fail) } :=
      markUnitTested_changes.frame .md (by decide)
    rw [h]
    exact vget_vset_same hu
  have hunit : vget (markUnitShutTest u pass s).mm.units u = unitShutOut pass (vget s.mm.units u) := markUnitTested_unit hu
  have hf : onlyChanges [.md, .mm] s (markUnitShutTest u pass s) := by
    refine onlyChanges.next ?_ markUnitTested_changes.frame
    exact onlyChanges.of fun b => by cases b <;> simp [Blk.same]
  rw [unitShutTested_eq h1 h2]
  cases pass with
  | true => exact ⟨hmd, hunit, nofun, hf.wider⟩
  | false =>
    have hr := tellRetired_changes (u := u) (k := unitFaults (markUnitShutTest u false s) u) (s := markUnitShutTest u false s)
    refine ⟨?_, ?_, fun _ => tellRetired_retUnits hu, hf.wider.next hr.frame⟩
    · exact (congrArg (fun m : ModBlk => vget m.shutUnits u) (hr.frame .md (by decide))).trans hmd
    · exact (congrArg (vget · u) tellRetired_units).trans hunit

end

/-! ### The statement -/

section
variable {l : List UnitFault} {u : Fin 18} {pass : Bool} {s : State}

theorem exec_mmSample : exec (.mmSample l) s = .next (mmSample l s) := rfl

theorem exec_mmUnitBistDone (h : s.md.mstate ≠ .shuttingDown) : exec (.mmUnitBistDone u pass) s = .next (unitBistDone u.val pass s) := by
  simp [exec, execMmUnitBistDone, h]

theorem exec_mmUnitBistDone_shuttingDown (h : s.md.mstate = .shuttingDown) :
    exec (.mmUnitBistDone u pass) s = .next (unitShutTested u.val pass s) := by
  simp [exec, execMmUnitBistDone, h]

end

/-- Settles O37: a sample gives each monitor what its unit computes and tells the rest (`mmSample_mons`, `mmSample_of_fault`), a due rotation starts its
shadow, and each end of a unit's BIST changes that unit alone. -/
theorem monitorSamplesAndUnits : Obligations.MonitorSamplesAndUnits := by
  intro u n l f s
  have hu := u.isLt
  have hn := n.isLt
  refine ⟨⟨_, exec_mmSample, mmSample_free, mmSample_units, mmSample_unused hn, mmSample_used_spec hn, mmSample_frame⟩,
    fun h hm hw hf => ⟨_, exec_mmSample, mmSample_of_fault hn h hm hw hf⟩,
    fun hp hs hv hnext hh => execMmRotationDue_spec hp hs hv hnext hh hu hn,
    fun hr hst hd => ⟨fun h => ?_, fun p h => ?_⟩, fun hst hb hr p => ?_⟩
  · rw [exec_mmUnitBistDone hst, unitBistDone_few hr hd h]
  · obtain ⟨hunit, hret, hc⟩ := unitBistDone_out_spec hu hr hd h
    exact ⟨_, exec_mmUnitBistDone hst, congrArg MUnit.role hunit, congrArg MUnit.bistRes hunit, hret, hc.others, hc.mons, hc.frame⟩
  · obtain ⟨hshut, hunit, hret, hf⟩ := unitShutTested_spec (pass := p) hu hb hr
    refine ⟨_, exec_mmUnitBistDone_shuttingDown hst, hshut, congrArg MUnit.bistRes hunit, fun hp => ⟨?_, hret hp⟩, hf⟩
    rw [hunit, hp]
    rfl

end Sys2Proof.Machine
end

section
/-! PROOFS. Masters outside `RUN` and `QUIET` (R195, R197, R480), and O58. -/

-- One declaration after the other: side by side, their threads' stacks need more memory than the check allows.
set_option Elab.async false

namespace Sys2Proof.Machine

/-- A module in step 11 of the start, both groups in band 0b00 and neither tested yet, at a test window. -/
def startTestDue : State := { State.reset with md := { startStep := 11 }, pending := [.outputTestWindow {}] }

/-- `startTestDue` after its window: the start test of the first group closes its master (R480). -/
def startTestRuns : State := withOutEvents (testWindow {}) { startTestDue with pending := [] }

theorem startTestRuns_closed : mastersOpen startTestRuns = false := by decide +kernel

theorem startTestRuns_mstate : startTestRuns.md.mstate = .starting := by decide +kernel

/-- Refutes O58: the start test of a group closes its master for 300 µs in `STARTING` (R480, the only closing there); `startTestDue` has both masters
open and its next step, the test window, leaves the first one closed. -/
theorem not_mastersCloseOnlyInRunAndQuiet : ¬ Obligations.MastersCloseOnlyInRunAndQuiet := by
  intro h
  have hopen : mastersOpen startTestDue = true := by decide +kernel
  rcases h startTestDue startTestRuns (.inr (.inr hopen)) rfl with hrun | hquiet | hm
  · exact absurd (startTestRuns_mstate.symm.trans hrun) (by decide)
  · exact absurd (startTestRuns_mstate.symm.trans hquiet) (by decide)
  · exact absurd (startTestRuns_closed.symm.trans hm) (by decide)

end Sys2Proof.Machine
end

section
/-! PROOFS. The end of a master test (R204), and O42. -/

-- One declaration after the other: side by side, their threads' stacks need more memory than the check allows.
set_option Elab.async false

namespace Sys2Proof.Machine

/-- A master test whose pulse has ended, while TCLK is stopped. -/
def endedMasterTest : TestRun := { sel := .master 0 }

/-- TCLK stopped a whole SCLK period (32 ticks) after the last SCLK edge that was counted, with an ended master test. -/
def edgeNotCounted : State := { State.reset with
  time := { phase := 32 }
  out := { State.reset.out with test := some endedMasterTest } }

/-- Judging the test counts the SCLK edge that is due (R297). -/
theorem settleTest_edgeNotCounted : (settleTest edgeNotCounted).time.sclk = 1 := by decide +kernel

/-- Refutes O42: its last clause says that judging a master test leaves the time alone. Judging first advances to the end of the pulse, and an advance by no
tick still counts an SCLK edge that is due: in `edgeNotCounted` TCLK is stopped and the phase is a whole SCLK period. The model's operations take the
phase modulo 32, so it stands for no run of the machine; but the clause, unlike O2's, does not ask for a phase below 32. -/
theorem not_windowsBrakesAndBands : ¬ Obligations.WindowsBrakesAndBands := by
  intro h
  obtain ⟨-, -, -, -, -, -, -, -, -, -, -, -, -, hjudged⟩ := h 0 0 0 0 0 {} endedMasterTest edgeNotCounted
  obtain ⟨-, -, -, -, hframe⟩ := hjudged rfl rfl (by decide +kernel)
  have htime : (settleTest edgeNotCounted).time.sclk = 0 := congrArg TimeBlk.sclk (hframe .time (by decide))
  exact absurd (settleTest_edgeNotCounted.symm.trans htime) (by decide)

end Sys2Proof.Machine
end

section
/-! PROOFS. Latches of the outputs and their groups (R197, R206, R207, R216). -/

-- One declaration after the other: side by side, their threads' stacks need more memory than the check allows.
set_option Elab.async false

namespace Sys2Proof.Machine

/-! ### Events of the outputs -/

section
variable {f : State → State} {s : State} {T : List Blk}

/-- Where no code changes there is no event. -/
theorem outEvents_self : outEvents s s = s := by
  have hnew (l : List Nat) : (l.filter fun c => !(c ∈ l)) = [] := List.filter_eq_nil_iff.2 fun c hc => by simp [hc]
  have hgone (l : List Nat) : (l.any fun c => !(c ∈ l)) = false := List.any_eq_false.2 fun c hc => by simp [hc]
  refine foldl_keeps id (fun u n => ?_) (List.range 20) s
  simp only [hnew, hgone, List.filter_nil, List.foldl_nil, List.any_nil, Bool.or_self, Bool.false_eq_true, if_false]

theorem withOutEvents_of_self (h : f s = s) : withOutEvents f s = s := (congrArg (outEvents s) h).trans outEvents_self

/-- A change of the outputs with its events: the outputs as the change made them, and its frame. -/
theorem withOutEvents_next (hf : onlyChanges T s (f s)) (hT : [Blk.evr, .keep, .mem, .hp].all (T.contains ·) = true := by decide) :
    ∃ t, Host.Outcome.next (φ := Fault) (ρ := Refusal) (withOutEvents f s) = .next t ∧ t.out = (f s).out ∧ onlyChanges T s t :=
  ⟨_, rfl, outEvents_frame .out (by decide), hf.next outEvents_frame hT⟩

end

/-! ### An output latches off -/

/-- An output latched off with a code, another output named as the source (R206, R207, R210). -/
def Out.latchedOff (code src : Nat) (o : Out) : Out :=
  { o with latched := o.latched ++ [code], ch := false, ecoAct := false, duty := (1, 1), srcOut := src }

section
variable {n j code src t : Nat} {s : State}

theorem advanceTo_out : (advanceTo t s).out = s.out := advanceTo_frame .out (by decide)

theorem latchOut_of_mem (h : code ∈ (vget s.out.outs n).latched) : latchOut n code src s = s := if_pos h

theorem latchOut_of_not_mem (h : code ∉ (vget s.out.outs n).latched) :
    latchOut n code src s = outEvt (outFlag code) (modOut n (Out.latchedOff code src) s) := if_neg h

/-- A latch of an output leaves what the block holds beside the outputs and its flags. -/
theorem latchOut_keepsOut {β : Type} {p : OutBlk → β} (hp : ∀ b e l, p { b with evt := e, outs := l } = p b) :
    p (latchOut n code src s).out = p s.out := by
  by_cases h : code ∈ (vget s.out.outs n).latched
  · rw [latchOut_of_mem h]
  · rw [latchOut_of_not_mem h]
    exact hp s.out _ _

theorem latchOut_grps : (latchOut n code src s).out.grps = s.out.grps := latchOut_keepsOut fun _ _ _ => rfl

theorem latchOut_ident : (latchOut n code src s).out.ident = s.out.ident := latchOut_keepsOut fun _ _ _ => rfl

theorem latchOut_test : (latchOut n code src s).out.test = s.out.test := latchOut_keepsOut fun _ _ _ => rfl

theorem vget_latchOut_other (h : j ≠ n) : vget (latchOut n code src s).out.outs j = vget s.out.outs j := by
  by_cases hm : code ∈ (vget s.out.outs n).latched
  · rw [latchOut_of_mem hm]
  · rw [latchOut_of_not_mem hm]
    exact vget_vmod_other h

theorem vget_latchOut_same (hn : n < 20) (h : code ∉ (vget s.out.outs n).latched) :
    vget (latchOut n code src s).out.outs n = (vget s.out.outs n).latchedOff code src := by
  rw [latchOut_of_not_mem h]
  exact vget_vmod_same hn

theorem latchOut_classified (hn : n < 20) : (vget (latchOut n code src s).out.outs n).classified = (vget s.out.outs n).classified := by
  by_cases h : code ∈ (vget s.out.outs n).latched
  · rw [latchOut_of_mem h]
  · rw [vget_latchOut_same hn h]
    rfl

end

/-! ### A group opens -/

section
variable {g j n cause code : Nat} {s : State}

theorem grpOut_lt (hn : n < 20) : grpOut n < 2 := by
  unfold grpOut
  split <;> omega

/-- Of two outputs in different groups, one's group is the other one of the other's. -/
theorem grpOut_of_ne (hj : j < 20) (hn : n < 20) (h : grpOut j ≠ grpOut n) : grpOut j = 1 - grpOut n := by
  have := grpOut_lt hj
  have := grpOut_lt hn
  omega

/-- An opened master leaves what the block holds beside the groups. -/
theorem openMaster_keepsOut {β : Type} {p : OutBlk → β} (hp : ∀ b v, p { b with grps := v } = p b) : p (openMaster g cause code s).out = p s.out := by
  unfold openMaster
  dsimp only
  split
  · exact hp s.out _
  · rw [postEv_out]
    exact hp s.out _

theorem openMaster_outs : (openMaster g cause code s).out.outs = s.out.outs := openMaster_keepsOut fun _ _ => rfl

theorem openMaster_ident : (openMaster g cause code s).out.ident = s.out.ident := openMaster_keepsOut fun _ _ => rfl

theorem openMaster_test : (openMaster g cause code s).out.test = s.out.test := openMaster_keepsOut fun _ _ => rfl

theorem vget_openMaster_other (h : j ≠ g) : vget (openMaster g cause code s).out.grps j = vget s.out.grps j := by
  obtain ⟨x, -, e⟩ := openMaster_grps (g := g) (cause := cause) (code := code) (s := s)
  rw [e, vget_vset_other h]

/-- A group opened for one of the causes 1 to 5 is latched with it; its codes stand (R197). -/
theorem vget_openMaster_same (hg : g < 2) (hc : cause ≠ 6) :
    (vget (openMaster g cause code s).out.grps g).master = false ∧ cause ∈ (vget (openMaster g cause code s).out.grps g).latches ∧
    (vget (openMaster g cause code s).out.grps g).codes = (vget s.out.grps g).codes := by
  unfold openMaster
  dsimp only
  split
  case isTrue h =>
    rw [vget_vset_same hg]
    exact ⟨rfl, h.resolve_left fun h6 => hc h6.1, rfl⟩
  case isFalse h =>
    rw [postEv_out, vget_vset_same hg]
    exact ⟨rfl, by simp, rfl⟩

end

end Sys2Proof.Machine
end

section
/-! PROOFS. Protection of the outputs (R206, R207, R210 to R212, R275), and O41. -/

-- One declaration after the other: side by side, their threads' stacks need more memory than the check allows.
set_option Elab.async false

namespace Sys2Proof.Machine

/-! ### Open load and group overcurrent (R211, R212) -/

/-- What a group overcurrent does before its events (R212). -/
def overcurrent (g : Nat) (s : State) : State :=
  openMaster g 5 8 (outEvt 8 (modGrp g (fun x => { x with codes := if 8 ∈ x.codes then x.codes else x.codes ++ [8] }) s))

section
variable {n g j ua : Nat} {s : State}

theorem openLoad_of_not_energised (h : energised s n = false) : openLoad n ua s = s := by simp [openLoad, h]

/-- The judgement of open load: the current measured, and whether it is too low. -/
theorem openLoad_of_energised (h : energised s n = true) : ∃ e m, (openLoad n ua s).out = { s.out with
      evt := e
      outs := vmod s.out.outs n fun o => { o with openLoad := decide (ua < if n < 16 then 2000 else 20000), iMeas := m } } := by
  unfold openLoad
  generalize (if n < 16 then 2000 else 20000) = least
  simp only [h, Bool.not_true, Bool.false_eq_true, if_false]
  split
  · exact ⟨_, _, rfl⟩
  · exact ⟨_, _, rfl⟩

theorem openLoad_frame : onlyChanges [.out] s (openLoad n ua s) := by
  unfold openLoad
  generalize (if n < 16 then 2000 else 20000) = least
  dsimp only
  split
  · exact .refl _ s
  · split
    · exact modOut_frame.trans (outEvt_frame _ _)
    · exact modOut_frame

theorem overcurrent_outs : (overcurrent g s).out.outs = s.out.outs := openMaster_outs

theorem vget_overcurrent_other (h : j ≠ g) : vget (overcurrent g s).out.grps j = vget s.out.grps j :=
  (vget_openMaster_other h).trans (vget_vmod_other h)

theorem vget_overcurrent_same (hg : g < 2) : (vget (overcurrent g s).out.grps g).master = false ∧ 5 ∈ (vget (overcurrent g s).out.grps g).latches ∧
    8 ∈ (vget (overcurrent g s).out.grps g).codes := by
  obtain ⟨hm, hl, hc⟩ := vget_openMaster_same (s := outEvt 8 (modGrp g (fun x => { x with codes := if 8 ∈ x.codes then x.codes else x.codes ++ [8] }) s))
    (cause := 5) (code := 8) hg (by decide)
  refine ⟨hm, hl, hc ▸ ?_⟩
  show 8 ∈ (vget (vmod s.out.grps g _) g).codes
  rw [vget_vmod_same hg]
  by_cases h : 8 ∈ (vget s.out.grps g).codes <;> simp [h]

theorem overcurrent_frame : onlyChanges [.out, .evr, .hp, .keep, .mem] s (overcurrent g s) :=
  (modGrp_frame.wider.next (outEvt_frame _ _)).next openMaster_frame

end

/-! ### Readback faults (R206) -/

section
variable {n j coil : Nat} {s : State}

/-- The outputs of n's group that are committed 1 beside it (R207). -/
def othersOn (n : Nat) (s : State) : List Nat := (members (grpOut n)).filter fun i => i != n && (vget s.out.outs i).cmd

/-- A first short: the master is open and latched, and the output waits for its identification (R207). -/
theorem shortCondition_spec (hn : n < 20) (hid : s.out.ident = []) (hcl : (vget s.out.outs n).classified = false) :
    (vget (shortCondition n s).out.grps (grpOut n)).master = false ∧ 3 ∈ (vget (shortCondition n s).out.grps (grpOut n)).latches ∧
    (shortCondition n s).out.ident.map (fun x => (x.out, x.on)) = [(n, othersOn n s)] ∧
    (shortCondition n s).out.outs = vmod s.out.outs n fun o => { o with lowSince := none } := by
  obtain ⟨hm, hl, -⟩ := vget_openMaster_same (s := s) (cause := 3) (code := 4) (grpOut_lt hn) (by decide)
  unfold shortCondition
  simp only [hid, hcl, List.any_nil, Bool.or_self, Bool.false_eq_true, if_false, openMaster_ident, openMaster_outs, vget_vmod_same (grpOut_lt hn)]
  exact ⟨hm, hl, rfl, trivial⟩

/-- A readback fault is judged after its blanking time (R206). -/
theorem readbackFault_judged (h1 : (vget s.out.outs n).cmd = false) (h2 : bandOf s (grpOut n) ≤ 1) (h3 : pairedOff s n = true) :
    ∃ t, readbackFault n coil s = if n < 16 ∨ 50 ≤ coil then shortCondition n (advanceTo t s) else latchOut n 9 0x1F (advanceTo t s) := by
  have h2' : ¬ 2 ≤ bandOf s (grpOut n) := by omega
  exact ⟨(vget s.out.outs n).offAt + (if n < 16 then msTicks 1 else msTicks 200) + 1600, by simp [readbackFault, h1, h2', h3]⟩

theorem readbackFault_not_judged (h : (vget s.out.outs n).cmd = true ∨ 2 ≤ bandOf s (grpOut n) ∨ pairedOff s n = false) : readbackFault n coil s = s := by
  rcases h with h | h | h <;> simp [readbackFault, h]

/-- With the short condition, what the identification starts from. -/
theorem readbackFault_short (h1 : (vget s.out.outs n).cmd = false) (h2 : bandOf s (grpOut n) ≤ 1) (h3 : pairedOff s n = true)
    (hs : n < 16 ∨ 50 ≤ coil) : ∃ t, readbackFault n coil s = shortCondition n (advanceTo t s) := by
  obtain ⟨t, e⟩ := readbackFault_judged (coil := coil) h1 h2 h3
  exact ⟨t, e.trans (if_pos hs)⟩

/-- A brake output without coil current has lost one switch-off means, and latches off. -/
theorem readbackFault_noCoil (h1 : (vget s.out.outs n).cmd = false) (h2 : bandOf s (grpOut n) ≤ 1) (h3 : pairedOff s n = true)
    (hn : 16 ≤ n) (hc : coil < 50) : ∃ t, readbackFault n coil s = latchOut n 9 0x1F (advanceTo t s) := by
  obtain ⟨t, e⟩ := readbackFault_judged (coil := coil) h1 h2 h3
  exact ⟨t, e.trans (if_neg (by omega))⟩

end

/-! ### The end of an identification (R207) -/

section
variable {n j code src : Nat} {s : State}

theorem endIdent_ident : (endIdent n code src s).out.ident = s.out.ident.filter fun x => x.out != n := latchOut_ident

theorem endIdent_test : (endIdent n code src s).out.test = s.out.test := latchOut_test

theorem endIdent_grps : (endIdent n code src s).out.grps = vmod s.out.grps (grpOut n) fun x => { x with codes := x.codes.erase 4, srcOut := src } :=
  latchOut_grps

theorem vget_endIdent_other (h : j ≠ n) : vget (endIdent n code src s).out.outs j = vget s.out.outs j :=
  (vget_latchOut_other h).trans (vget_vmod_other h)

theorem endIdent_classified (hn : n < 20) : (vget (endIdent n code src s).out.outs n).classified = true :=
  (latchOut_classified hn).trans (congrArg Out.classified (vget_vmod_same hn))

/-- The output whose short has been classified latches off with its code, the source named. -/
theorem vget_endIdent_same (hn : n < 20) (h : code ∉ (vget s.out.outs n).latched) :
    vget (endIdent n code src s).out.outs n = ({ vget s.out.outs n with classified := true } : Out).latchedOff code src := by
  have e : vget (vmod s.out.outs n fun o => { o with classified := true }) n = { vget s.out.outs n with classified := true } := vget_vmod_same hn
  refine (vget_latchOut_same hn ?_).trans (congrArg (Out.latchedOff code src) e)
  show code ∉ (vget (vmod s.out.outs n fun o => { o with classified := true }) n).latched
  rwa [e]

theorem endIdent_frame : onlyChanges [.out] s (endIdent n code src s) := by
  refine onlyChanges.trans (onlyChanges.of fun b => ?_) (modOut_frame.trans latchOut_frame)
  cases b <;> simp [Blk.same]

end

/-! ### Short identification (R207, R275) -/

/-- The one output that was on beside a shorted one, or none (R207). -/
def ShortId.source (x : ShortId) : Nat := match x.on with | [j] => j | _ => 0x1F

/-- The code of a short whose source lies behind the master of its group (R207). -/
def ShortId.behindCode (x : ShortId) : Nat := if x.on.isEmpty then 9 else 3

section
variable {x : ShortId} {j : Nat}

theorem ShortId.behindCode_nil (h : x.on = []) : x.behindCode = 9 := by simp [ShortId.behindCode, h]

theorem ShortId.behindCode_of_ne_nil (h : x.on ≠ []) : x.behindCode = 3 := by simp [ShortId.behindCode, h]

theorem ShortId.source_of_one (h : x.on = [j]) : x.source = j := by simp [ShortId.source, h]

end

/-- A short whose source the partner's kill has removed: its group's latch goes with it (R275). -/
def withdrawShort (n : Nat) (s : State) : State :=
  { s with out := { s.out with
      ident := s.out.ident.filter fun y => y.out != n
      grps := vmod s.out.grps (grpOut n) fun y =>
        { y with codes := y.codes.erase 4, latches := y.latches.erase 3, first := ((y.latches.erase 3).head?).getD 0 } } }

section
variable {n j t : Nat} {x : ShortId} {r : TestRun} {s : State}

theorem find_ident (h : s.out.ident = [x]) (hx : x.out = n) : s.out.ident.find? (·.out == n) = some x := by simp [h, hx]

theorem filter_ident (h : s.out.ident = [x]) (hx : x.out = n) : (s.out.ident.filter fun y => y.out != n) = [] := by simp [h, hx]

/-- The terminal reads LOW with the master open: the source lies behind it. -/
theorem shortIdentify_behind (h : s.out.ident = [x]) (hx : x.out = n) (ht : s.out.test = none) (hk : x.killed = false) :
    shortIdentify n true s = endIdent n x.behindCode x.source (advanceTo x.due s) := by
  unfold shortIdentify
  simp only [find_ident h hx, ht, hk, Bool.and_false, Bool.false_eq_true, if_false, if_true]
  rfl

/-- The terminal reads LOW under the partner's kill: the partner was the source. -/
theorem shortIdentify_killed (h : s.out.ident = [x]) (hx : x.out = n) (ht : s.out.test = none) (hk : x.killed = true) :
    shortIdentify n true s = withdrawShort n (advanceTo x.due s) := by
  unfold shortIdentify
  simp only [find_ident h hx, ht, hk, Bool.and_true, if_true]
  rfl

theorem pairedNow_advanceTo {o : Out} : pairedNow (advanceTo t s) o = pairedNow s o := by
  have hx : (advanceTo t s).xl = s.xl := advanceTo_frame .xl (by decide)
  have hf : (advanceTo t s).fuse = s.fuse := advanceTo_frame .fuse (by decide)
  have hu : pairUid (advanceTo t s) = pairUid s := congrArg (fun f => pairUid { s with fuse := f }) hf
  rw [pairedNow, pairedNow, pairMode, pairMode, hx, hu]

/-- Without an output of the other group to pulse, the source lies outside the module. -/
theorem identNext_of_off (h : ∀ i ∈ members (1 - grpOut n), (vget s.out.outs i).cmd = false) : identNext n x s = endIdent n 4 0x1F s := by
  have e : (members (1 - grpOut n)).find? (fun j => (vget s.out.outs j).cmd && !pairedNow s (vget s.out.outs j) && !(j ∈ x.pulsed)) = none :=
    List.find?_eq_none.2 fun i hi => by simp [h i hi]
  unfold identNext
  rw [e]

/-- The terminal does not read LOW, no kill is left to try, and nothing of the other group is on. -/
theorem shortIdentify_outside (h : s.out.ident = [x]) (hx : x.out = n) (ht : s.out.test = none)
    (hp : pairedNow s (vget s.out.outs n) = false ∨ x.killed = true) (hoff : ∀ i ∈ members (1 - grpOut n), (vget s.out.outs i).cmd = false) :
    shortIdentify n false s = endIdent n 4 0x1F (advanceTo x.due s) := by
  have ho : (advanceTo x.due s).out = s.out := advanceTo_out
  have hp' : (pairedNow (advanceTo x.due s) (vget (advanceTo x.due s).out.outs n) && !x.killed) = false := by
    rw [ho, pairedNow_advanceTo]
    rcases hp with hp | hp <;> simp [hp]
  unfold shortIdentify
  simp only [find_ident h hx, ht, hp', Bool.false_and, Bool.false_eq_true, if_false]
  exact identNext_of_off (ho ▸ hoff)

/-- The terminal reads LOW in the identification dark pulse of an output of the other group: both latch off, each naming the other, and that
group's master opens too. -/
theorem shortIdentify_followed (h : s.out.ident = [x]) (hx : x.out = n) (ht : s.out.test = some r) (hr : r.sel = .ident n j) :
    shortIdentify n true s = latchOut j 3 n (endIdent n 3 j (openMaster (1 - grpOut n) 3 3 (releaseTest (advanceTo r.until_ s)))) := by
  unfold shortIdentify
  simp [find_ident h hx, ht, hr]

/-- The end of a test leaves every latch. -/
theorem vget_releaseTest_latched (hn : n < 20) : (vget (releaseTest s).out.outs n).latched = (vget s.out.outs n).latched := by
  unfold releaseTest
  rw [vget_vmapi hn]
  split <;> rfl

theorem withdrawShort_frame : onlyChanges [.out] s (withdrawShort n s) := by
  intro b hb
  cases b <;> simp_all [Blk.same, withdrawShort]

theorem latched_afterPulse (hn : n < 20) : (vget (releaseTest (advanceTo t s)).out.outs n).latched = (vget s.out.outs n).latched :=
  (vget_releaseTest_latched hn).trans (by rw [advanceTo_out])

end

/-! ### The rows -/

section
variable {n j : Fin 20} {g : Fin 2} {ua coil : Nat} {x : ShortId} {r : TestRun} {s : State}

/-- `OUTPUT_OVERLOAD` (R210). -/
theorem execOutputOverload_spec (h : 8 ∉ (vget s.out.outs n.val).latched) : ∃ t, execOutputOverload n s = .next t ∧
    vget t.out.outs n.val = (vget s.out.outs n.val).latchedOff 8 0x1F ∧ (∀ i < 20, i ≠ n.val → vget t.out.outs i = vget s.out.outs i) ∧
    t.out.grps = s.out.grps ∧ onlyChanges [.out, .evr, .hp, .keep, .mem] s t := by
  obtain ⟨t, ht, ho, hf⟩ := withOutEvents_next (T := [.out, .evr, .hp, .keep, .mem]) (latchOut_frame (n := n.val) (code := 8) (src := 0x1F) (s := s)).wider
  refine ⟨t, ht, ?_, fun i _ hi => ?_, ?_, hf⟩
  · rw [ho, vget_latchOut_same n.isLt h]
  · rw [ho, vget_latchOut_other hi]
  · rw [ho, latchOut_grps]

/-- `OPEN_LOAD` of an energised output (R211). -/
theorem execOpenLoad_spec (h : energised s n.val = true) : ∃ t, execOpenLoad n ua s = .next t ∧
    (vget t.out.outs n.val).openLoad = decide (ua < if n.val < 16 then 2000 else 20000) ∧ (vget t.out.outs n.val).ch = (vget s.out.outs n.val).ch ∧
    (∀ i < 20, i ≠ n.val → vget t.out.outs i = vget s.out.outs i) ∧ t.out.grps = s.out.grps ∧ onlyChanges [.out, .evr, .hp, .keep, .mem] s t := by
  obtain ⟨t, ht, ho, hf⟩ := withOutEvents_next (T := [.out, .evr, .hp, .keep, .mem]) (openLoad_frame (n := n.val) (ua := ua) (s := s)).wider
  obtain ⟨e, m, he⟩ := openLoad_of_energised (ua := ua) h
  rw [he] at ho
  refine ⟨t, ht, ?_, ?_, fun i _ hi => ?_, by rw [ho], hf⟩
  · rw [ho, vget_vmod_same n.isLt]
  · rw [ho, vget_vmod_same n.isLt]
  · rw [ho, vget_vmod_other hi]

/-- `GROUP_OVERCURRENT` (R212). -/
theorem execGroupOvercurrent_spec : ∃ t, execGroupOvercurrent g s = .next t ∧ (vget t.out.grps g.val).master = false ∧
    5 ∈ (vget t.out.grps g.val).latches ∧ 8 ∈ (vget t.out.grps g.val).codes ∧ vget t.out.grps (1 - g.val) = vget s.out.grps (1 - g.val) ∧
    t.out.outs = s.out.outs ∧ onlyChanges [.out, .evr, .hp, .keep, .mem] s t := by
  obtain ⟨t, ht, ho, hf⟩ := withOutEvents_next (f := overcurrent g.val) (s := s) overcurrent_frame
  obtain ⟨hm, hl, hc⟩ := vget_overcurrent_same (s := s) g.isLt
  rw [← ho] at hm hl hc
  refine ⟨t, ht, hm, hl, hc, ?_, ?_, hf⟩
  · rw [ho, vget_overcurrent_other (by omega)]
  · rw [ho, overcurrent_outs]

/-- `READBACK_FAULT` with the short condition (R206, R207). -/
theorem execReadbackFault_short (h1 : (vget s.out.outs n.val).cmd = false) (h2 : bandOf s (grpOut n.val) ≤ 1) (h3 : pairedOff s n.val = true)
    (hs : n.val < 16 ∨ 50 ≤ coil) (hid : s.out.ident = []) (hcl : (vget s.out.outs n.val).classified = false) :
    ∃ t, execReadbackFault n coil s = .next t ∧ (vget t.out.grps (grpOut n.val)).master = false ∧ 3 ∈ (vget t.out.grps (grpOut n.val)).latches ∧
      t.out.ident.map (fun x => (x.out, x.on)) = [(n.val, othersOn n.val s)] ∧
      vget t.out.outs n.val = { vget s.out.outs n.val with lowSince := none } ∧ (∀ i < 20, i ≠ n.val → vget t.out.outs i = vget s.out.outs i) ∧
      onlyChanges [.out, .evr, .hp, .keep, .mem, .time, .tmr] s t := by
  obtain ⟨u, e⟩ := readbackFault_short h1 h2 h3 hs
  have hu : (advanceTo u s).out = s.out := advanceTo_out
  obtain ⟨hm, hl, hi, hv⟩ := shortCondition_spec (s := advanceTo u s) n.isLt (hu ▸ hid) (hu ▸ hcl)
  obtain ⟨t, ht, ho, hf⟩ := withOutEvents_next (f := readbackFault n.val coil) (T := [.out, .evr, .hp, .keep, .mem, .time, .tmr])
    (e ▸ advanceTo_frame.wider.next shortCondition_frame)
  rw [e] at ho
  rw [← ho] at hm hl hi hv
  rw [hu] at hv
  rw [othersOn, hu] at hi
  refine ⟨t, ht, hm, hl, hi, ?_, fun i _ hi => ?_, hf⟩
  · rw [hv, vget_vmod_same n.isLt]
  · rw [hv, vget_vmod_other hi]

/-- `READBACK_FAULT` of a brake output without coil current: its group's master stays closed (R206). -/
theorem execReadbackFault_noCoil (h1 : (vget s.out.outs n.val).cmd = false) (h2 : bandOf s (grpOut n.val) ≤ 1) (h3 : pairedOff s n.val = true)
    (hn : 16 ≤ n.val) (hc : coil < 50) (h9 : 9 ∉ (vget s.out.outs n.val).latched) :
    ∃ t, execReadbackFault n coil s = .next t ∧ (vget t.out.outs n.val).latched = (vget s.out.outs n.val).latched ++ [9] ∧
      (vget t.out.outs n.val).ch = false ∧ (∀ i < 20, i ≠ n.val → vget t.out.outs i = vget s.out.outs i) ∧ t.out.grps = s.out.grps ∧
      onlyChanges [.out, .evr, .hp, .keep, .mem, .time, .tmr] s t := by
  obtain ⟨u, e⟩ := readbackFault_noCoil h1 h2 h3 hn hc
  have hu : (advanceTo u s).out = s.out := advanceTo_out
  obtain ⟨t, ht, ho, hf⟩ := withOutEvents_next (f := readbackFault n.val coil) (T := [.out, .evr, .hp, .keep, .mem, .time, .tmr])
    (e ▸ advanceTo_frame.wider.next latchOut_frame)
  have hown : vget t.out.outs n.val = (vget s.out.outs n.val).latchedOff 9 0x1F := by rw [ho, e, vget_latchOut_same n.isLt (hu ▸ h9), hu]
  refine ⟨t, ht, congrArg Out.latched hown, congrArg Out.ch hown, fun i _ hi => ?_, ?_, hf⟩
  · rw [ho, e, vget_latchOut_other hi, hu]
  · rw [ho, e, latchOut_grps, hu]

/-- An identification that ends with a code of its own output: nothing of the output waits, and only it changes. -/
theorem execShortIdentify_ended {low : Bool} {code src u : Nat} (hid : s.out.ident = [x]) (hx : x.out = n.val)
    (e : shortIdentify n.val low s = endIdent n.val code src (advanceTo u s)) :
    ∃ t, execShortIdentify n low s = .next t ∧ t.out.ident = [] ∧ (vget t.out.outs n.val).classified = true ∧
      (∀ i < 20, i ≠ n.val → vget t.out.outs i = vget s.out.outs i) ∧ onlyChanges [.out, .evr, .hp, .keep, .mem, .time, .tmr] s t ∧
      (code ∉ (vget s.out.outs n.val).latched →
        vget t.out.outs n.val = ({ vget s.out.outs n.val with classified := true } : Out).latchedOff code src) := by
  have hu : (advanceTo u s).out = s.out := advanceTo_out
  obtain ⟨t, ht, ho, hf⟩ := withOutEvents_next (f := shortIdentify n.val low) (T := [.out, .evr, .hp, .keep, .mem, .time, .tmr])
    (e ▸ advanceTo_frame.wider.next endIdent_frame)
  rw [e] at ho
  refine ⟨t, ht, ?_, ?_, fun i _ hi => ?_, hf, fun hc => ?_⟩
  · rw [ho, endIdent_ident, hu, filter_ident hid hx]
  · rw [ho, endIdent_classified n.isLt]
  · rw [ho, vget_endIdent_other hi, hu]
  · rw [ho, vget_endIdent_same n.isLt (hu ▸ hc), hu]

/-- `SHORT_IDENTIFY` with the source behind the master: code 0x9 where nothing else was on, else 0x3, with the one output that was (R207). -/
theorem execShortIdentify_behind (hid : s.out.ident = [x]) (hx : x.out = n.val) (ht : s.out.test = none) (hk : x.killed = false) :
    ∃ t, execShortIdentify n true s = .next t ∧ t.out.ident = [] ∧ (vget t.out.outs n.val).classified = true ∧
      (∀ i < 20, i ≠ n.val → vget t.out.outs i = vget s.out.outs i) ∧ onlyChanges [.out, .evr, .hp, .keep, .mem, .time, .tmr] s t ∧
      (x.on = [] → 9 ∉ (vget s.out.outs n.val).latched →
        (vget t.out.outs n.val).latched = (vget s.out.outs n.val).latched ++ [9] ∧ (vget t.out.outs n.val).ch = false) ∧
      (x.on ≠ [] → 3 ∉ (vget s.out.outs n.val).latched →
        (vget t.out.outs n.val).latched = (vget s.out.outs n.val).latched ++ [3] ∧ (vget t.out.outs n.val).ch = false) ∧
      (∀ i, x.on = [i] → 3 ∉ (vget s.out.outs n.val).latched → (vget t.out.outs n.val).srcOut = i) := by
  obtain ⟨t, hex, hident, hcl, hoth, hf, hown⟩ := execShortIdentify_ended hid hx (shortIdentify_behind hid hx ht hk)
  refine ⟨t, hex, hident, hcl, hoth, hf, fun hon h9 => ?_, fun hon h3 => ?_, fun i hon h3 => ?_⟩
  · rw [ShortId.behindCode_nil hon] at hown
    exact ⟨congrArg Out.latched (hown h9), congrArg Out.ch (hown h9)⟩
  · rw [ShortId.behindCode_of_ne_nil hon] at hown
    exact ⟨congrArg Out.latched (hown h3), congrArg Out.ch (hown h3)⟩
  · rw [ShortId.behindCode_of_ne_nil (by simp [hon]), ShortId.source_of_one hon] at hown
    exact congrArg Out.srcOut (hown h3)

/-- `SHORT_IDENTIFY` under the partner's kill, with the source gone: nothing latches (R275). -/
theorem execShortIdentify_killed (hid : s.out.ident = [x]) (hx : x.out = n.val) (ht : s.out.test = none) (hk : x.killed = true) :
    ∃ t, execShortIdentify n true s = .next t ∧ t.out.ident = [] ∧ t.out.outs = s.out.outs ∧
      (vget t.out.grps (grpOut n.val)).latches = (vget s.out.grps (grpOut n.val)).latches.erase 3 ∧
      onlyChanges [.out, .evr, .hp, .keep, .mem, .time, .tmr] s t := by
  have e := shortIdentify_killed hid hx ht hk
  obtain ⟨t, hex, ho, hf⟩ := withOutEvents_next (f := shortIdentify n.val true) (T := [.out, .evr, .hp, .keep, .mem, .time, .tmr])
    (e ▸ advanceTo_frame.wider.next withdrawShort_frame)
  rw [e, withdrawShort, advanceTo_out] at ho
  refine ⟨t, hex, ?_, by rw [ho], ?_, hf⟩
  · rw [ho]
    exact filter_ident hid hx
  · rw [ho, vget_vmod_same (grpOut_lt n.isLt)]

/-- `SHORT_IDENTIFY` in the identification dark pulse of a source in the other group (R207). -/
theorem execShortIdentify_followed (hid : s.out.ident = [x]) (hx : x.out = n.val) (ht : s.out.test = some r) (hr : r.sel = .ident n.val j.val)
    (hg : grpOut j.val ≠ grpOut n.val) (hn3 : 3 ∉ (vget s.out.outs n.val).latched) (hj3 : 3 ∉ (vget s.out.outs j.val).latched) :
    ∃ t, execShortIdentify n true s = .next t ∧ t.out.ident = [] ∧ t.out.test = none ∧
      (vget t.out.outs n.val).latched = (vget s.out.outs n.val).latched ++ [3] ∧ (vget t.out.outs n.val).srcOut = j.val ∧
      (vget t.out.outs j.val).latched = (vget s.out.outs j.val).latched ++ [3] ∧ (vget t.out.outs j.val).srcOut = n.val ∧
      (vget t.out.grps (grpOut j.val)).master = false ∧ onlyChanges [.out, .evr, .hp, .keep, .mem, .time, .tmr] s t := by
  have hjn : j.val ≠ n.val := fun e => hg (congrArg grpOut e)
  have hgj : grpOut j.val = 1 - grpOut n.val := grpOut_of_ne j.isLt n.isLt hg
  have e := shortIdentify_followed hid hx ht hr
  have hu : onlyChanges [.out, .time, .tmr] s (releaseTest (advanceTo r.until_ s)) := advanceTo_frame.wider.next releaseTest_frame
  have hln := latched_afterPulse (t := r.until_) (s := s) n.isLt
  have hlj := latched_afterPulse (t := r.until_) (s := s) j.isLt
  have hui : (releaseTest (advanceTo r.until_ s)).out.ident = s.out.ident := by rw [releaseTest, advanceTo_out]
  have hut : (releaseTest (advanceTo r.until_ s)).out.test = none := rfl
  generalize releaseTest (advanceTo r.until_ s) = u at e hu hln hlj hui hut
  obtain ⟨t, hex, ho, hf⟩ := withOutEvents_next (f := shortIdentify n.val true) (T := [.out, .evr, .hp, .keep, .mem, .time, .tmr])
    (e ▸ ((hu.wider.next openMaster_frame).next endIdent_frame).next latchOut_frame)
  rw [e] at ho
  have hown : vget t.out.outs n.val = ({ vget u.out.outs n.val with classified := true } : Out).latchedOff 3 j.val := by
    rw [ho, vget_latchOut_other hjn.symm, vget_endIdent_same n.isLt (by rwa [openMaster_outs, hln]), openMaster_outs]
  have hsrc : vget t.out.outs j.val = (vget u.out.outs j.val).latchedOff 3 n.val := by
    rw [ho, vget_latchOut_same j.isLt (by rwa [vget_endIdent_other hjn, openMaster_outs, hlj]), vget_endIdent_other hjn, openMaster_outs]
  refine ⟨t, hex, ?_, ?_, ?_, congrArg Out.srcOut hown, ?_, congrArg Out.srcOut hsrc, ?_, hf⟩
  · rw [ho, latchOut_ident, endIdent_ident, openMaster_ident, hui, filter_ident hid hx]
  · rw [ho, latchOut_test, endIdent_test, openMaster_test, hut]
  · rw [← hln, hown]
    rfl
  · rw [← hlj, hsrc]
    rfl
  · rw [ho, latchOut_grps, endIdent_grps, vget_vmod_other hg, hgj]
    exact (vget_openMaster_same (by omega) (by decide)).1

end

/-! ### The statement -/

/-- Settles O41: each row is one change of the outputs and its events, which leave the outputs as the change made them (`withOutEvents_next`); a row whose
output does not meet its condition is no change and no event. -/
theorem outputProtection : Obligations.OutputProtection := by
  intro n j g ua coil s
  refine ⟨execOutputOverload_spec, fun h => ?_, execOpenLoad_spec, fun h => ?_, execGroupOvercurrent_spec, rfl,
    fun h1 h2 h3 => ⟨execReadbackFault_short h1 h2 h3, execReadbackFault_noCoil h1 h2 h3⟩, fun h => ?_,
    fun x hid hx ht => ⟨execShortIdentify_behind hid hx ht, execShortIdentify_killed hid hx ht, fun hp hoff h4 => ?_⟩,
    fun x r => execShortIdentify_followed⟩
  · exact congrArg Host.Outcome.next (withOutEvents_of_self (latchOut_of_mem h))
  · exact congrArg Host.Outcome.next (withOutEvents_of_self (openLoad_of_not_energised h))
  · exact congrArg Host.Outcome.next (withOutEvents_of_self (readbackFault_not_judged h))
  · obtain ⟨t, hex, hident, -, hoth, hf, hown⟩ := execShortIdentify_ended hid hx (shortIdentify_outside hid hx ht hp hoff)
    exact ⟨t, hex, hident, congrArg Out.latched (hown h4), hoth, hf⟩

end Sys2Proof.Machine
end

section
/-! PROOFS. Cross-link containers sent and received (R261 to R265), and O47. -/

-- One declaration after the other: side by side, their threads' stacks need more memory than the check allows.
set_option Elab.async false

namespace Sys2Proof.Machine

/-! ### A container is accepted in its slot (R262, R264) -/

section
variable {slot xcnt : Nat} {judge : Bool} {body ws : List Word}

theorem xlContainer_length : (xlContainer slot xcnt body).length = 34 := by
  simp [xlContainer]
  omega

/-- The 32 words of a container: its body, cut or filled with zeros. -/
theorem xlContainer_body : ((xlContainer slot xcnt body).drop 1).take 32 = body.take 32 ++ List.replicate (32 - body.length) 0 := by
  have hl : (body.take 32 ++ List.replicate (32 - body.length) (0 : Word)).length = 32 := by simp; omega
  exact List.take_left' hl

/-- The header of a container: address, kind, version and count (R262). -/
theorem xlContainer_header (h : slot < 16) : (lget (xlContainer slot xcnt body) 0 0).toNat =
    slot / 2 + (if slot % 2 = 1 then 8 else 0) + 16 + 65536 * (xcnt % 65536) := by
  refine Nat.mod_eq_of_lt ?_
  split <;> omega

/-- The CRC covers the slot and every word before it. -/
theorem xlContainer_crc : lget (xlContainer slot xcnt body) 33 0 = xlCrc slot (xlContainer slot xcnt body) := by
  obtain ⟨w, hl, hc⟩ : ∃ w : List Word, w.length = 33 ∧ xlContainer slot xcnt body = w ++ [xlCrc slot w] := ⟨_, by simp; omega, rfl⟩
  have hlast (c : Word) : lget (w ++ [c]) 33 0 = c := by simp [lget, ← hl]
  have hcrc (c : Word) : xlCrc slot (w ++ [c]) = xlCrc slot w := by
    rw [xlCrc, xlCrc, List.take_left' hl, List.take_of_length_le (Nat.le_of_eq hl)]
  rw [hc, hlast, hcrc]

theorem xlContainer_accepts (h : slot < 16) : xlAccepts slot xcnt judge (xlContainer slot xcnt body) = true := by
  have hhead := xlContainer_header (xcnt := xcnt) (body := body) h
  simp only [xlAccepts, xlContainer_length, xlContainer_crc, hhead, bits, beq_self_eq_true, Bool.true_and, Bool.and_eq_true, beq_iff_eq, Bool.or_eq_true]
  refine ⟨⟨⟨?_, ?_⟩, ?_⟩, .inr ?_⟩ <;> (split <;> omega)

/-- A copy of another length, or with another CRC, is not accepted. -/
theorem xlAccepts_of_bad (h : ws.length ≠ 34 ∨ lget ws 33 0 ≠ xlCrc slot ws) : xlAccepts slot xcnt judge ws = false := by
  rcases h with h | h <;> simp only [xlAccepts, beq_eq_false_iff_ne.2 h, Bool.and_false, Bool.false_and]

end

/-! ### Sending (R258, R261, R263) -/

section
variable {svc : Bool} {t : Nat} {s : State}

theorem advanceTo_xl : (advanceTo t s).xl = s.xl := advanceTo_frame .xl (by decide)

theorem xlSends_advanceTo : xlSends (advanceTo t s) = xlSends s := by
  have hmd : (advanceTo t s).md = s.md := advanceTo_frame .md (by decide)
  rw [xlSends, xlSends, advanceTo_xl, hmd]

/-- The instant at which a module's container begins. -/
def slotStart (svc : Bool) (s : State) : Nat := s.cyc.commitAt + 64 + 250 * (2 * s.xl.mid + b2n svc)

theorem xlSlot_silent (h : xlSends s = false) : xlSlot svc s = advanceTo (slotStart svc s) s := by
  have hs : xlSends (advanceTo (slotStart svc s) s) = false := xlSends_advanceTo.trans h
  exact if_pos (by rw [Bool.not_eq_true', ← hs]; rfl)

/-- What the cross-link holds once a module has sent the container `w`: the copies that it receives itself, on both lanes (R265). -/
def XlBlk.heardOwn (svc : Bool) (w : List Word) (x : XlBlk) : XlBlk :=
  { x with copies := x.copies ++ [{ slot := 2 * x.mid + b2n svc, clb := false, words := w }, { slot := 2 * x.mid + b2n svc, clb := true, words := w }] }

/-- The words of the data container: the committed transmit cells while they are in force. -/
def dataWords (s : State) : List Word := if s.md.mstate == .run || s.md.mstate == .quiet then xlTxCells s else []

theorem length_xlTxCells : (xlTxCells s).length = 32 := List.length_map _

theorem xlSlot_data (h : xlSends s = true) : (xlSlot false s).xl =
    { s.xl.heardOwn false (xlContainer (2 * s.xl.mid) s.xl.pcnt (dataWords s)) with txData := xlContainer (2 * s.xl.mid) s.xl.pcnt (dataWords s) } := by
  have hcyc (t) : (advanceTo t s).cyc = s.cyc := advanceTo_frame .cyc (by decide)
  have hmd (t) : (advanceTo t s).md = s.md := advanceTo_frame .md (by decide)
  simp [xlSlot, xlSends_advanceTo, h, XlBlk.heardOwn, dataWords, xlTxCells, advanceTo_xl, hcyc, hmd, b2n]

theorem xferNext_xl : ∃ o f, (xferNext s).xl = { s.xl with xferObj := o, xferOfs := f } := by
  unfold xferNext
  split
  · exact ⟨_, _, rfl⟩
  · dsimp only
    split <;> exact ⟨_, _, rfl⟩

theorem xlSlot_service (h : xlSends s = true) : ∃ body a o f, (xlSlot true s).xl =
    { s.xl.heardOwn true (xlContainer (2 * s.xl.mid + 1) s.xl.pcnt body) with
      txSvc := xlContainer (2 * s.xl.mid + 1) s.xl.pcnt body, announce := a, xferObj := o, xferOfs := f } := by
  have hs : ¬(!xlSends (advanceTo (slotStart true s) s)) = true := by simp [xlSends_advanceTo, h]
  obtain ⟨body, a, r, e, hr⟩ : ∃ body a r, xlSlot true s = xferNext r ∧ r.xl =
      { s.xl.heardOwn true (xlContainer (2 * s.xl.mid + 1) s.xl.pcnt body) with
        txSvc := xlContainer (2 * s.xl.mid + 1) s.xl.pcnt body, announce := a } :=
    ⟨_, _, _, if_neg hs, by simp only [if_true, advanceTo_xl, XlBlk.heardOwn, b2n]; rfl⟩
  obtain ⟨o, f, ho⟩ := xferNext_xl (s := r)
  exact ⟨body, a, o, f, by rw [e, ho, hr]⟩

end

/-! ### Receiving (R264) -/

section
variable {svc clb : Bool} {slot : Nat} {ws : List Word} {c : XlCopy} {s : State}

/-- The cross-link with an accepted copy kept. -/
def XlBlk.keepCopy (slot : Nat) (clb : Bool) (ws : List Word) (x : XlBlk) : XlBlk :=
  { x with copies := x.copies ++ [{ slot := slot, clb := clb, words := ws }] }

theorem xlReceive_alone (ha : xlAccepts slot s.xl.pcnt (onCarrier s) ws = true) (h : ∀ c ∈ s.xl.copies, c.slot = slot → c.clb = clb) :
    xlReceive slot clb ws s = { s with xl := s.xl.keepCopy slot clb ws } := by
  have hf : (s.xl.copies.find? fun c => c.slot == slot && c.clb != clb) = none := by simpa using h
  simp [xlReceive, ha, hf, XlBlk.keepCopy]

/-- An accepted copy that differs from the one on the other lane: the slot clashes, and the event says so. -/
theorem xlReceive_clash (ha : xlAccepts slot s.xl.pcnt (onCarrier s) ws = true) (hc : s.xl.copies = [c]) (h1 : c.slot = slot) (h2 : c.clb ≠ clb)
    (h3 : c.words ≠ ws) (h4 : slot ∉ s.xl.clash) :
    xlReceive slot clb ws s = postEv 0x0902 (slot / 2) (leBytes 1 (slot % 2)) (xlEvt 1 { s with xl := { s.xl.keepCopy slot clb ws with clash := slot :: s.xl.clash } }) := by
  have hf : (s.xl.copies.find? fun c => c.slot == slot && c.clb != clb) = some c := by simp [hc, h1, h2]
  simp [xlReceive, ha, hf, h3, h4, XlBlk.keepCopy]

theorem xlReceive_bad (h : ws.length ≠ 34 ∨ lget ws 33 0 ≠ xlCrc slot ws) : xlReceive slot clb ws s = { s with xl := { s.xl with
    evt := s.xl.evt ||| BitVec.twoPow 32 0, claErr := if clb then s.xl.claErr else satUp s.xl.claErr, clbErr := if clb then satUp s.xl.clbErr else s.xl.clbErr } } := by
  have hbad : (ws.length != 34 || lget ws 33 0 != xlCrc slot ws) = true := by simpa only [Bool.or_eq_true, bne_iff_ne] using h
  simp only [xlReceive, xlAccepts_of_bad h, hbad, Bool.not_false, if_true, xlEvt]

theorem usable_of_clash (h : slot ∈ s.xl.clash) : usable s slot = none := if_pos h

theorem exec_xlSlot : exec (.xlSlot svc) s = .next (xlSlot svc s) := rfl

theorem exec_xlContainerReceive {k : Fin 16} : exec (.xlContainerReceive k clb ws) s = .next (xlReceive k.val clb ws s) := rfl

/-! ### The statement -/

theorem execXlSlot_data (h : xlSends s = true) (hm : s.xl.mid < 8) : ∃ t w, exec (.xlSlot false) s = .next t ∧ xlAccepts (2 * s.xl.mid) s.xl.pcnt true w = true ∧
    t.xl.txData = w ∧ t.xl.txSvc = s.xl.txSvc ∧ (s.md.mstate = .run → (w.drop 1).take 32 = xlTxCells s) ∧
    (s.md.mstate = .safeHold → (w.drop 1).take 32 = List.replicate 32 0) ∧ t.xl.copies = (s.xl.heardOwn false w).copies ∧ onlyChanges [.xl, .time, .tmr] s t := by
  have hx := xlSlot_data h
  refine ⟨xlSlot false s, _, rfl, xlContainer_accepts (body := dataWords s) (by omega), by rw [hx], by rw [hx]; rfl, fun hr => ?_, fun hr => ?_, by rw [hx], xlSlot_frame⟩
  · have hd : dataWords s = xlTxCells s := if_pos (by rw [hr]; rfl)
    rw [xlContainer_body, hd, List.take_of_length_le (Nat.le_of_eq length_xlTxCells), length_xlTxCells, Nat.sub_self, List.replicate_zero, List.append_nil]
  · have hd : dataWords s = [] := if_neg (by rw [hr]; decide)
    rw [xlContainer_body, hd]
    rfl

theorem execXlSlot_service (h : xlSends s = true) (hm : s.xl.mid < 8) : ∃ t w, exec (.xlSlot true) s = .next t ∧
    xlAccepts (2 * s.xl.mid + 1) s.xl.pcnt true w = true ∧ t.xl.txSvc = w ∧ t.xl.txData = s.xl.txData ∧
    t.xl.copies = (s.xl.heardOwn true w).copies ∧ onlyChanges [.xl, .time, .tmr] s t := by
  obtain ⟨body, a, o, f, hx⟩ := xlSlot_service h
  exact ⟨xlSlot true s, _, rfl, xlContainer_accepts (body := body) (by omega), by rw [hx], by rw [hx]; rfl, by rw [hx], xlSlot_frame⟩

theorem execXlContainerReceive_clash {k : Fin 16} (ha : xlAccepts k.val s.xl.pcnt (onCarrier s) ws = true) (hc : s.xl.copies = [c]) (h1 : c.slot = k.val)
    (h2 : c.clb ≠ clb) (h3 : c.words ≠ ws) (h4 : k.val ∉ s.xl.clash) : ∃ t, exec (.xlContainerReceive k clb ws) s = .next t ∧
      usable t k.val = none ∧ t.xl.evt = s.xl.evt ||| BitVec.twoPow 32 1 ∧ onlyChanges [.xl, .evr, .hp, .keep, .mem] s t := by
  have e := xlReceive_clash ha hc h1 h2 h3 h4
  refine ⟨_, exec_xlContainerReceive, usable_of_clash ?_, ?_, ?_⟩
  · simp [e, xlEvt_xl]
  · simp [e, XlBlk.keepCopy]
  · rw [e]
    exact onlyChanges.of fun b => by cases b <;> simp [Blk.same]

end

/-- Settles O47: what a module sends in its slot is accepted in that slot, by itself first (`xlContainer_accepts`), and a copy received is kept, clashes or counts. -/
theorem crossLinkContainers : Obligations.CrossLinkContainers := by
  intro svc clb slot ws s
  refine ⟨fun h hm => ?_, fun h => ⟨_, exec_xlSlot, ?_⟩, fun ha => ⟨fun h => ?_, fun c => execXlContainerReceive_clash ha⟩, fun h => ?_⟩
  · cases svc with
    | false =>
      obtain ⟨t, w, hex, hacc, hdata, hsvc, hrun, hhold, hcop, hf⟩ := execXlSlot_data h hm
      exact ⟨t, w, hex, hacc, nofun, fun _ => ⟨hdata, hsvc, hrun, hhold⟩, hcop, hf⟩
    | true =>
      obtain ⟨t, w, hex, hacc, hsvc, hdata, hcop, hf⟩ := execXlSlot_service h hm
      exact ⟨t, w, hex, hacc, fun _ => ⟨hsvc, hdata⟩, nofun, hcop, hf⟩
  · rw [xlSlot_silent h]
    exact advanceTo_frame
  · exact congrArg Host.Outcome.next (xlReceive_alone ha h)
  · exact congrArg Host.Outcome.next (xlReceive_bad h)

end Sys2Proof.Machine
end

section
/-! PROOFS. Synchronisation, mastership, join, stop and kill on the cross-link (R258 to R260, R268, R269, R271, R274), and O48. -/

-- One declaration after the other: side by side, their threads' stacks need more memory than the check allows.
set_option Elab.async false

namespace Sys2Proof.Machine

/-! ### A cause found -/

section
variable {c : Byte} {T : List Blk} {s t : State}

/-- In `RUN` and `QUIET` a cause waits for the next commit point, once (R19). -/
theorem findCause_of_cycles (h : s.md.mstate = .run ∨ s.md.mstate = .quiet) :
    findCause c s = if c ∈ s.md.holdPend then s else { s with md := { s.md with holdPend := s.md.holdPend ++ [c] } } := by
  rcases h with h | h <;> simp [findCause, h]

theorem findCause_holdPend (h : s.md.mstate = .run ∨ s.md.mstate = .quiet) : c ∈ (findCause c s).md.holdPend := by
  rw [findCause_of_cycles h]
  split
  · assumption
  · simp

theorem findCause_mstate : (findCause c s).md.mstate = s.md.mstate := by
  have hr : (recordCause c s).md.mstate = s.md.mstate := by
    obtain ⟨l, e⟩ := recordCause_md (c := c) (s := s)
    rw [e]
  unfold findCause
  split
  · split <;> rfl
  · split <;> rfl
  · split <;> rfl
  · exact hr
  · exact hr
  · rfl

theorem findCause_xl : (findCause c s).xl = s.xl := findCause_frame .xl (by decide)

/-- Pair mode is a matter of the configuration and of the fuses. -/
theorem pairMode_of_frame (h : onlyChanges T s t) (hp : t.xl.pairCfg = s.xl.pairCfg) (hT : T.contains .fuse = false := by decide) : pairMode t = pairMode s := by
  have hf : t.fuse = s.fuse := h .fuse (by simpa using hT)
  have hu : pairUid t = pairUid s := by unfold pairUid inForce fuseField; rw [hf]
  rw [pairMode, pairMode, hp, hu]

end

/-! ### Entry to `FAULT` 0x27 (R19, R274) -/

section
variable {c : Byte} {s : State}

theorem dropRequests_xl {keep : BKind → Bool} : (dropRequests keep s).xl = { s.xl with quietReq := false } := allWrong_frame .xl (by decide)

/-- Entry to `FAULT` drops a quiet request on the cross-link and leaves the rest of it. -/
theorem enterFault_xl (h : s.md.mstate ∈ [.starting, .run, .quiet, .safeHold]) : (enterFault c s).xl = { s.xl with quietReq := false } := by
  have hr (l : List Byte) (u) : (l.foldl (fun s c => recordCause c s) u).xl = u.xl := foldl_keeps State.xl (fun _ _ => recordCause_frame .xl (by decide)) l u
  have hf (u) : (faulted c u).xl = u.xl := faulted_frame .xl (by decide)
  have hw (l u) : (allWrong l u).xl = u.xl := allWrong_frame .xl (by decide)
  simp only [List.mem_cons, List.not_mem_nil, or_false] at h
  unfold faulted at hf
  rcases h with h | h | h | h <;> simp only [enterFault, h, hr, hf, dropRequests_xl, hw]

/-- The masters opened and `FAULT` entered, seen from a state `r` before it whose clocks, cycle, outputs, lanes and requests are still the same (R19, R197). -/
theorem enterFault_holdMasters {r : State} (hr : onlyChanges [.evr, .hp, .keep, .md, .mem, .xl] r s) (h : s.md.mstate ∈ [.starting, .run, .quiet, .safeHold]) :
    FaultEntered c r (enterFault c (holdMasters s)) := by
  have hmd : (holdMasters s).md = s.md := holdMasters_frame .md (by decide)
  have ha : (holdMasters s).md.mstate = .starting ∨ (holdMasters s).md.mstate = .run ∨ (holdMasters s).md.mstate = .quiet ∨ (holdMasters s).md.mstate = .safeHold := by
    simpa [hmd] using h
  have hcyc : s.cyc = r.cyc := hr .cyc (by decide)
  obtain ⟨hst, hcause, hopen, hrun, -, hf⟩ := enterFault_spec (c := c) ha
  refine ⟨hst, hcause, hopen, fun hcanon => enterFault_ownedZero ha ?_, hrun, (hr.wider.next holdMasters_frame).trans hf⟩
  rw [holdMasters_cyc, hcyc]
  exact hcanon.2

end

/-! ### Pulses and mastership (R258, R259) -/

section
variable {i m at_ : Nat} {e : Int} {s : State}

theorem xlEvt_frame : onlyChanges [.xl] s (xlEvt i s) := onlyChanges.of fun b => by cases b <;> simp [Blk.same]

theorem newMaster_frame : onlyChanges [.xl, .evr, .hp, .keep, .mem] s (newMaster m s) := by
  unfold newMaster
  split
  · exact .refl _ s
  · exact onlyChanges.of fun b => by cases b <;> simp [Blk.same]

/-- The acting master is the one told, and only the event flags of the cross-link change with it. -/
theorem newMaster_xl : ∃ f, (newMaster m s).xl = { s.xl with actMaster := m, evt := f } := by
  unfold newMaster
  split
  · next h => exact ⟨s.xl.evt, by rw [← h.1]⟩
  · exact ⟨_, postEv_xl ..⟩

/-- Error of a pulse stamped at `at_`: its distance from the t0 that it is nearer to (R258). -/
def pulseError (at_ : Nat) (s : State) : Int :=
  if tickDist at_ s.cyc.nextT0 < tickDist at_ s.cyc.lastT0 then (at_ : Int) - s.cyc.nextT0 else (at_ : Int) - s.cyc.lastT0

theorem clsyncEdge_acting (h : s.xl.acting = true) : clsyncEdge m at_ s = s := if_pos h

/-- What a pulse tells before it is followed: its master, and the loss of lock where its error is too large. -/
def pulseTold (m at_ : Nat) (s : State) : State :=
  if s.xl.locked && !decide ((pulseError at_ s).natAbs ≤ 32) then xlEvt 3 (newMaster m s) else newMaster m s

theorem pulseTold_frame : onlyChanges [.xl, .evr, .hp, .keep, .mem] s (pulseTold m at_ s) := by
  unfold pulseTold
  split
  · exact newMaster_frame.next xlEvt_frame
  · exact newMaster_frame

theorem pulseTold_xl : ∃ f, (pulseTold m at_ s).xl = { s.xl with actMaster := m, evt := f } := by
  obtain ⟨f, hx⟩ := newMaster_xl (m := m) (s := s)
  unfold pulseTold
  split
  · exact ⟨f ||| BitVec.twoPow 32 3, by rw [xlEvt_xl, hx]⟩
  · exact ⟨f, hx⟩

/-- The state of a follower after a pulse: lock within 32 ticks, and the next t0 moved by the error, by at most as many. -/
def pulseFollowed (at_ : Nat) (e : Int) (s : State) : State :=
  { s with xl := { s.xl with stamp := at_, pulse := true, absent := 0, sawSync := true, locked := decide (e.natAbs ≤ 32) && s.cyc.running,
                             err := BitVec.ofNat 16 (ofSigned 16 e) }
           cyc := { s.cyc with nextT0 := ((s.cyc.nextT0 : Int) + max (-32) (min 32 e)).toNat } }

theorem clsyncEdge_follower (h : s.xl.acting = false) : clsyncEdge m at_ s = pulseFollowed at_ (pulseError at_ s) (pulseTold m at_ s) :=
  if_neg (by simp [h])

theorem pulseFollowed_frame : onlyChanges [.cyc, .xl] s (pulseFollowed at_ e s) := onlyChanges.of fun b => by cases b <;> simp [Blk.same, pulseFollowed]

theorem becomeMaster_frame : onlyChanges [.xl, .evr, .hp, .keep, .mem] s (becomeMaster s) := by
  have hn : onlyChanges [.xl, .evr, .hp, .keep, .mem] s (newMaster s.xl.mid s) := newMaster_frame
  exact hn.trans (onlyChanges.of fun b => by cases b <;> simp [Blk.same, becomeMaster])

theorem becomeMaster_xl : ∃ f, (becomeMaster s).xl = { s.xl with actMaster := s.xl.mid, evt := f, acting := true, joined := true, locked := true, absent := 0 } := by
  obtain ⟨f, hx⟩ := newMaster_xl (m := s.xl.mid) (s := s)
  exact ⟨f, by simp only [becomeMaster, hx]⟩

end

/-! ### The kill line at the join (R274) -/

section
variable {s : State}

/-- Does the partner's kill reach this module: in pair mode, with the line received low? -/
def killHeard (s : State) : Bool := pairMode s && s.xl.killIn

theorem joinKill_of_not_heard (h : killHeard s = false) : joinKill s = s := if_neg (Bool.eq_false_iff.1 h)

theorem joinKill_of_heard (h : killHeard s = true) (ha : s.md.mstate ∈ [.starting, .run, .quiet, .safeHold]) : FaultEntered 0x27 s (joinKill s) := by
  have e : joinKill s = enterFault 0x27 (holdMasters s) := if_pos h
  rw [e]
  exact enterFault_holdMasters (.refl _ s) ha

theorem killHeard_of_frame {T : List Blk} {t : State} (h : onlyChanges T s t) (hp : t.xl.pairCfg = s.xl.pairCfg) (hk : t.xl.killIn = s.xl.killIn)
    (hT : T.contains .fuse = false := by decide) : killHeard t = killHeard s := by
  rw [killHeard, killHeard, pairMode_of_frame h hp hT, hk]

theorem killHeard_becomeMaster : killHeard (becomeMaster s) = killHeard s := by
  obtain ⟨f, hx⟩ := becomeMaster_xl (s := s)
  exact killHeard_of_frame becomeMaster_frame (by rw [hx]) (by rw [hx])

/-- A module that becomes acting cycle master and hears no kill stays one. -/
theorem joinKill_becomeMaster (h : killHeard s = false) : joinKill (becomeMaster s) = becomeMaster s :=
  joinKill_of_not_heard (killHeard_becomeMaster.trans h)

theorem becomeMaster_mstate : (becomeMaster s).md.mstate = s.md.mstate := congrArg ModBlk.mstate (becomeMaster_frame .md (by decide))

end

/-! ### Timeouts of the pulses (R259, R260) -/

section
variable {s : State}

theorem clsyncTimeout_stays (h : s.xl.acting = true ∨ s.xl.absent < 4 + 4 * s.xl.mid ∨ s.xl.pulse = true ∨
    (s.xl.joined = false ∧ (s.xl.sawSync = false ∨ s.xl.joinFailed = true))) : clsyncTimeout s = s := by
  refine if_pos ?_
  rcases h with h | h | h | ⟨hj, h | h⟩
  · simp [h]
  · simp [h]
  · simp [h]
  · simp [hj, h]
  · simp [hj, h]

theorem clsyncTimeout_masters (h1 : s.xl.acting = false) (h2 : s.xl.joined = true ∨ (s.xl.sawSync = true ∧ s.xl.joinFailed = false ∧ killHeard s = false))
    (h3 : 4 + 4 * s.xl.mid ≤ s.xl.absent) (h4 : s.xl.pulse = false) : clsyncTimeout s = becomeMaster s := by
  have hin : (s.xl.joined || (s.xl.sawSync && !s.xl.joinFailed)) = true := by
    rcases h2 with h | ⟨h, hf, -⟩
    · simp [h]
    · simp [h, hf]
  have hgo : clsyncTimeout s = if s.xl.joined then becomeMaster s else joinKill (becomeMaster s) := if_neg (by simp [h1, hin, h4]; omega)
  rw [hgo]
  split
  · rfl
  · next hj =>
    obtain h | ⟨-, -, hk⟩ := h2
    · exact absurd h hj
    · exact joinKill_becomeMaster hk

/-- The instant at which a module that heard no pulse ends its wait. -/
def joinWaitEnd (s : State) : Nat := s.xl.joinFrom + msTicks 10000 + s.xl.mid * msTicks 500

theorem joinTimeout_alone (h1 : s.xl.acting = false) (h2 : s.xl.joined = false) (h3 : s.xl.sawSync = false) (h4 : s.cyc.running = true) :
    joinTimeout s = joinKill (becomeMaster (advanceTo (joinWaitEnd s) s)) := if_neg (by simp [h1, h2, h3, h4])

theorem killHeard_advanceTo {t : Nat} : killHeard (advanceTo t s) = killHeard s :=
  killHeard_of_frame advanceTo_frame (by rw [advanceTo_xl]) (by rw [advanceTo_xl])

end

/-! ### The join (R260, R269) -/

section
variable {c : Byte} {s : State}

/-- A module that has joined: second, if its partner's service container was there. -/
def joinedState (s : State) : State :=
  { s with xl := { s.xl with joined := true, joinFailed := false, unlockRun := 0, second := (svcOf s (partnerMid s)).isSome } }

/-- A module whose join has failed for a cause: the flags, the event. -/
def joinRefused (c : Byte) (s : State) : State :=
  postEv 0x0905 0 [c] (xlEvt 9 { s with xl := { s.xl with joinFailed := true }, md := { s.md with idConflict := s.md.idConflict || c == 0x15 } })

theorem xlJoin_joins (h1 : s.xl.acting = false) (h2 : s.xl.joined = false) (h3 : 16 ≤ s.xl.observed) (h4 : joinCause s = none) (h5 : s.xl.locked = true)
    (h6 : 16 ≤ s.xl.lockRun) :
    xlJoin s = joinKill (pairCheck (joinedState s)) := by
  simp [xlJoin, joinedState, h1, h2, h4, h5, Nat.not_lt.2 h3, Nat.not_lt.2 h6]

theorem xlJoin_refuses (h1 : s.xl.acting = false) (h2 : s.xl.joined = false) (h3 : 16 ≤ s.xl.observed) (h4 : joinCause s = some c) (h5 : s.xl.joinFailed = false) :
    xlJoin s = findCause c (joinRefused c s) := by
  simp [xlJoin, joinRefused, h1, h2, h4, h5, Nat.not_lt.2 h3]

theorem joinedState_frame : onlyChanges [.xl] s (joinedState s) := onlyChanges.of fun b => by cases b <;> simp [Blk.same, joinedState]

theorem joinRefused_frame : onlyChanges [.md, .xl, .evr, .hp, .keep, .mem] s (joinRefused c s) :=
  onlyChanges.of fun b => by cases b <;> simp [Blk.same, joinRefused]

/-- The words compared are those that the module had before its join. -/
theorem pairDiffers_joinedState : pairDiffers (joinedState s) = pairDiffers s := by
  have hp : pairMode (joinedState s) = pairMode s := pairMode_of_frame joinedState_frame rfl
  rw [pairDiffers, pairDiffers, hp]
  rfl

theorem pairDiffers_partner (h : pairDiffers s = true) : (svcOf s (partnerMid s)).isSome = true := by
  cases hp : svcOf s (partnerMid s) with
  | some ws => rfl
  | none => simp [pairDiffers, hp] at h

theorem pairCheck_of_same (h : pairDiffers s = false) : pairCheck s = s := if_neg (by simp [h])

/-- A module that joins second and differs from its partner finds cause 0x12, unless it stands already (R269). -/
theorem pairCheck_joinedState_differs (h : pairDiffers s = true) (hr : s.md.mstate = .run) (hn : 0x12#8 ∉ s.md.recorded) :
    0x12#8 ∈ (pairCheck (joinedState s)).md.holdPend := by
  have hon : onCarrier (joinedState s) = true := rfl
  have hsec : (joinedState s).xl.second = true := pairDiffers_partner h
  have hdif : pairDiffers (joinedState s) = true := pairDiffers_joinedState.trans h
  have hrec : 0x12#8 ∉ (joinedState s).md.recorded := hn
  by_cases hp : 0x12#8 ∈ (joinedState s).md.holdPend
  · rw [pairCheck, if_neg (by simp only [hp, decide_true, Bool.true_or, Bool.not_true, Bool.and_false, Bool.false_eq_true, not_false_eq_true])]
    exact hp
  · rw [pairCheck, if_pos (by simp only [hon, hsec, hdif, hp, hrec, decide_false, Bool.or_self, Bool.not_false, Bool.and_self])]
    exact findCause_holdPend (.inl hr)

theorem pairCheck_mstate : (pairCheck s).md.mstate = s.md.mstate := by
  unfold pairCheck
  split
  · exact findCause_mstate
  · rfl

theorem pairCheck_xl : (pairCheck s).xl = s.xl := pairCheck_frame .xl (by decide)

theorem killHeard_checked : killHeard (pairCheck (joinedState s)) = killHeard s :=
  killHeard_of_frame (joinedState_frame.wider.next (T := [.xl, .md, .evr, .hp, .keep, .mem]) pairCheck_frame) (by rw [pairCheck_xl]; rfl) (by rw [pairCheck_xl]; rfl)

end

/-! ### `CLSTOP`, the kill, takeovers (R268, R271, R274) -/

section
variable {k : Nat} {s : State}

theorem clstopDetect_low (h1 : s.xl.stopRcv = true) (h2 : 2 ≤ s.xl.stopRun) (h : s.md.mstate = .run ∨ s.md.mstate = .quiet) (h3 : 0x14#8 ∉ s.md.holdPend)
    (h4 : 0x14#8 ∉ s.md.recorded) :
    clstopDetect s = { s with xl := { s.xl with evt := s.xl.evt ||| BitVec.twoPow 32 5 }, md := { s.md with holdPend := s.md.holdPend ++ [0x14] } } := by
  have hf : findCause 0x14 (xlEvt 5 s) = { xlEvt 5 s with md := { s.md with holdPend := s.md.holdPend ++ [0x14] } } :=
    (findCause_of_cycles (s := xlEvt 5 s) h).trans (if_neg h3)
  have hgo : clstopDetect s = findCause 0x14 (xlEvt 5 s) := by simp [clstopDetect, h1, h2, h3, h4]
  exact hgo.trans hf

theorem clstopDetect_high (h : s.xl.stopRcv = false ∨ s.xl.stopRun < 2) : clstopDetect s = s := by
  refine if_neg ?_
  rcases h with h | h
  · simp [h]
  · simp [Nat.not_le.2 h]

theorem killReceive_alone (h : pairMode s = false) : killReceive s = { s with xl := { s.xl with killIn := true } } :=
  if_pos (show (!pairMode s) = true by simp [h])

theorem killReceive_paired (h : pairMode s = true) (ha : s.md.mstate ∈ [.starting, .run, .quiet, .safeHold]) :
    FaultEntered 0x27 s (killReceive s) ∧ (killReceive s).xl.killIn = true := by
  have hgo : killReceive s = enterFault 0x27 (holdMasters (postEv 0x0904 0 (leBytes 1 1 ++ leBytes 1 0) { s with xl := { s.xl with killIn := true } })) :=
    if_neg (show ¬(!pairMode s) = true by simp [h])
  rw [hgo]
  refine ⟨enterFault_holdMasters (onlyChanges.of fun b => by cases b <;> simp [Blk.same]) (by simpa using ha), ?_⟩
  have hmd (u) : (holdMasters u).md = u.md := holdMasters_frame .md (by decide)
  have hx (u) : (holdMasters u).xl = u.xl := holdMasters_frame .xl (by decide)
  rw [enterFault_xl (by simpa [hmd] using ha), hx, postEv_xl]

theorem takeTos_dark (h : s.xl.toMask.getLsbD k = false) : takeTos [k] s =
    postEv 0x0903 k [] (xlEvt 8 { s with xl := { s.xl with toMask := s.xl.toMask ||| BitVec.twoPow 16 k } }) := if_neg (by simp [h])

theorem takeTos_driven (h : s.xl.toMask.getLsbD k = true) : takeTos [k] s = s := if_pos h

end

/-! ### The statement -/

section
variable {m : Fin 8} {at_ : Nat} {c : Byte} {k : Fin 16} {s : State}

theorem execClsyncEdge_follower (h : s.xl.acting = false) : ∃ t, exec (.clsyncEdge m at_) s = .next t ∧
    t.cyc = { s.cyc with nextT0 := ((s.cyc.nextT0 : Int) + max (-32) (min 32 (pulseError at_ s))).toNat } ∧
    t.xl.locked = (decide ((pulseError at_ s).natAbs ≤ 32) && s.cyc.running) ∧ t.xl.stamp = at_ ∧ t.xl.pulse = true ∧ t.xl.absent = 0 ∧ t.xl.actMaster = m.val ∧
    onlyChanges [.cyc, .xl, .evr, .hp, .keep, .mem] s t := by
  obtain ⟨f, hx⟩ := pulseTold_xl (m := m.val) (at_ := at_) (s := s)
  have hf : onlyChanges [.xl, .evr, .hp, .keep, .mem] s (pulseTold m.val at_ s) := pulseTold_frame
  have hcyc : (pulseTold m.val at_ s).cyc = s.cyc := hf .cyc (by decide)
  refine ⟨_, congrArg Host.Outcome.next (clsyncEdge_follower h), ?_, ?_, rfl, rfl, rfl, ?_, hf.wider.next pulseFollowed_frame⟩
  · rw [pulseFollowed, hcyc]
  · rw [pulseFollowed, hcyc]
  · simp only [pulseFollowed, hx]

theorem execClsyncTimeout_masters (h1 : s.xl.acting = false) (h2 : s.xl.joined = true ∨ (s.xl.sawSync = true ∧ s.xl.joinFailed = false ∧ killHeard s = false))
    (h3 : 4 + 4 * s.xl.mid ≤ s.xl.absent) (h4 : s.xl.pulse = false) : ∃ t, exec .clsyncTimeout s = .next t ∧
    t.xl.acting = true ∧ t.xl.joined = true ∧ t.xl.actMaster = s.xl.mid ∧ t.xl.locked = true ∧ onlyChanges [.xl, .evr, .hp, .keep, .mem] s t := by
  obtain ⟨f, hx⟩ := becomeMaster_xl (s := s)
  exact ⟨_, congrArg Host.Outcome.next (clsyncTimeout_masters h1 h2 h3 h4), by rw [hx], by rw [hx], by rw [hx], by rw [hx], becomeMaster_frame⟩

theorem execJoinTimeout_masters (h1 : s.xl.acting = false) (h2 : s.xl.joined = false) (h3 : s.xl.sawSync = false) (h4 : s.cyc.running = true)
    (hk : killHeard s = false) :
    ∃ t, exec .joinTimeout s = .next t ∧ t.xl.acting = true ∧ t.xl.joined = true ∧ t.xl.actMaster = s.xl.mid ∧
      onlyChanges [.time, .tmr, .xl, .evr, .hp, .keep, .mem] s t := by
  have e : joinTimeout s = becomeMaster (advanceTo (joinWaitEnd s) s) :=
    (joinTimeout_alone h1 h2 h3 h4).trans (joinKill_becomeMaster (killHeard_advanceTo.trans hk))
  obtain ⟨f, hx⟩ := becomeMaster_xl (s := advanceTo (joinWaitEnd s) s)
  rw [advanceTo_xl] at hx
  exact ⟨_, congrArg Host.Outcome.next e, by rw [hx], by rw [hx], by rw [hx], advanceTo_frame.wider.next becomeMaster_frame⟩

theorem execJoinTimeout_killed (h1 : s.xl.acting = false) (h2 : s.xl.joined = false) (h3 : s.xl.sawSync = false) (h4 : s.cyc.running = true)
    (hk : killHeard s = true)
    (ha : s.md.mstate ∈ [.starting, .run, .quiet, .safeHold]) : ∃ t, exec .joinTimeout s = .next t ∧ t.md.mstate = .fault ∧ t.md.cause = 0x27 ∧ mastersOpen t = true := by
  have hmd : (advanceTo (joinWaitEnd s) s).md = s.md := advanceTo_frame .md (by decide)
  obtain ⟨hst, hcause, hopen, -⟩ := joinKill_of_heard (killHeard_becomeMaster.trans (killHeard_advanceTo.trans hk)) (by rwa [becomeMaster_mstate, hmd])
  exact ⟨_, congrArg Host.Outcome.next (joinTimeout_alone h1 h2 h3 h4), hst, hcause, hopen⟩

theorem execXlJoin_joins (h1 : s.xl.acting = false) (h2 : s.xl.joined = false) (h3 : 16 ≤ s.xl.observed) (h4 : joinCause s = none) (h5 : s.xl.locked = true)
    (h6 : 16 ≤ s.xl.lockRun) (hk : killHeard s = false) : ∃ t, exec .xlJoin s = .next t ∧
    t.xl = { s.xl with joined := true, joinFailed := false, unlockRun := 0, second := (svcOf s (partnerMid s)).isSome } ∧
    (pairDiffers s = false → t = { s with xl := t.xl }) ∧
    (pairDiffers s = true → s.md.mstate = .run → 0x12#8 ∉ s.md.recorded → 0x12#8 ∈ t.md.holdPend) ∧ onlyChanges [.md, .xl, .evr, .hp, .keep, .mem] s t := by
  have e : xlJoin s = pairCheck (joinedState s) := (xlJoin_joins h1 h2 h3 h4 h5 h6).trans (joinKill_of_not_heard (killHeard_checked.trans hk))
  refine ⟨_, congrArg Host.Outcome.next e, pairCheck_xl, fun hd => ?_, pairCheck_joinedState_differs, joinedState_frame.wider.next pairCheck_frame⟩
  rw [pairCheck_of_same (pairDiffers_joinedState.trans hd)]
  rfl

theorem execXlJoin_killed (h1 : s.xl.acting = false) (h2 : s.xl.joined = false) (h3 : 16 ≤ s.xl.observed) (h4 : joinCause s = none) (h5 : s.xl.locked = true)
    (h6 : 16 ≤ s.xl.lockRun) (hk : killHeard s = true) (ha : s.md.mstate ∈ [.starting, .run, .quiet, .safeHold]) :
    ∃ t, exec .xlJoin s = .next t ∧ t.md.mstate = .fault ∧ t.md.cause = 0x27 ∧ mastersOpen t = true := by
  obtain ⟨hst, hcause, hopen, -⟩ := joinKill_of_heard (killHeard_checked.trans hk) (by rwa [pairCheck_mstate])
  exact ⟨_, congrArg Host.Outcome.next (xlJoin_joins h1 h2 h3 h4 h5 h6), hst, hcause, hopen⟩

theorem execXlJoin_refuses (h1 : s.xl.acting = false) (h2 : s.xl.joined = false) (h3 : 16 ≤ s.xl.observed) (h4 : joinCause s = some c)
    (h5 : s.xl.joinFailed = false) :
    ∃ t, exec .xlJoin s = .next t ∧ t.xl = { s.xl with joinFailed := true, evt := s.xl.evt ||| BitVec.twoPow 32 9 } ∧
      (s.md.mstate = .run → c ∈ t.md.holdPend) ∧ onlyChanges [.md, .xl, .evr, .hp, .keep, .mem] s t := by
  refine ⟨_, congrArg Host.Outcome.next (xlJoin_refuses h1 h2 h3 h4 h5), ?_, fun hr => findCause_holdPend (.inl ?_), joinRefused_frame.next findCause_frame⟩
  · rw [findCause_xl, joinRefused, postEv_xl, xlEvt_xl]
  · rwa [joinRefused, postEv_md, xlEvt_md]

theorem execToTakeover_dark (h : pairMode s = true) (hk : s.xl.toMask.getLsbD k.val = false) : ∃ t, exec (.toTakeover k) s = .next t ∧
    t.xl = { s.xl with toMask := s.xl.toMask ||| BitVec.twoPow 16 k.val, evt := s.xl.evt ||| BitVec.twoPow 32 8 } ∧ onlyChanges [.xl, .evr, .hp, .keep, .mem] s t := by
  refine ⟨takeTos [k.val] s, congrArg Host.Outcome.next (if_pos h), ?_, takeTos_frame.wider⟩
  rw [takeTos_dark hk, postEv_xl, xlEvt_xl]

theorem execToTakeover_stays (h : pairMode s = false ∨ s.xl.toMask.getLsbD k.val = true) : exec (.toTakeover k) s = .next s := by
  rcases h with h | h
  · exact congrArg Host.Outcome.next (if_neg (Bool.eq_false_iff.1 h))
  · exact congrArg Host.Outcome.next (ite_eq_right_iff.2 fun _ => takeTos_driven h)

/-- The module's own line: released after 16 cycles without the partner. -/
theorem exec_killRelease_own : exec (.killRelease false) s =
    .next (if s.xl.killOut && 16 ≤ s.xl.killGone then { s with xl := { s.xl with killOut := false, killGone := 0 } } else s) := rfl

theorem execKillRelease_ends (h1 : s.xl.killOut = true) (h2 : 16 ≤ s.xl.killGone) :
    exec (.killRelease false) s = .next { s with xl := { s.xl with killOut := false, killGone := 0 } } := by
  rw [exec_killRelease_own, if_pos (by simp [h1, h2])]

theorem execKillRelease_waits (h : s.xl.killOut = false ∨ s.xl.killGone < 16) : exec (.killRelease false) s = .next s := by
  rw [exec_killRelease_own, if_neg]
  rcases h with h | h
  · simp [h]
  · simp [Nat.not_le.2 h]

end

/-- Settles O48: each clause is one operation of the cross-link at the edge of its condition; the kill line at a join and the kill received enter `FAULT` the same way
(`enterFault_holdMasters`). -/
theorem crossLinkMastersJoinsAndKills : Obligations.CrossLinkMastersJoinsAndKills := by
  intro m at_ k s ev kill alive
  refine ⟨fun h => congrArg Host.Outcome.next (clsyncEdge_acting h), fun e h he => he ▸ execClsyncEdge_follower h, execClsyncTimeout_masters,
    fun h => congrArg Host.Outcome.next (clsyncTimeout_stays h),
    fun h1 h2 h3 h4 => ⟨execJoinTimeout_masters h1 h2 h3 h4, execJoinTimeout_killed h1 h2 h3 h4⟩,
    fun h1 h2 h3 => ⟨fun h4 h5 h6 => ⟨execXlJoin_joins h1 h2 h3 h4 h5 h6, execXlJoin_killed h1 h2 h3 h4 h5 h6⟩, fun c => execXlJoin_refuses h1 h2 h3⟩,
    fun h1 h2 h h3 h4 => ?_, fun h => congrArg Host.Outcome.next (clstopDetect_high h), fun h => congrArg Host.Outcome.next (killReceive_alone h),
    fun h ha => ⟨_, rfl, killReceive_paired h ha⟩, rfl, execKillRelease_ends, execKillRelease_waits, execToTakeover_dark, execToTakeover_stays⟩
  exact ⟨_, congrArg Host.Outcome.next (clstopDetect_low h1 h2 h h3 h4), rfl, rfl, onlyChanges.of fun b => by cases b <;> simp [Blk.same]⟩

end Sys2Proof.Machine
end
